-- ==== Sys2Proof/Word.lean ====
section
/-! DEFINITION. The bit-vector types of the manual: what crosses the link or a counter line, and the two wrapping counters. -/

namespace Sys2Proof

/-- One byte of the link, of a chip dialogue, of a PIN block, or one character (R163, R170). -/
abbrev Byte := BitVec 8

/-- The 24-bit unit carried in a slot (R4, R170). -/
abbrev UnitWord := BitVec 24

/-- The 16-bit payload of a unit, bits 19..4 of the word (R170). -/
abbrev Payload := BitVec 16

/-- A line's frame counter, and the stamp a fault takes from it: 32 bits, wrapping (R10). -/
abbrev Stamp := BitVec 32

end Sys2Proof
end

