-- ==== Sys2Proof/Config.lean ====
section
/-! DEFINITION. The fixed numbers of the Mezjar 816. The manual leaves no value free, so no constant here is opaque. -/

namespace Sys2Proof.Config

/-- Places of the Event Queue (R135). -/
def queuePlaces : Nat := 32

/-- Places of a control queue (R30), and how many of them workstation controls may use (R34). -/
def controlPlaces : Nat := 8
def beepPlaces : Nat := 6

/-- Own slots between two sendings of a state control (R32, R33). -/
def controlHold : Nat := 4

/-- Own slots a keypad has to mask for a SECURE entry (R87). -/
def armingLimit : Nat := 8

/-- Fixed timers in milliseconds: the block-wait (R92), the capture limit (R108), the answer-to-reset wait (R120). -/
def blockWaitMs : Nat := 1000
def captureLimitMs : Nat := 3000
def atrWaitMs : Nat := 1000

/-- The largest timeout a request takes; larger ones are clamped to it (R13, R83, R105). -/
def maxTimeoutMs : Nat := 300000

/-- Sizes of the buffers: a track (R104), an answer-to-reset and a response (R118), a block (R82), the fault log (R146). -/
def trackSize : Nat := 112
def atrSize : Nat := 33
def responseSize : Nat := 258
def blockSize : Nat := 16
def logSize : Nat := 10

/-- Saturation points: 16-bit counts, 8-bit counts, and the repeat count of a log entry (R146, R82, R149). -/
def maxCount : Nat := 65535
def maxSmall : Nat := 255

/-- The part revision number carried by POWER_UP (R162). -/
def revision : Nat := 1

end Sys2Proof.Config
end

