-- ==== Sys2Proof/Syntax.lean ====
section
/-! DEFINITION. The commands of the Mezjar 816: one constructor of `Instr` for each row of the opcode table, with the types of
their operands. A request carries its fields as the numbers the link carries (R163): an enumeration is its index, NONE and EMPTY
are the all-ones value 255, and a field left out of the message is `none`. -/

namespace Sys2Proof

/-- The two counter lines. -/
inductive LineId
  | a
  | b
  deriving DecidableEq, Repr

/-- A context number 0..15. -/
abbrev CtxId := Fin 16

/-- The keypad part of SET INDICATORS: a text, four lamp states, a beep, each optional (R66). -/
structure KeypadPart where
  text  : Option (List Byte)
  lamp1 : Option Nat
  lamp2 : Option Nat
  lamp3 : Option Nat
  lamp4 : Option Nat
  beep  : Option Nat
  deriving DecidableEq, Repr

/-- The reader part of SET INDICATORS: a bezel lamp state and a beep, each optional (R66). -/
structure ReaderPart where
  bezel : Option Nat
  beep  : Option Nat
  deriving DecidableEq, Repr

/-- One capture rule as DROP PROFILE carries it: track, start code (255: NONE), end codes, count (R39, R40, R103). -/
structure RuleField where
  track : Nat
  start : Nat
  ends  : List Nat
  count : Nat
  deriving DecidableEq, Repr

/-- The optional fields of DROP PROFILE (section 3.2). -/
structure ProfileFields where
  line        : Option Nat
  address     : Option Nat
  kind        : Option Nat
  q           : Option Nat
  d           : Option Nat
  rules       : Option (List RuleField)
  chipTimeout : Option Nat
  deriving DecidableEq, Repr

/-- The fields of OPEN ENTRY after the position (R83). -/
structure EntryFields where
  kind     : Nat
  min      : Nat
  max      : Nat
  terms    : Option (List Nat)
  firstKey : Option Nat
  interKey : Option Nat
  total    : Option Nat
  echo     : Option Nat
  prompt   : Option (List Byte)
  deriving DecidableEq, Repr

/-- One class setting of FAULT SETUP (R151). -/
structure ClassSetting where
  cls    : Nat
  detect : Option Nat
  report : Option Nat
  deriving DecidableEq, Repr

/-- The fields of LOOP START after the lines (R154). -/
structure LoopFields where
  pattern      : Option (List Nat)
  passLimit    : Option Nat
  continuous   : Option Nat
  stopOnError  : Option Nat
  participants : Option (List Nat)
  deriving DecidableEq, Repr

/-- The 26 requests of R169, without their tag. Lines that a request names as "A, B or both" are 0, 1, 2. -/
inductive Request
  | status
  | restart
  | lineSetup (line rate slots pmin : Nat)
  | lineStart (lines : Nat)
  | lineStop (lines : Nat)
  | loadSchedule (line : Nat) (entries : List Nat)
  | readSchedule (line : Nat)
  | bindPosition (pos : Nat) (reader keypad : Option Nat)
  | setIndicators (pos : Nat) (keypad : Option KeypadPart) (reader : Option ReaderPart)
  | openEntry (pos : Nat) (fields : EntryFields)
  | cancelEntry (pos : Nat)
  | armReader (pos mask : Nat) (timeout : Option Nat)
  | disarmReader (pos : Nat)
  | dropProfile (ctx : Nat) (fields : ProfileFields)
  | dropRelease (ctx : Nat)
  | chipStart (pos : Nat)
  | chipExchange (pos : Nat) (command : List Byte)
  | chipStop (pos : Nat)
  | releaseCard (pos : Nat)
  | setLevels (kind level : Nat)
  | faultSetup (settings : Option (List ClassSetting)) (style : Option Nat)
  | readFaults
  | clearFaults
  | loopStart (lines : Nat) (fields : LoopFields)
  | loopStop (lines : Nat)
  | readLoopResults (lines : Nat)
  deriving DecidableEq, Repr

/-- The four timers of an entry, in the order R100 lists them. -/
inductive EntryTimer
  | firstKey
  | interKey
  | total
  | blockWait
  deriving DecidableEq, Repr

/-- A timer expiry: which timer of which context. -/
inductive Expiry
  | entry (ctx : CtxId) (timer : EntryTimer)
  | arm (ctx : CtxId)
  | captureLimit (ctx : CtxId)
  | atrWait (ctx : CtxId)
  | response (ctx : CtxId)
  deriving DecidableEq, Repr

/-- Which of the two events of a frame mark is taken first: the swap of the Schedule Store, or the Loop Tester's entry or
check (R27 gives both orders). -/
inductive MarkOrder
  | swapFirst
  | testFirst
  deriving DecidableEq, Repr

/-- The levels on the strap pins: STRAP0 at one of four levels (0 GND direct, 1 resistor to GND, 2 resistor to VDD, 3 VDD direct),
STRAP1 and STRAP2 high or low (R161). -/
structure StrapPins where
  strap0 : Fin 4
  strap1 : Bool
  strap2 : Bool
  deriving DecidableEq, Repr

/-- What causes a power-up reset: the supply, or the assertion of RESET# (5.6 of the overview, R161). -/
inductive ResetCause
  | supply
  | pin
  deriving DecidableEq, Repr

/-- What the upstream pair carried in a slot: nothing, or a unit that began `start` bit-times after the start of the unit window
and of which `nbits` bits arrived, the first in bit 23 of `bits` (R11). Bits that did not arrive are not read. -/
inductive Upstream
  | nothing
  | unit (start nbits : Nat) (bits : UnitWord)
  deriving DecidableEq, Repr

/-- CTS as the pin shows it: asserted, or negated at an instant by which `started` bytes of the message in transmission have been started
(R166). -/
inductive CtsLevel
  | asserted
  | negated (started : Nat)
  deriving DecidableEq, Repr

/-- The commands: the 46 rows of the opcode table. -/
inductive Instr
  | status (tag : Byte)
  | restart (tag : Byte)
  | lineSetup (tag : Byte) (line rate slots pmin : Nat)
  | lineStart (tag : Byte) (lines : Nat)
  | lineStop (tag : Byte) (lines : Nat)
  | loadSchedule (tag : Byte) (line : Nat) (entries : List Nat)
  | readSchedule (tag : Byte) (line : Nat)
  | bindPosition (tag : Byte) (pos : Nat) (reader keypad : Option Nat)
  | setIndicators (tag : Byte) (pos : Nat) (keypad : Option KeypadPart) (reader : Option ReaderPart)
  | openEntry (tag : Byte) (pos : Nat) (fields : EntryFields)
  | cancelEntry (tag : Byte) (pos : Nat)
  | armReader (tag : Byte) (pos mask : Nat) (timeout : Option Nat)
  | disarmReader (tag : Byte) (pos : Nat)
  | dropProfile (tag : Byte) (ctx : Nat) (fields : ProfileFields)
  | dropRelease (tag : Byte) (ctx : Nat)
  | chipStart (tag : Byte) (pos : Nat)
  | chipExchange (tag : Byte) (pos : Nat) (command : List Byte)
  | chipStop (tag : Byte) (pos : Nat)
  | releaseCard (tag : Byte) (pos : Nat)
  | setLevels (tag : Byte) (kind level : Nat)
  | faultSetup (tag : Byte) (settings : Option (List ClassSetting)) (style : Option Nat)
  | readFaults (tag : Byte)
  | clearFaults (tag : Byte)
  | loopStart (tag : Byte) (lines : Nat) (fields : LoopFields)
  | loopStop (tag : Byte) (lines : Nat)
  | readLoopResults (tag : Byte) (lines : Nat)
  | linkMessageReceived (bytes : List Byte)
  | linkGapTimeout
  | messageSendStart
  | messageSent (pins : StrapPins)
  | restartTimeout (pins : StrapPins)
  | ctsChange (level : CtsLevel)
  | powerUpReset (cause : ResetCause) (pins : StrapPins)
  | resetRelease (pins : StrapPins)
  | startupWaitEnd
  | frameMark (line : LineId) (first : List Expiry) (order : MarkOrder)
  | slotStart (line : LineId) (slot : Nat)
  | slotCompletion (line : LineId) (slot : Nat) (up : Upstream)
  | entryTimerExpiry (ctx : CtxId) (timer : EntryTimer)
  | armTimerExpiry (ctx : CtxId)
  | captureLimitExpiry (ctx : CtxId)
  | atrWaitExpiry (ctx : CtxId)
  | responseTimeout (ctx : CtxId)
  | stoppedFrameEnd (line : LineId)
  | driverTrip (line : LineId)
  | driverFaultInputCleared (line : LineId)
  deriving DecidableEq, Repr

end Sys2Proof
end

