-- ==== Sys2Proof/Decode.lean ====
section
/-! DEFINITION. The command that a word spells by the table's bits. No row of the opcode table gives bits (its "fields" are empty and
it has no "fixed" entry), so no word spells a command. The bytes of a message on the link are read by Machine/Parse.lean. -/

namespace Sys2Proof

/-- The table gives no row any bits: no word spells a command. -/
def decodeTableWord (_nbits _w : Nat) : Option Instr := none

end Sys2Proof
end

