-- ==== Sys2Proof/Machine/State.lean ====
section
/-! DEFINITION. The state of the Mezjar 816 as plain data, the reasons a command can stop, and the state right after a power-up reset.
Every item of the manual's state tables (R1, R22, R30, R39, R59, R72, R82, R104, R118, R135, R146, R153, R161 to R168) is a field
here; the few fields the manual only implies say so. `Part` is the part; `State` adds the queue of commands that are waiting. -/

namespace Sys2Proof.Machine

/-! ### Names -/

/-- A position 1..8, counted here from 0 (R59). -/
abbrev PosId := Fin 8

/-- Bit rate R of a line, in kbit/s (R1). -/
inductive BitRate
  | r250
  | r500
  | r1000
  | r2000
  deriving DecidableEq, Repr

/-- Line state (R1). -/
inductive LineState
  | idle
  | run
  | test
  deriving DecidableEq, Repr

/-- Kind of a drop (R39). -/
inductive DropKind
  | keypad
  | readerStripe
  | readerHybrid
  deriving DecidableEq, Repr

/-- Attachment state of a context (R39, R45). -/
inductive Attach
  | free
  | parked
  | waiting
  | attached
  | mismatch
  | lost
  | looping
  deriving DecidableEq, Repr

/-- Scan form of a keypad: OPEN reports all 16 keys, MASKED hides which digit is down (R71). -/
inductive ScanForm
  | opened
  | masked
  deriving DecidableEq, Repr

/-- Lamp state (R65). -/
inductive Lamp
  | off
  | on
  | blink
  deriving DecidableEq, Repr

/-- What a hybrid reader last reported of its latch or contact power (R30). -/
inductive Reported
  | off
  | on
  | unknown
  deriving DecidableEq, Repr

/-- Card state of a reader (R104). -/
inductive CardState
  | unknown
  | noCard
  | swiping
  | inserted
  | latched
  deriving DecidableEq, Repr

/-- Why an operation ends when the attachment or the line changes (R57). -/
inductive Cause
  | dropLost
  | dropRestarted
  | unscheduled
  | lineStopped
  | lineFault
  deriving DecidableEq, Repr

/-- The ten fault classes (R147), in the order of its table. -/
inductive FaultClass
  | unitDamaged
  | dropLost
  | dropKind
  | dropRestart
  | streamProtocol
  | keypadUnmasked
  | lineDrive
  | loopMiscompare
  | linkFrame
  | eventDiscard
  deriving DecidableEq, Repr

/-- The four link errors (R164). -/
inductive LinkError
  | check
  | length
  | gap
  | overflow
  deriving DecidableEq, Repr

/-- Why a keypad is taken as not masking (R87, R87a). -/
inductive Unmask
  | armingLimit
  | openScan
  deriving DecidableEq, Repr

/-- The kinds of a miscompare (R157). -/
inductive Miscompare
  | silent
  | damaged
  | value
  deriving DecidableEq, Repr

/-- The eleven record kinds (R136), in the order of its table. -/
inductive RecordKind
  | entryResult
  | captureResult
  | chipResult
  | loopResult
  | line
  | powerUp
  | drop
  | position
  | fault
  | card
  | key
  deriving DecidableEq, Repr

/-! ### Units and controls -/

/-- A control: a downstream unit that asks a drop to act (R170). -/
inductive Control
  | setForm (form : ScanForm)
  | beep (tens : Nat)
  | finishBlock
  | abandonBlock
  | latch
  | unlatch
  | powerOn
  | powerOff
  | loopEnter
  | loopExit
  deriving DecidableEq, Repr

/-- A downstream unit (R170). A refresh carries a display piece, with its marker FIRST or NEXT, or the lamp state. -/
inductive DownUnit
  | poll
  | resync
  | refreshText (isFirst : Bool) (c1 c2 : Byte)
  | refreshLamps (l1 l2 l3 l4 : Lamp)
  | control (c : Control)
  | chipData (b1 b2 : Byte)
  | chipEnd (last : Option Byte)
  | loopPattern (w : Payload)
  deriving DecidableEq, Repr

/-- The slot in progress on a line, from its SLOT START to its slot completion (implied by R4, R12, R32, R36).
`fromLoop`: the unit is one of the loop sequence (case 1 of R31). `forEntry`: the unit is the SET_FORM MASKED of the SECURE entry that
is arming now (R87). `call` is the slot call that announced the slot (R3), `word` the 24 bits sent in its unit window (R170). -/
structure SlotRun where
  index    : Nat
  ctx      : CtxId
  unit     : DownUnit
  fromLoop : Bool
  forEntry : Bool
  call     : Byte
  word     : UnitWord
  deriving DecidableEq, Repr

/-! ### Loop Tester (R153) -/

inductive TestState
  | noTest
  | accepted
  | inTest
  | stopRequested
  deriving DecidableEq, Repr

inductive Finish
  | running
  | done
  | unscheduled
  deriving DecidableEq, Repr

/-- The error a loop record holds (R157). -/
structure LoopError where
  kind    : Miscompare
  index   : Nat
  pass    : Nat
  payload : Option Payload
  upKind  : Option Nat
  deriving DecidableEq, Repr

/-- A participant's loop record (R153), with the context's drop address at the entry. -/
structure LoopRecord where
  ctx     : CtxId
  address : Nat
  slot    : Nat
  passes  : Nat
  finish  : Finish
  error   : Option LoopError
  deriving DecidableEq, Repr

/-- The setup of a loop test (R153): four payloads, the pass limit, two flags, and the participant set if one was given. -/
structure LoopSetup where
  pattern      : Vector Payload 4
  passLimit    : Nat
  continuous   : Bool
  stopOnError  : Bool
  participants : Option (List CtxId)
  deriving DecidableEq, Repr

inductive LoopOutcome
  | passed
  | failed
  | stopped
  | empty
  | aborted
  deriving DecidableEq, Repr

/-- The body of a LOOP_RESULT (R160). -/
structure LoopBody where
  outcome    : LoopOutcome
  setup      : LoopSetup
  entryFrame : Option Stamp
  endFrame   : Stamp
  records    : List LoopRecord
  deriving DecidableEq, Repr

structure LoopTester where
  state       : TestState
  setup       : Option LoopSetup
  errorFlag   : Bool
  entryFrame  : Option Stamp
  records     : List LoopRecord
  lastResults : Option LoopBody
  deriving DecidableEq, Repr

/-! ### Lines -/

/-- A slot schedule: entry i names a context or is EMPTY (R22). -/
abbrev Schedule := List (Option CtxId)

/-- One Line Controller with its Loop Tester (R1, R153) and its part of the Schedule Store (R22). `calls` are the slot calls of the frame
in progress, one for each slot, taken from the active schedule at the start of the frame (R3) and none in IDLE; `nextSlot` and `inSlot`
are the position in that frame, which the manual implies. -/
structure Line where
  rate          : BitRate
  slots         : Nat
  pmin          : Nat
  frameLen      : Nat
  period        : Nat
  state         : LineState
  stopPending   : Bool
  frame         : Stamp
  driverTripped : Bool
  active        : Schedule
  waiting       : Option Schedule
  calls         : List Byte
  nextSlot      : Nat
  inSlot        : Option SlotRun
  loop          : LoopTester
  deriving DecidableEq, Repr

/-! ### Keypads (R72, R82) -/

/-- Debounce state of one virtual key (R72). -/
structure KeyState where
  down : Bool
  run  : Nat
  deriving DecidableEq, Repr

inductive EntryKind
  | opened
  | secure
  deriving DecidableEq, Repr

inductive EntryState
  | arming
  | collecting
  | closing
  deriving DecidableEq, Repr

/-- A set of terminator keys (R82). -/
structure TermSet where
  enter : Bool
  f1    : Bool
  f2    : Bool
  deriving DecidableEq, Repr

/-- The entry record (R82), with the timeouts in ms from which timers are converted (R92) and the terminator kept for the result
(R90). A timer is `none` when stopped, `some n` when running with n frames to go; `some 0` is a timer whose expiry is due. -/
structure Entry where
  kind     : EntryKind
  owner    : PosId
  min      : Nat
  max      : Nat
  terms    : TermSet
  echo     : Bool
  state    : EntryState
  digits   : List Nat
  count    : Nat
  ignored  : Nat
  arming   : Option Nat
  firstMs  : Nat
  interMs  : Nat
  firstKey : Option Nat
  interKey : Option Nat
  total    : Option Nat
  blockWait : Option Nat
  block    : List Byte
  endKey   : Option Nat
  deriving DecidableEq, Repr

/-- Working state of a keypad context: Key Scanner (R72) and Entry Engine (R82). `keys` follows the virtual keys of the reported
form: keys 0 to 15 in OPEN form; keys 10 to 15, then DIGIT, in MASKED form. -/
structure Keypad where
  reported : ScanForm
  keys     : List KeyState
  n        : Nat
  wanted   : ScanForm
  entry    : Option Entry
  deriving DecidableEq, Repr

/-! ### Readers (R103, R104) -/

/-- A capture rule (R103): start code or NONE, end codes, count. -/
structure TrackRule where
  start : Option Byte
  ends  : List Byte
  count : Nat
  deriving DecidableEq, Repr

/-- The capture rules of tracks 1 to 3 (R39). -/
structure Rules where
  t1 : TrackRule
  t2 : TrackRule
  t3 : TrackRule
  deriving DecidableEq, Repr

/-- A set of tracks: a track mask (R105), or the tracks seen (R117). -/
structure TrackSet where
  t1 : Bool
  t2 : Bool
  t3 : Bool
  deriving DecidableEq, Repr

inductive TrackState
  | seeking
  | collecting
  | ended
  deriving DecidableEq, Repr

inductive EndedBy
  | endCode
  | count
  | trackEnd
  | truncated
  deriving DecidableEq, Repr

/-- The reader's status of a track, from TRACK_END (R111). -/
inductive ReaderStatus
  | ok
  | noData
  | lrcBad
  deriving DecidableEq, Repr

/-- A track record (R104). `taken`: a character was taken in COLLECTING (R113). -/
structure TrackRec where
  track      : Nat
  rule       : TrackRule
  state      : TrackState
  endedBy    : Option EndedBy
  startFound : Bool
  taken      : Bool
  status     : Option ReaderStatus
  parity     : Bool
  buffer     : List Byte
  deriving DecidableEq, Repr

inductive CaptureState
  | armed
  | capturing
  deriving DecidableEq, Repr

/-- The capture record (R104); a capture state of IDLE is its absence. -/
structure Capture where
  state      : CaptureState
  owner      : PosId
  mask       : TrackSet
  armTimer   : Option Nat
  limitTimer : Option Nat
  tracks     : List TrackRec
  deriving DecidableEq, Repr

/-- Working state of a reader context (R104). -/
structure Reader where
  card      : CardState
  capture   : Option Capture
  seen      : TrackSet
  discarded : Nat
  deriving DecidableEq, Repr

/-! ### Chip Channel (R118) -/

inductive Session
  | off
  | starting
  | ready
  | sending
  | awaiting
  deriving DecidableEq, Repr

/-- Working state of a hybrid reader: what it reported (R39) and the chip session record (R118). -/
structure Chip where
  reportedLatch : Reported
  reportedPower : Reported
  session       : Session
  owner         : Option PosId
  wantedLatch   : Bool
  wantedPower   : Bool
  discardLate   : Bool
  powerSeen     : Bool
  atr           : List Byte
  atrWait       : Option Nat
  exchanges     : Nat
  command       : List Byte
  unitsSent     : Nat
  response      : List Byte
  overrun       : Bool
  respTimer     : Option Nat
  deriving DecidableEq, Repr

/-! ### Contexts (R39) and positions (R59) -/

/-- Identity and behaviour fields (R39); the fields a kind does not have are absent. -/
structure Profile where
  line        : LineId
  address     : Nat
  kind        : DropKind
  q           : Nat
  d           : Option Nat
  rules       : Option Rules
  chipTimeout : Option Nat
  deriving DecidableEq, Repr

/-- Reported features (R48). -/
structure Features where
  display : Bool
  lamps   : Nat
  deriving DecidableEq, Repr

/-- An indicator image, in the shape of its context's kind (R59, R65). -/
inductive Image
  | blank
  | keypad (chars : Vector Byte 16) (lamps : Vector Lamp 4)
  | reader (bezel : Lamp)
  deriving DecidableEq, Repr

/-- A drop context (R39), with the Slot Service's state for it (R30) and its image (R59). `fresh`: it has had no slot completion since
it entered ATTACHED, which R49 asks. -/
structure Context where
  attach    : Attach
  profile   : Option Profile
  miss      : Nat
  holder    : Option PosId
  features  : Option Features
  lateBlock : Bool
  fresh     : Bool
  controls  : List Control
  formHold  : Nat
  latchHold : Nat
  powerHold : Nat
  cursor    : Nat
  keypad    : Option Keypad
  reader    : Option Reader
  chip      : Option Chip
  image     : Image
  deriving DecidableEq, Repr

/-- A teller position's two pointers (R59). -/
structure Position where
  reader : Option CtxId
  keypad : Option CtxId
  deriving DecidableEq, Repr

/-! ### Fault Record (R146) -/

/-- The detail of a detection (R147). -/
inductive Detail
  | slot (index : Nat)
  | threshold (q : Nat)
  | kindCode (code : Nat)
  | unitCode (code : Nat)
  | unmask (why : Unmask)
  | lineState (state : LineState)
  | miscompare (kind : Miscompare)
  | link (error : LinkError)
  | level (level : Nat)
  deriving DecidableEq, Repr

/-- A detection: class, and the optional line, context, stamp and detail (R146, R147). -/
structure Detection where
  cls    : FaultClass
  line   : Option LineId
  ctx    : Option CtxId
  stamp  : Option Stamp
  detail : Option Detail
  deriving DecidableEq, Repr

/-- Settings, count and later-fault membership of one class (R146). -/
structure ClassRow where
  detect : Bool
  report : Bool
  count  : Nat
  later  : Bool
  deriving DecidableEq, Repr

/-- A fault log entry (R146, R149). -/
structure LogEntry where
  detection : Detection
  repeats   : Nat
  deriving DecidableEq, Repr

inductive LogStyle
  | shift
  | keepFirst
  | off
  deriving DecidableEq, Repr

structure FaultRecord where
  classes : Vector ClassRow 10
  first   : Option Detection
  log     : List LogEntry
  style   : LogStyle
  deriving DecidableEq, Repr

/-! ### Records (R136, R138) -/

/-- Outcome of an entry (R100). -/
inductive EntryOutcome
  | completed
  | customerCancelled
  | workstationCancelled
  | timedOut
  | keypadUnmasked
  | blockFault
  | ended (cause : Cause)
  deriving DecidableEq, Repr

inductive BlockFault
  | overlong
  | length
  | refused
  deriving DecidableEq, Repr

/-- Detail of an entry result (R100). -/
inductive EntryDetail
  | timer (t : EntryTimer)
  | unmask (why : Unmask)
  | block (why : BlockFault)
  deriving DecidableEq, Repr

/-- Body of an ENTRY_RESULT (R101). -/
structure EntryBody where
  kind       : EntryKind
  outcome    : EntryOutcome
  endKey     : Option Nat
  detail     : Option EntryDetail
  digits     : Option (List Nat)
  count      : Nat
  ignored    : Nat
  block      : Option (List Byte)
  blockBytes : Option Nat
  deriving DecidableEq, Repr

/-- Outcome of a capture (R114). -/
inductive CaptureOutcome
  | completed
  | armExpired
  | incomplete
  | workstationCancelled
  | ended (cause : Cause)
  deriving DecidableEq, Repr

/-- Status of a track in a result (R113). -/
inductive TrackStatus
  | ok
  | noData
  | parity
  | lrcBad
  | truncated
  deriving DecidableEq, Repr

/-- Track entry of a CAPTURE_RESULT (R115); `endedBy` is absent for OPEN. -/
structure TrackEntry where
  track   : Nat
  status  : TrackStatus
  endedBy : Option EndedBy
  chars   : Option (List Byte)
  deriving DecidableEq, Repr

structure CaptureBody where
  outcome : CaptureOutcome
  mask    : TrackSet
  tracks  : List TrackEntry
  deriving DecidableEq, Repr

/-- Status of a chip dialogue as the drop reports it (R170). -/
inductive DropStatus
  | ok
  | mute
  | parity
  | contactFault
  deriving DecidableEq, Repr

/-- Outcome of a chip start (R133). -/
inductive StartOutcome
  | ready
  | mute
  | parity
  | contactFault
  | atrLength
  | timedOut
  | stopped
  | cardRemoved
  | powerLost
  | ended (cause : Cause)
  deriving DecidableEq, Repr

/-- Status of an exchange (R133). -/
inductive ExchangeStatus
  | ok
  | mute
  | parity
  | contactFault
  | overrun
  | timedOut
  | stopped
  | cardRemoved
  | powerLost
  | ended (cause : Cause)
  deriving DecidableEq, Repr

/-- Reason of a session end (R128). -/
inductive EndReason
  | stopped
  | contactFault
  | exchangeTimeout
  | cardRemoved
  | powerLost
  | ended (cause : Cause)
  deriving DecidableEq, Repr

/-- Body of a CHIP_RESULT (R133). -/
inductive ChipBody
  | start (outcome : StartOutcome) (atr : Option (List Byte))
  | exchange (number : Nat) (status : ExchangeStatus) (response : List Byte)
  | sessionEnd (reason : EndReason) (exchanges : Nat)
  deriving DecidableEq, Repr

/-- Reason of a LINE notice (R21). -/
inductive LineReason
  | started
  | stopped
  | driverFault
  | testEntered
  | testEnded
  deriving DecidableEq, Repr

/-- Cause of a DROP notice (R58). -/
inductive DropCause
  | attached
  | mismatch
  | restarted
  | lost
  | scheduled
  | unscheduled
  deriving DecidableEq, Repr

/-- What a HELLO reported, as a DROP notice carries it (R58): kind code, display, lamp count as taken by R48. -/
structure HelloInfo where
  kindCode : Nat
  features : Features
  deriving DecidableEq, Repr

inductive PointerKind
  | reader
  | keypad
  deriving DecidableEq, Repr

inductive ClearCause
  | released
  | kindChanged
  deriving DecidableEq, Repr

inductive CardCause
  | changed
  | lost
  deriving DecidableEq, Repr

/-- A virtual key: a key number, or DIGIT without a value (R71). -/
inductive VKey
  | key (n : Fin 16)
  | digit
  deriving DecidableEq, Repr

/-- Which reset a POWER_UP notice reports (R162). -/
inductive ResetKind
  | power
  | restart
  deriving DecidableEq, Repr

/-- The strap settings taken (R161): link rate in bit/s, CTS flow control, default line bit rate. -/
structure Straps where
  linkRate : Nat
  flow     : Bool
  lineRate : BitRate
  deriving DecidableEq, Repr

/-- The body of a record. A `card` notice of cause CHANGED or LOST and one of cause SWIPED_UNARMED carry different fields (R116, R117). -/
inductive Body
  | entry (b : EntryBody)
  | capture (b : CaptureBody)
  | chip (b : ChipBody)
  | loop (b : LoopBody)
  | line (state : LineState) (reason : LineReason)
  | powerUp (kind : ResetKind) (revision : Nat) (firstFault : Bool) (straps : Straps)
  | drop (address : Nat) (state : Attach) (cause : DropCause) (restart : Bool) (hello : Option HelloInfo)
  | position (pointer : PointerKind) (named : CtxId) (cause : ClearCause) (after : Position)
  | fault (cls : FaultClass) (stamp : Option Stamp) (detail : Option Detail) (count : Nat) (isFirst : Bool)
  | card (before after : CardState) (cause : CardCause) (latchPower : Option (Reported × Reported))
  | swiped (present : CardState) (seen : TrackSet) (discarded : Nat)
  | key (form : ScanForm) (key : VKey)
  deriving DecidableEq, Repr

/-- A record (R138) without its send number, which it takes when it leaves the queue (R144). -/
structure Rec where
  level : Nat
  pos   : Option PosId
  ctx   : Option CtxId
  line  : Option LineId
  body  : Body
  deriving DecidableEq, Repr

/-- What a reservation is for (R135, R139): the operation and the context or line it serves. -/
inductive Reservation
  | entry (ctx : CtxId)
  | capture (ctx : CtxId)
  | chipStart (ctx : CtxId)
  | chipEnd (ctx : CtxId)
  | exchange (ctx : CtxId)
  | loop (line : LineId)
  deriving DecidableEq, Repr

/-- The Event Queue (R135). `records` stands in admission order, oldest first; a place is free when neither list uses it. -/
structure EventQueue where
  records      : List Rec
  reservations : List Reservation
  levels       : Vector Nat 11
  discards     : Vector Nat 5
  sendNumber   : BitVec 16
  deriving DecidableEq, Repr

/-! ### Link Interface (R161 to R168) -/

/-- Refusal codes (R169). -/
inductive RefusalCode
  | unknownKind
  | badLength
  | badField
  | wrongState
  | busy
  | notBound
  | notAttached
  | noResultRoom
  | controlFull
  deriving DecidableEq, Repr

/-- How a request was answered (R165): ACCEPTED with the reply's items, item i (from 0) being field code i + 1 and `none` an item left
out, or REFUSED with a code and the field code of the field refused, or 0. -/
inductive Answer
  | accepted (items : List (Option (List Byte)))
  | refused (code : RefusalCode) (field : Nat)
  deriving DecidableEq, Repr

/-- A reply (R165, R169): it echoes the request's tag and kind byte. -/
structure Reply where
  tag    : Byte
  kind   : Byte
  answer : Answer
  deriving DecidableEq, Repr

/-- A good message as R165 reads it: a request, or the refusal of its steps 1 to 3. -/
inductive Parsed
  | good (r : Request)
  | bad (code : RefusalCode) (field : Nat)
  deriving DecidableEq, Repr

/-- A good message with its kind and tag bytes. -/
structure Message where
  kind : Byte
  tag  : Byte
  read : Parsed
  deriving DecidableEq, Repr

/-- What is being sent: a reply, or a record with its send number (R143, R144). -/
inductive Sending
  | reply (r : Reply)
  | record (r : Rec) (sendNumber : BitVec 16)
  deriving DecidableEq, Repr

/-- A message in transmission with its bytes on TXD (R163). `started`: how many of its bytes had been started when CTS was last negated
with flow control on; until then 1, the byte that began with the message (R166). -/
structure Tx where
  what    : Sending
  bytes   : List Byte
  started : Nat
  deriving DecidableEq, Repr

/-- Start-up of the link (R162): RESET# held low, the 50 ms wait, or running. -/
inductive Phase
  | held
  | startup
  | running
  deriving DecidableEq, Repr

structure Link where
  phase      : Phase
  resetKind  : ResetKind
  straps     : Straps
  cts        : Bool
  rts        : Bool
  rx         : List Byte
  inHand     : Bool
  reply      : Option Reply
  held       : Option Message
  tx         : Option Tx
  errors     : Vector Nat 4
  restarting : Bool
  deriving DecidableEq, Repr

/-! ### The part and the machine -/

/-- The Mezjar 816. -/
structure Part where
  lineA     : Line
  lineB     : Line
  ctxs      : Vector Context 16
  positions : Vector Position 8
  queue     : EventQueue
  faults    : FaultRecord
  link      : Link
  deriving DecidableEq, Repr

/-- The machine: the part, and the commands that are waiting, first in, first out. -/
structure State where
  part    : Part
  pending : List Instr
  deriving DecidableEq, Repr

/-- No command stops the part: the manual's fault classes are detections that the Fault Record takes (R148), and the part goes on. -/
inductive Fault
  deriving DecidableEq, Repr

/-- Reasons a command has no meaning. -/
inductive Refusal
  /-- Raised by no arm: every row of the table has its meaning. It stays for the host, and is safe (the machine would stop). -/
  | notModelled (mnemonic : String)
  deriving DecidableEq, Repr

/-! ### Reset values -/

/-- Level table after a reset (R136). -/
def levelDefaults : Vector Nat 11 := #v[4, 4, 4, 3, 5, 5, 3, 3, 2, 2, 1]

/-- Event Queue after a reset (R135). -/
def EventQueue.fresh : EventQueue where
  records := []
  reservations := []
  levels := levelDefaults
  discards := #v[0, 0, 0, 0, 0]
  sendNumber := 0

/-- Settings of a class after a power-up (R146). -/
def ClassRow.fresh (report : Bool) : ClassRow := { detect := true, report, count := 0, later := false }

/-- Fault Record after a power-up (R146): all reported but UNIT_DAMAGED and EVENT_DISCARD. -/
def FaultRecord.fresh : FaultRecord where
  classes := #v[.fresh false, .fresh true, .fresh true, .fresh true, .fresh true, .fresh true, .fresh true, .fresh true,
    .fresh true, .fresh false]
  first := none
  log := []
  style := .shift

/-- Loop Tester after a reset (R153). -/
def LoopTester.fresh : LoopTester where
  state := .noTest
  setup := none
  errorFlag := false
  entryFrame := none
  records := []
  lastResults := none

/-- A FREE context with no image (R39, R59). -/
def Context.free : Context where
  attach := .free
  profile := none
  miss := 0
  holder := none
  features := none
  lateBlock := false
  fresh := false
  controls := []
  formHold := 0
  latchHold := 0
  powerHold := 0
  cursor := 0
  keypad := none
  reader := none
  chip := none
  image := .blank

/-- A line after a power-up reset with the strap rate 500 kbit/s: S = 8, L = 272, P = 544 (R1). -/
def Line.afterPowerUp : Line where
  rate := .r500
  slots := 8
  pmin := 0
  frameLen := 272
  period := 544
  state := .idle
  stopPending := false
  frame := 0
  driverTripped := false
  active := [none, none, none, none, none, none, none, none]
  waiting := none
  calls := []
  nextSlot := 0
  inSlot := none
  loop := .fresh

/-- The Link Interface right after a supply power-up (R162): the start-up wait has begun. DESIGN CHOICE (log 7, unsafe): the strap pins
read GND direct, low, low, and CTS is negated; the manual leaves the pins to the board. -/
def Link.afterPowerUp : Link where
  phase := .startup
  resetKind := .power
  straps := { linkRate := 57600, flow := false, lineRate := .r500 }
  cts := false
  rts := false
  rx := []
  inHand := false
  reply := none
  held := none
  tx := none
  errors := #v[0, 0, 0, 0]
  restarting := false

/-- The part right after a supply power-up. -/
def Part.afterPowerUp : Part where
  lineA := .afterPowerUp
  lineB := .afterPowerUp
  ctxs := Vector.replicate 16 .free
  positions := Vector.replicate 8 { reader := none, keypad := none }
  queue := .fresh
  faults := .fresh
  link := .afterPowerUp

/-- The machine right after reset, with no command waiting. -/
def State.reset : State where
  part := .afterPowerUp
  pending := []

end Sys2Proof.Machine
end

