-- ==== Sys2Proof/Machine/Ops.lean ====
section
/-! DEFINITION. The named operations every meaning is built from: reading and updating a line or a context, frame arithmetic
(R5, R6, R13, R14), slot counts (R22), and the pass over the contexts of a line in ascending number. -/

namespace Sys2Proof.Machine

/-! ### Lines and contexts of the part -/

def Part.line (p : Part) : LineId → Line
  | .a => p.lineA
  | .b => p.lineB

def Part.setLine (p : Part) (l : LineId) (x : Line) : Part :=
  match l with
  | .a => { p with lineA := x }
  | .b => { p with lineB := x }

def Part.modLine (p : Part) (l : LineId) (f : Line → Line) : Part := p.setLine l (f (p.line l))

def Part.ctx (p : Part) (c : CtxId) : Context := p.ctxs.get c

def Part.setCtx (p : Part) (c : CtxId) (x : Context) : Part := { p with ctxs := p.ctxs.set c.val x c.isLt }

def Part.modCtx (p : Part) (c : CtxId) (f : Context → Context) : Part := p.setCtx c (f (p.ctx c))

def Part.position (p : Part) (i : PosId) : Position := p.positions.get i

def Part.setPosition (p : Part) (i : PosId) (x : Position) : Part :=
  { p with positions := p.positions.set i.val x i.isLt }

def Part.setQueue (p : Part) (q : EventQueue) : Part := { p with queue := q }

def Part.setFaults (p : Part) (f : FaultRecord) : Part := { p with faults := f }

def Part.setLink (p : Part) (k : Link) : Part := { p with link := k }

/-- Run a change of the part as a command's effect: the command queue is left as it is. -/
def State.onPart (s : State) (f : Part → Part) : State := { s with part := f s.part }

/-- A command whose effect on the part is `f`. -/
def effect (f : Part → Part) (s : State) : Host.Outcome State Fault Refusal := .next (s.onPart f)

/-! ### Updates of a context's working state -/

def Context.modKeypad (x : Context) (f : Keypad → Keypad) : Context := { x with keypad := x.keypad.map f }

def Context.modReader (x : Context) (f : Reader → Reader) : Context := { x with reader := x.reader.map f }

def Context.modChip (x : Context) (f : Chip → Chip) : Context := { x with chip := x.chip.map f }

def Context.entry (x : Context) : Option Entry := x.keypad.bind (·.entry)

def Context.capture (x : Context) : Option Capture := x.reader.bind (·.capture)

/-- The session state; a context that is no hybrid reader has its session OFF (R123). -/
def Context.session (x : Context) : Session :=
  match x.chip with
  | some h => h.session
  | none => .off

def Context.setEntry (x : Context) (e : Option Entry) : Context := x.modKeypad fun k => { k with entry := e }

def Context.setCapture (x : Context) (u : Option Capture) : Context := x.modReader fun r => { r with capture := u }

def Context.lineId (x : Context) : Option LineId := x.profile.map (·.line)

def Context.kind (x : Context) : Option DropKind := x.profile.map (·.kind)

/-- The context is profiled on line `l`. -/
def Context.onLine (x : Context) (l : LineId) : Bool := x.lineId == some l

/-! ### The sixteen contexts and the eight positions, in ascending number -/

def allCtx : List CtxId := [0, 1, 2, 3, 4, 5, 6, 7, 8, 9, 10, 11, 12, 13, 14, 15]

def allPos : List PosId := [0, 1, 2, 3, 4, 5, 6, 7]

/-- Do `f` for every context in turn, from 0 to 15. -/
def Part.forContexts (p : Part) (f : CtxId → Part → Part) : Part := allCtx.foldl (fun p c => f c p) p

/-- The contexts of line `l`, in ascending number. -/
def Part.contextsOn (p : Part) (l : LineId) : List CtxId := allCtx.filter fun c => (p.ctx c).onLine l

/-! ### Frame arithmetic -/

def BitRate.kbps : BitRate → Nat
  | .r250 => 250
  | .r500 => 500
  | .r1000 => 1000
  | .r2000 => 2000

/-- Raw frame length B = 16 + 32·S (R2). -/
def rawLength (slots : Nat) : Nat := 16 + 32 * slots

/-- Start of slot i, in bit-times after the start of the mark (R2). -/
def slotOffset (i : Nat) : Nat := 16 + 32 * i

/-- L = max(16 + 32·S, Pmin·R/1000) bit-times (R5). -/
def frameLength (rate : BitRate) (slots pmin : Nat) : Nat := max (rawLength slots) (pmin * rate.kbps / 1000)

/-- P = L·1000/R µs (R6). -/
def framePeriod (rate : BitRate) (len : Nat) : Nat := len * 1000 / rate.kbps

/-- "Rounded up": the smallest integer not less than a / b. -/
def ceilDiv (a b : Nat) : Nat := (a + b - 1) / b

/-- A timer of T ms as a count of frames, n = ceil(T·R / L) (R13). -/
def Line.frames (x : Line) (ms : Nat) : Nat := ceilDiv (ms * x.rate.kbps) x.frameLen

/-- Start a timer of T ms; T = 0 starts none (R13). -/
def Line.startTimer (x : Line) (ms : Nat) : Option Nat := if ms = 0 then none else some (x.frames ms)

/-- One frame mark of a running timer (R13). A timer at 0 has its expiry due until that event is taken (log 5). -/
def tick (t : Option Nat) : Option Nat := t.map (· - 1)

/-- Bring n into lo..hi (5.3 of the overview). -/
def clamp (lo hi n : Nat) : Nat := max lo (min hi n)

/-- A line has padding when L exceeds B (R2). -/
def Line.padded (x : Line) : Bool := rawLength x.slots < x.frameLen

/-! ### Slot counts and scan counts -/

/-- k: how many entries of a schedule name context c (R22). -/
def slotCount (sched : Schedule) (c : CtxId) : Nat := sched.count (some c)

/-- N = ceil(D·R·k / L), clamped to 1..255 (R14). -/
def scanCount (x : Line) (d k : Nat) : Nat := clamp 1 255 (ceilDiv (d * x.rate.kbps * k) x.frameLen)

/-- A context's k in its line's active schedule; 0 without a profile. -/
def Part.slotsOf (p : Part) (c : CtxId) : Nat :=
  match (p.ctx c).profile with
  | some pr => slotCount (p.line pr.line).active c
  | none => 0

/-- Recompute N of a keypad from its D and k, with its line as it stands (R14). -/
def Part.recomputeScan (p : Part) (c : CtxId) (k : Nat) : Part :=
  match (p.ctx c).profile with
  | some { line, d := some d, .. } => p.modCtx c fun x => x.modKeypad fun kp => { kp with n := scanCount (p.line line) d k }
  | _ => p

/-- Make `sched` the active schedule of a line: an activation (section 2.1.2). N is recomputed for each keypad of the line whose k
changes to 1 or more; with k = 0 it keeps its value (R14). -/
def Part.activate (p : Part) (l : LineId) (sched : Schedule) : Part :=
  let old := (p.line l).active
  (p.modLine l fun x => { x with active := sched }).forContexts fun c q =>
    if (q.ctx c).onLine l && slotCount sched c ≠ slotCount old c && 0 < slotCount sched c
    then q.recomputeScan c (slotCount sched c) else q

/-! ### Timers that are due -/

/-- A timer of the context has reached 0 and its expiry has not been taken (R13, R93, R108, R109, R122, R125). -/
def Context.expiryDue (x : Context) : Bool :=
  (match x.entry with
    | some e => e.firstKey == some 0 || e.interKey == some 0 || e.total == some 0 || e.blockWait == some 0
    | none => false) ||
  (match x.capture with
    | some u => (u.state == .armed && u.armTimer == some 0) || (u.state == .capturing && u.limitTimer == some 0)
    | none => false) ||
  match x.chip with
  | some h => (h.session == .starting && h.atrWait == some 0) || (h.session == .awaiting && h.respTimer == some 0)
  | none => false

/-- A timer that runs on line l is due: it expires at the mark at which it reached 0, so no slot of the frame starts or ends, and no later mark
or end of a frame comes, before its expiry is taken (R13, log 5). -/
def Part.expiryDue (p : Part) (l : LineId) : Bool := allCtx.any fun c => (p.ctx c).onLine l && (p.ctx c).expiryDue

/-! ### Stamps and the slot in progress -/

/-- The line of a profiled context with its frame counter as it stands: what a detection names (R10, R147). -/
def Part.stampOf (p : Part) (c : CtxId) : Option LineId × Option Stamp :=
  match (p.ctx c).lineId with
  | some l => (some l, some (p.line l).frame)
  | none => (none, none)

/-- The line of context c, with R and L, for a timer started now (R13). -/
def Part.lineOf (p : Part) (c : CtxId) : Line :=
  match (p.ctx c).lineId with
  | some l => p.line l
  | none => p.lineA

/-- Forget that the slot in progress carries a SET_FORM sent for the entry on c: that entry has ended (R87, log 24). -/
def Part.forgetArming (p : Part) (c : CtxId) : Part :=
  match (p.ctx c).lineId with
  | some l => p.modLine l fun x =>
      { x with inSlot := x.inSlot.map fun r => if r.ctx = c then { r with forEntry := false } else r }
  | none => p

/-! ### The control queue -/

def Control.isBeep : Control → Bool
  | .beep _ => true
  | _ => false

/-- Remove the last element that satisfies `f`, if any. -/
def removeLast {α : Type} (f : α → Bool) (l : List α) : List α := (l.reverse.eraseP f).reverse

/-- FINISH_BLOCK or ABANDON_BLOCK joins whatever the count; with all 8 places in use the newest BEEP goes first, or the oldest control
if no BEEP is queued (R34). -/
def joinControl (c : Control) (q : List Control) : List Control :=
  if q.length < Config.controlPlaces then q ++ [c]
  else if q.any Control.isBeep then removeLast Control.isBeep q ++ [c]
  else q.drop 1 ++ [c]

end Sys2Proof.Machine
end

