-- ==== Sys2Proof/Machine/Operands.lean ====
section
/-! DEFINITION. Reading a request's numbers (R163): each enumeration from its index, a pointer that may be NONE, the lines a request
names, and the clamps of 5.3 of the overview. A reading of `none` is a value outside the field's range. -/

namespace Sys2Proof.Machine

/-- The all-ones value of a one-byte field: NONE, EMPTY (R163). -/
def noneCode : Nat := 255

def readLine : Nat → Option LineId
  | 0 => some .a
  | 1 => some .b
  | _ => none

def lineCode : LineId → Nat
  | .a => 0
  | .b => 1

/-- "Line A, line B or both": 0, 1, 2 (R15, R153, R154). -/
def readLines : Nat → Option (List LineId)
  | 0 => some [.a]
  | 1 => some [.b]
  | 2 => some [.a, .b]
  | _ => none

def readRate : Nat → Option BitRate
  | 250 => some .r250
  | 500 => some .r500
  | 1000 => some .r1000
  | 2000 => some .r2000
  | _ => none

def readCtx (n : Nat) : Option CtxId := if h : n < 16 then some ⟨n, h⟩ else none

/-- A position 1..8. -/
def readPos (n : Nat) : Option PosId := if h : 1 ≤ n ∧ n ≤ 8 then some ⟨n - 1, by omega⟩ else none

def posNumber (p : PosId) : Nat := p.val + 1

/-- A pointer: NONE, or a context 0..15. -/
def readPointer (n : Nat) : Option (Option CtxId) :=
  if n = noneCode then some none else (readCtx n).map some

/-- A schedule entry: EMPTY, or a context 0..15 (R22). -/
def readEntry (n : Nat) : Option (Option CtxId) := readPointer n

def readFlag : Nat → Option Bool
  | 0 => some false
  | 1 => some true
  | _ => none

/-- A flag that is clear when left out. -/
def readFlagOr : Option Nat → Option Bool
  | none => some false
  | some n => readFlag n

def readKind : Nat → Option DropKind
  | 0 => some .keypad
  | 1 => some .readerStripe
  | 2 => some .readerHybrid
  | _ => none

def DropKind.code : DropKind → Nat
  | .keypad => 0
  | .readerStripe => 1
  | .readerHybrid => 2

/-- The kind code a HELLO carries (R170). -/
def DropKind.helloCode : DropKind → Nat
  | .keypad => 1
  | .readerStripe => 2
  | .readerHybrid => 3

def readEntryKind : Nat → Option EntryKind
  | 0 => some .opened
  | 1 => some .secure
  | _ => none

def readLamp : Nat → Option Lamp
  | 0 => some .off
  | 1 => some .on
  | 2 => some .blink
  | _ => none

def readLogStyle : Nat → Option LogStyle
  | 0 => some .shift
  | 1 => some .keepFirst
  | 2 => some .off
  | _ => none

/-- Keys by number (R71). -/
def keyEnter : Nat := 10
def keyClear : Nat := 11
def keyBack : Nat := 12
def keyCancel : Nat := 13
def keyF1 : Nat := 14
def keyF2 : Nat := 15

/-- A terminator set: a non-empty list of keys drawn from ENTER, F1 and F2 (R83). A key named twice is named once (log 43). -/
def readTerms (l : List Nat) : Option TermSet :=
  if l ≠ [] ∧ l.all (fun k => k = keyEnter || k = keyF1 || k = keyF2)
  then some { enter := l.contains keyEnter, f1 := l.contains keyF1, f2 := l.contains keyF2 } else none

def TermSet.has (t : TermSet) (key : Nat) : Bool :=
  (key = keyEnter && t.enter) || (key = keyF1 && t.f1) || (key = keyF2 && t.f2)

/-- A track mask: bit i for track i + 1, at least one of tracks 1 to 3 and no other (R105; the bits: log 16). -/
def readMask (n : Nat) : Option TrackSet :=
  if 1 ≤ n ∧ n ≤ 7 then some { t1 := n.testBit 0, t2 := n.testBit 1, t3 := n.testBit 2 } else none

def TrackSet.mask (t : TrackSet) : Nat := t.t1.toNat + 2 * t.t2.toNat + 4 * t.t3.toNat

def TrackSet.none : TrackSet := { t1 := false, t2 := false, t3 := false }

def TrackSet.has (t : TrackSet) : Nat → Bool
  | 1 => t.t1
  | 2 => t.t2
  | 3 => t.t3
  | _ => false

def TrackSet.add (t : TrackSet) : Nat → TrackSet
  | 1 => { t with t1 := true }
  | 2 => { t with t2 := true }
  | 3 => { t with t3 := true }
  | _ => t

def TrackSet.tracks (t : TrackSet) : List Nat := [1, 2, 3].filter t.has

def Rules.get (r : Rules) : Nat → TrackRule
  | 1 => r.t1
  | 2 => r.t2
  | _ => r.t3

def Rules.put (r : Rules) (n : Nat) (x : TrackRule) : Rules :=
  match n with
  | 1 => { r with t1 := x }
  | 2 => { r with t2 := x }
  | _ => { r with t3 := x }

/-- A well-formed capture rule: start code 0..127 or NONE, at most two end codes 0..127, count 0..112 (R40), at one of tracks 1 to 3 (log 40). -/
def readRule (f : RuleField) : Option TrackRule :=
  if (f.start = noneCode ∨ f.start ≤ 127) ∧ f.ends.length ≤ 2 ∧ f.ends.all (· ≤ 127) ∧ f.count ≤ Config.trackSize
      ∧ 1 ≤ f.track ∧ f.track ≤ 3
  then some { start := if f.start = noneCode then .none else some (.ofNat 8 f.start)
              ends := f.ends.map (.ofNat 8 ·), count := f.count } else .none

/-- Default capture rules: '%' or ';' to '?', count 0 (R41, R103). -/
def defaultRules : Rules where
  t1 := { start := some 0x25, ends := [0x3F], count := 0 }
  t2 := { start := some 0x3B, ends := [0x3F], count := 0 }
  t3 := { start := some 0x3B, ends := [0x3F], count := 0 }

/-- A timeout: left out it is 0, above 300,000 ms it is 300,000 (R83, R105). -/
def takeTimeout (t : Option Nat) : Nat := min Config.maxTimeoutMs (t.getD 0)

/-- Pmin: above 20,000 it is 20,000, and it is rounded up to a multiple of 100 (R8). -/
def takePmin (n : Nat) : Nat := ceilDiv (min 20000 n) 100 * 100

def takeQ (n : Nat) : Nat := clamp 2 255 n
def takeD (n : Nat) : Nat := clamp 1 100 n
def takeChipTimeout (n : Nat) : Nat := clamp 100 60000 n
def takeBeep (n : Nat) : Nat := clamp 1 255 n

/-- Text of a display: each character outside 0x20..0x7E becomes 0x3F, characters after the 16th are dropped, spaces fill (R67). -/
def displayChar (b : Byte) : Byte := if 0x20 ≤ b.toNat ∧ b.toNat ≤ 0x7E then b else 0x3F

def displayText (t : List Byte) : Vector Byte 16 :=
  let ch (i : Nat) : Byte := (t[i]?.map displayChar).getD 0x20
  #v[ch 0, ch 1, ch 2, ch 3, ch 4, ch 5, ch 6, ch 7, ch 8, ch 9, ch 10, ch 11, ch 12, ch 13, ch 14, ch 15]

/-- The blank image of a kind: 16 spaces and lamps OFF, or bezel OFF (R59). -/
def blankImage : DropKind → Image
  | .keypad => .keypad (displayText []) #v[.off, .off, .off, .off]
  | .readerStripe => .reader .off
  | .readerHybrid => .reader .off

/-- Record kinds by number (R136, R169). -/
def RecordKind.index : RecordKind → Fin 11
  | .entryResult => 0
  | .captureResult => 1
  | .chipResult => 2
  | .loopResult => 3
  | .line => 4
  | .powerUp => 5
  | .drop => 6
  | .position => 7
  | .fault => 8
  | .card => 9
  | .key => 10

def readRecordKind : Nat → Option RecordKind
  | 0 => some .entryResult
  | 1 => some .captureResult
  | 2 => some .chipResult
  | 3 => some .loopResult
  | 4 => some .line
  | 5 => some .powerUp
  | 6 => some .drop
  | 7 => some .position
  | 8 => some .fault
  | 9 => some .card
  | 10 => some .key
  | _ => none

/-- Results finish an operation; the other kinds are notices (R136). -/
def RecordKind.isResult : RecordKind → Bool
  | .entryResult => true
  | .captureResult => true
  | .chipResult => true
  | .loopResult => true
  | _ => false

def Body.kind : Body → RecordKind
  | .entry _ => .entryResult
  | .capture _ => .captureResult
  | .chip _ => .chipResult
  | .loop _ => .loopResult
  | .line _ _ => .line
  | .powerUp _ _ _ _ => .powerUp
  | .drop _ _ _ _ _ => .drop
  | .position _ _ _ _ => .position
  | .fault _ _ _ _ _ => .fault
  | .card _ _ _ _ => .card
  | .swiped _ _ _ => .card
  | .key _ _ => .key

/-- Fault classes by number (R147). -/
def FaultClass.index : FaultClass → Fin 10
  | .unitDamaged => 0
  | .dropLost => 1
  | .dropKind => 2
  | .dropRestart => 3
  | .streamProtocol => 4
  | .keypadUnmasked => 5
  | .lineDrive => 6
  | .loopMiscompare => 7
  | .linkFrame => 8
  | .eventDiscard => 9

def readFaultClass : Nat → Option FaultClass
  | 0 => some .unitDamaged
  | 1 => some .dropLost
  | 2 => some .dropKind
  | 3 => some .dropRestart
  | 4 => some .streamProtocol
  | 5 => some .keypadUnmasked
  | 6 => some .lineDrive
  | 7 => some .loopMiscompare
  | 8 => some .linkFrame
  | 9 => some .eventDiscard
  | _ => none

def LinkError.index : LinkError → Fin 4
  | .check => 0
  | .length => 1
  | .gap => 2
  | .overflow => 3

/-- Strap settings (R161). -/
def strapSettings (s : StrapPins) : Straps where
  linkRate := match s.strap0 with
    | 0 => 57600
    | 1 => 115200
    | 2 => 230400
    | 3 => 460800
  flow := s.strap1
  lineRate := if s.strap2 then .r1000 else .r500

/-- Read every element of a list, or nothing if one is out of range. -/
def readAll {α : Type} (f : Nat → Option α) : List Nat → Option (List α)
  | [] => some []
  | n :: ns =>
    match f n, readAll f ns with
    | some a, some as => some (a :: as)
    | _, _ => none

end Sys2Proof.Machine
end

