-- ==== Sys2Proof/Machine/Flags.lean ====
section
/-! DEFINITION. Counts that saturate, the two check codes (R163, R170), and the class of an upstream unit (R11). -/

namespace Sys2Proof.Machine

/-- Add 1 to a saturating 16-bit count (5.2 of the overview). -/
def satInc (n : Nat) : Nat := if n < Config.maxCount then n + 1 else Config.maxCount

/-- Add 1 to a saturating 8-bit count. -/
def satInc8 (n : Nat) : Nat := if n < Config.maxSmall then n + 1 else Config.maxSmall

/-! ### CRC-16 of a message -/

/-- One bit of the CRC with x^16 + x^12 + x^5 + 1. -/
def crc16Bit (c : BitVec 16) (bit : Bool) : BitVec 16 :=
  if c.getMsbD 0 != bit then (c <<< 1) ^^^ 0x1021 else c <<< 1

/-- One byte, most significant bit first. -/
def crc16Byte (c : BitVec 16) (b : Byte) : BitVec 16 :=
  [7, 6, 5, 4, 3, 2, 1, 0].foldl (fun c i => crc16Bit c (b.getLsbD i)) c

/-- The CRC-16 of a run of bytes, starting from 0xFFFF and not inverted (R163). -/
def crc16 (bytes : List Byte) : BitVec 16 := bytes.foldl crc16Byte 0xFFFF

/-! ### The check of a unit -/

/-- One bit of the CRC with x^4 + x + 1. -/
def crc4Bit (c : BitVec 4) (bit : Bool) : BitVec 4 :=
  if c.getMsbD 0 != bit then (c <<< 1) ^^^ 0x3 else c <<< 1

/-- The 4-bit check over bits 23..4 of a unit, taken from bit 23, starting from 0 (R170). -/
def unitCheck (w : UnitWord) : BitVec 4 :=
  [0, 1, 2, 3, 4, 5, 6, 7, 8, 9, 10, 11, 12, 13, 14, 15, 16, 17, 18, 19].foldl (fun c i => crc4Bit c (w.getMsbD i)) 0

/-- A unit's word from its kind and payload, with its check (R170). -/
def unitWord (kind : BitVec 4) (payload : Payload) : UnitWord :=
  let w : UnitWord := kind ++ payload ++ (0 : BitVec 4)
  w ||| (unitCheck w).setWidth 24

def unitKind (w : UnitWord) : Nat := (w.extractLsb' 20 4).toNat

def unitPayload (w : UnitWord) : Payload := w.extractLsb' 4 16

/-- The check of a unit is good when its bits 3..0 are the CRC of its first 20 bits (R11, R170). -/
def unitGood (w : UnitWord) : Bool := w.extractLsb' 0 4 == unitCheck w

/-! ### Slot classes -/

/-- The class of a slot (R11). A damaged unit keeps the payload bits that arrived, the others 0, for the loop test (R157). -/
inductive SlotClass
  | received (kind : Nat) (payload : Payload)
  | silent
  | damaged (payload : Payload)
  deriving DecidableEq, Repr

/-- Keep the first n bits of a unit; the others read 0. -/
def arrived (n : Nat) (w : UnitWord) : UnitWord := w &&& ((BitVec.allOnes 24) <<< (24 - n))

/-- R11: a unit that began within the first 4 bit-times of the unit window is received when all 24 bits arrived with a good check,
and damaged otherwise; without such a unit the slot is silent. -/
def classify : Upstream → SlotClass
  | .nothing => .silent
  | .unit start nbits w =>
    if start < 4 then
      if 24 ≤ nbits then if unitGood w then .received (unitKind w) (unitPayload w) else .damaged (unitPayload w)
      else .damaged (unitPayload (arrived nbits w))
    else .silent

end Sys2Proof.Machine
end

