-- ==== Sys2Proof/Machine/Queue.lean ====
section
/-! DEFINITION. The Fault Record's taking of a detection (R148, R149) and the Event Queue's reservations, conversions and admissions
(R139 to R142): the shared operations behind every result, notice and fault. -/

namespace Sys2Proof.Machine

/-! ### The Fault Record -/

/-- Two detections coalesce in the log when class, line and context agree (R149). -/
def Detection.coalesces (a b : Detection) : Bool := a.cls == b.cls && a.line == b.line && a.ctx == b.ctx

/-- The newest entry takes a repeat (R149). -/
def LogEntry.repeated (e : LogEntry) : LogEntry := { e with repeats := satInc8 e.repeats }

/-- The log after a detection (R149). -/
def logTake (style : LogStyle) (log : List LogEntry) (d : Detection) : List LogEntry :=
  match style with
  | .off => log
  | _ =>
    match log.getLast? with
    | some newest =>
      if d.coalesces newest.detection then log.dropLast ++ [newest.repeated]
      else if log.length < Config.logSize then log ++ [{ detection := d, repeats := 1 }]
      else if style = .shift then log.drop 1 ++ [{ detection := d, repeats := 1 }]
      else log
    | none => [{ detection := d, repeats := 1 }]

/-- Take a detection (R148): count it, make it the first-fault record or put its class into the later-fault set, log it. The second
component is the body of the FAULT notice to offer, when the class is reported (R150). -/
def FaultRecord.take (f : FaultRecord) (d : Detection) : FaultRecord × Option Body :=
  let row := f.classes.get d.cls.index
  if row.detect then
    let isFirst := f.first.isNone
    let row' : ClassRow := { row with count := satInc row.count, later := row.later || !isFirst }
    ({ f with
        classes := f.classes.set d.cls.index.val row' d.cls.index.isLt
        first := if isFirst then some d else f.first
        log := logTake f.style f.log d },
     if row.report then some (.fault d.cls d.stamp d.detail row'.count isFirst) else none)
  else (f, none)

/-- A class belongs to the later-fault set (R146). -/
def FaultRecord.laterHas (f : FaultRecord) (c : FaultClass) : Bool := (f.classes.get c.index).later

/-! ### Records -/

/-- A record before its admission; its level is taken when it becomes a record (R136). -/
def Rec.of (body : Body) (pos : Option PosId := none) (ctx : Option CtxId := none) (line : Option LineId := none) : Rec :=
  { level := 0, pos, ctx, line, body }

def Rec.isNotice (r : Rec) : Bool := !r.body.kind.isResult

def EventQueue.used (q : EventQueue) : Nat := q.records.length + q.reservations.length

def EventQueue.free (q : EventQueue) : Nat := Config.queuePlaces - q.used

def EventQueue.levelOf (q : EventQueue) (r : Rec) : Nat := q.levels.get r.body.kind.index

/-- The record as it is admitted now, at the level of its kind (R136). -/
def EventQueue.stamped (q : EventQueue) (r : Rec) : Rec := { r with level := q.levelOf r }

/-- The lowest level among the queued notices. -/
def lowestNotice : List Rec → Option Nat
  | [] => none
  | r :: rs =>
    if r.isNotice then some (match lowestNotice rs with | some l => min r.level l | none => r.level) else lowestNotice rs

/-- Evict the oldest notice of level l. -/
def evictNotice (l : Nat) (rs : List Rec) : List Rec := rs.eraseP fun r => r.isNotice && r.level == l

def EventQueue.noticeCount (q : EventQueue) : Nat := q.records.countP Rec.isNotice

/-- The discard count of a level 1..5. -/
def discardIndex : Nat → Fin 5
  | 0 => 0
  | 1 => 0
  | 2 => 1
  | 3 => 2
  | 4 => 3
  | _ => 4

def EventQueue.countLoss (q : EventQueue) (l : Nat) : EventQueue :=
  { q with discards := q.discards.set (discardIndex l).val (satInc (q.discards.get (discardIndex l))) (discardIndex l).isLt }

def EventQueue.append (q : EventQueue) (r : Rec) : EventQueue := { q with records := q.records ++ [q.stamped r] }

/-- Admission of a notice (R141), with the level of the notice it loses, if any. A kind at level 0 is not offered (R137). -/
def EventQueue.takeNotice (q : EventQueue) (r : Rec) : EventQueue × Option Nat :=
  let level := q.levelOf r
  if level = 0 then (q, none)
  else if q.used < Config.queuePlaces then (q.append r, none)
  else
    match lowestNotice q.records with
    | some l => if l < level then ({ q with records := evictNotice l q.records }.append r, some l) else (q, some level)
    | none => (q, some level)

/-- Admission of the FAULT notice that reports an EVENT_DISCARD: a free place or nothing; its own loss is counted and not detected
again (R142). -/
def EventQueue.admitIfFree (q : EventQueue) (r : Rec) : EventQueue :=
  let level := q.levelOf r
  if level = 0 then q
  else if q.used < Config.queuePlaces then q.append r
  else q.countLoss level

/-- The FAULT notice of a detection, with the line and context the detection names (R150). -/
def faultNotice (d : Detection) (body : Body) : Rec := .of body none d.ctx d.line

/-- A lost notice of level l is counted, and EVENT_DISCARD is detected with the level as detail and no line, context or stamp (R142). -/
def Part.loseNotice (p : Part) (l : Nat) : Part :=
  let d : Detection := { cls := .eventDiscard, line := none, ctx := none, stamp := none, detail := some (.level l) }
  let q := p.queue.countLoss l
  match p.faults.take d with
  | (f, some body) => { p with queue := q.admitIfFree (faultNotice d body), faults := f }
  | (f, none) => { p with queue := q, faults := f }

/-- Offer a notice to the Event Queue (R141, R142). -/
def Part.offer (p : Part) (r : Rec) : Part :=
  match p.queue.takeNotice r with
  | (q, none) => p.setQueue q
  | (q, some lost) => (p.setQueue q).loseNotice lost

def Part.offerAll (p : Part) (rs : List Rec) : Part := rs.foldl Part.offer p

/-! ### Reservations -/

/-- Free places and queued notices together number at least n (R139). -/
def EventQueue.canReserve (q : EventQueue) (n : Nat) : Bool := n ≤ q.free + q.noticeCount

/-- Take one reservation: a free place, or the place of the oldest notice of the lowest level (R139). -/
def Part.reserve (p : Part) (r : Reservation) : Part :=
  let q := p.queue
  if q.used < Config.queuePlaces then p.setQueue { q with reservations := q.reservations ++ [r] }
  else
    match lowestNotice q.records with
    | some l =>
      (p.setQueue { q with records := evictNotice l q.records, reservations := q.reservations ++ [r] }).loseNotice l
    | none => p

def Part.reserveAll (p : Part) (rs : List Reservation) : Part := rs.foldl Part.reserve p

/-- A reservation becomes its result record in place: its level and its admission order are taken now (R140). -/
def Part.convert (p : Part) (r : Reservation) (rec : Rec) : Part :=
  if r ∈ p.queue.reservations
  then p.setQueue ({ p.queue with reservations := p.queue.reservations.erase r }.append rec)
  else p

/-- A reservation is released: its place becomes free (R140). -/
def Part.release (p : Part) (r : Reservation) : Part :=
  p.setQueue { p.queue with reservations := p.queue.reservations.erase r }

/-! ### Events

Within one event the results come first, then CARD notices, then the FAULT notices in the order of their detections, and then the
DROP and LINE notices (R57, R150). An `Ev` is the part in the middle of an event, with the FAULT notices and the closing notices that
are still to be offered. -/

structure Ev where
  part   : Part
  faults : List Rec
  tail   : List Rec

def Ev.of (p : Part) : Ev := { part := p, faults := [], tail := [] }

def Ev.map (e : Ev) (f : Part → Part) : Ev := { e with part := f e.part }

/-- A detection within an event: taken now, its FAULT notice offered at its place in the event (R148, R150). -/
def Ev.detect (e : Ev) (d : Detection) : Ev :=
  match e.part.faults.take d with
  | (f, some body) => { e with part := e.part.setFaults f, faults := e.faults ++ [faultNotice d body] }
  | (f, none) => { e with part := e.part.setFaults f }

/-- A DROP or LINE notice that closes the event. -/
def Ev.close (e : Ev) (r : Rec) : Ev := { e with tail := e.tail ++ [r] }

/-- The end of the event: the notices still to be offered. -/
def Ev.finish (e : Ev) : Part := (e.part.offerAll e.faults).offerAll e.tail

/-- A detection at context c: line and context named, the line's frame counter as stamp (R147). -/
def Part.detectionAt (p : Part) (cls : FaultClass) (c : CtxId) (detail : Option Detail) : Detection :=
  { cls, line := (p.stampOf c).1, ctx := some c, stamp := (p.stampOf c).2, detail }

def Ev.detectAt (e : Ev) (cls : FaultClass) (c : CtxId) (detail : Option Detail) : Ev :=
  e.detect (e.part.detectionAt cls c detail)

/-- STREAM_PROTOCOL: a received unit that does not fit, with its kind code as detail (R55). -/
def Ev.misfit (e : Ev) (c : CtxId) (kind : Nat) : Ev := e.detectAt .streamProtocol c (some (.unitCode kind))

end Sys2Proof.Machine
end

