-- ==== Sys2Proof/Machine/Units.lean ====
section
/-! DEFINITION. The 24-bit units of a counter line (R170), the slot call (R3), and a byte on the link (R163). -/

namespace Sys2Proof.Machine

/-! ### Downstream -/

def Lamp.code : Lamp → BitVec 2
  | .off => 0
  | .on => 1
  | .blink => 2

def ScanForm.code : ScanForm → Nat
  | .opened => 0
  | .masked => 1

/-- Control code and argument (R170). -/
def Control.code : Control → Byte × Byte
  | .setForm f => (1, .ofNat 8 f.code)
  | .beep n => (2, .ofNat 8 n)
  | .finishBlock => (3, 0)
  | .abandonBlock => (4, 0)
  | .latch => (5, 0)
  | .unlatch => (6, 0)
  | .powerOn => (7, 0)
  | .powerOff => (8, 0)
  | .loopEnter => (9, 0)
  | .loopExit => (10, 0)

/-- An optional trailing byte: bit 8 set when present, bits 7..0 the byte (R170). -/
def trailing : Option Byte → Payload
  | none => 0
  | some b => (1 : Byte) ++ b

/-- Kind code of a downstream unit (R170). -/
def DownUnit.kindCode : DownUnit → BitVec 4
  | .poll => 0
  | .resync => 1
  | .refreshText _ _ _ => 2
  | .refreshLamps _ _ _ _ => 2
  | .control _ => 3
  | .chipData _ _ => 4
  | .chipEnd _ => 5
  | .loopPattern _ => 6

/-- Payload of a downstream unit (R170). -/
def DownUnit.payload : DownUnit → Payload
  | .poll => 0
  | .resync => 0
  | .refreshText isFirst c1 c2 => (if isFirst then (0 : BitVec 2) else 1) ++ c1.setWidth 7 ++ c2.setWidth 7
  | .refreshLamps l1 l2 l3 l4 => (2 : BitVec 2) ++ (0 : BitVec 6) ++ l1.code ++ l2.code ++ l3.code ++ l4.code
  | .control c => c.code.1 ++ c.code.2
  | .chipData b1 b2 => b1 ++ b2
  | .chipEnd last => trailing last
  | .loopPattern w => w

/-- The word of a downstream unit, with its check (R170). -/
def DownUnit.word (u : DownUnit) : UnitWord := unitWord u.kindCode u.payload

/-- The slot call of a drop address: the address, then its complement; address 0 for an EMPTY entry (R3). -/
def slotCall (address : Nat) : Byte :=
  let a : BitVec 4 := .ofNat 4 address
  a ++ (~~~ a)

/-- The slot calls of a frame that begins now: slot i is called by the drop address of the context its entry names, or by address 0 for an
EMPTY entry, taken from the active schedule (R3). -/
def Part.slotCalls (p : Part) (l : LineId) : List Byte :=
  (p.line l).active.map fun e =>
    slotCall (match e.bind fun c => (p.ctx c).profile with
      | some pr => pr.address
      | none => 0)

/-! ### Upstream -/

/-- A received unit by its kind (R170). Enumerations that may hold a value out of range keep their code. -/
inductive UpUnit
  | idle
  | hello (kindCode : Nat) (start : Bool) (display : Bool) (lamps : Nat)
  | scanOpen (keys : Payload)
  | scanMasked (keys : Payload)
  | cardState (code : Nat) (latch power : Bool)
  | trackChar (track : Nat) (parity : Bool) (char : Byte)
  | trackEnd (track status : Nat)
  | swipeEnd
  | chipData (b1 b2 : Byte)
  | chipEnd (status : DropStatus) (last : Option Byte)
  | blockData (b1 b2 : Byte)
  | blockEnd (refused : Bool)
  | loopEcho (w : Payload)
  | unknown
  deriving DecidableEq, Repr

def readDropStatus (code : Nat) : DropStatus :=
  match code with
  | 0 => .ok
  | 1 => .mute
  | 2 => .parity
  | _ => .contactFault

/-- Read a received unit from its kind code and payload (R170). -/
def readUnit (kind : Nat) (w : Payload) : UpUnit :=
  let hi : Byte := w.extractLsb' 8 8
  let lo : Byte := w.extractLsb' 0 8
  match kind with
  | 0 => .idle
  | 1 => .hello (w.extractLsb' 13 3).toNat (w.getLsbD 12) (w.getLsbD 11) (w.extractLsb' 8 3).toNat
  | 2 => .scanOpen w
  | 3 => .scanMasked w
  | 4 => .cardState (w.extractLsb' 13 3).toNat (w.getLsbD 12) (w.getLsbD 11)
  | 5 => .trackChar (w.extractLsb' 14 2).toNat (w.getLsbD 13) ((w.extractLsb' 0 7).setWidth 8)
  | 6 => .trackEnd (w.extractLsb' 14 2).toNat (w.extractLsb' 12 2).toNat
  | 7 => .swipeEnd
  | 8 => .chipData hi lo
  | 9 => .chipEnd (readDropStatus (w.extractLsb' 14 2).toNat) (if w.getLsbD 8 then some lo else none)
  | 10 => .blockData hi lo
  | 11 => .blockEnd (w.getLsbD 15)
  | 12 => .loopEcho w
  | _ => .unknown

/-! ### A byte on the link -/

/-- The bits of one byte on TXD: a start bit, 8 data bits with the least significant first, a stop bit (R163). The line rests high. -/
def serialBits (b : Byte) : List Bool := [false] ++ [0, 1, 2, 3, 4, 5, 6, 7].map b.getLsbD ++ [true]

end Sys2Proof.Machine
end

