-- ==== Sys2Proof/Machine/Chip.lean ====
section
/-! DEFINITION. The Chip Channel (chapter 8): the session record, its starts, exchanges and endings, the card during a session, and the
units out of turn. -/

namespace Sys2Proof.Machine

/-- The session record at profiling, at attachment and at a drop restart (R118), with what the reader reported UNKNOWN (R30, R48). -/
def Chip.fresh : Chip where
  reportedLatch := .unknown
  reportedPower := .unknown
  session := .off
  owner := none
  wantedLatch := false
  wantedPower := false
  discardLate := false
  powerSeen := false
  atr := []
  atrWait := none
  exchanges := 0
  command := []
  unitsSent := 0
  response := []
  overrun := false
  respTimer := none

/-- The session is OFF: no owner, buffers empty, timers stopped (R118). -/
def Chip.toOff (h : Chip) : Chip :=
  { h with session := .off, owner := none, atr := [], atrWait := none, command := [], unitsSent := 0, response := [],
           overrun := false, respTimer := none }

def Chip.inExchange (h : Chip) : Bool := h.session == .sending || h.session == .awaiting

def chipRecord (p : Part) (c : CtxId) (h : Chip) (b : ChipBody) : Rec := .of (.chip b) h.owner (some c) (p.ctx c).lineId

/-! ### A failed start (R122) -/

/-- The reasons after which answer-to-reset units may still come: the discard-late flag is set (R122). -/
def StartOutcome.leavesLate : StartOutcome → Bool
  | .timedOut => true
  | .stopped => true
  | .cardRemoved => true
  | .powerLost => true
  | .atrLength => true
  | _ => false

/-- After a drop or line reason both flags are clear (R131). -/
def StartOutcome.byCause : StartOutcome → Bool
  | .ended _ => true
  | _ => false

def Chip.afterFailedStart (h : Chip) (o : StartOutcome) : Chip :=
  { h.toOff with
    wantedLatch := false
    wantedPower := false
    discardLate := o.leavesLate || (h.discardLate && !o.byCause)
    powerSeen := h.powerSeen && !o.byCause }

/-- A start fails: the start result is made, the session-end reservation is released, the wanted latch and power become off, the session
is OFF and the reader has no holder (R122). -/
def Part.startFails (p : Part) (c : CtxId) (o : StartOutcome) : Part :=
  match (p.ctx c).chip with
  | some h =>
    ((p.convert (.chipStart c) (chipRecord p c h (.start o none))).release (.chipEnd c)).modCtx c fun x =>
      { x with holder := none, chip := some (h.afterFailedStart o) }
  | none => p

/-! ### The end of an exchange and of a session -/

/-- An exchange in flight ends with a status: its result is made, its timer stops and the session stands in READY (R124 to R131). -/
def Part.endExchange (p : Part) (c : CtxId) (st : ExchangeStatus) : Part :=
  match (p.ctx c).chip with
  | some h =>
    (p.convert (.exchange c) (chipRecord p c h (.exchange h.exchanges st h.response))).modCtx c fun x =>
      { x with chip := some { h with session := .ready, command := [], unitsSent := 0, response := [], overrun := false,
                                     respTimer := none } }
  | none => p

def EndReason.byCause : EndReason → Bool
  | .ended _ => true
  | _ => false

/-- Wanted latch after a session end: kept after CONTACT_FAULT, EXCHANGE_TIMEOUT and POWER_LOST, otherwise off (R128). -/
def EndReason.keepsLatch : EndReason → Bool
  | .contactFault => true
  | .exchangeTimeout => true
  | .powerLost => true
  | _ => false

/-- Discard-late flag after a session end; `inFlight`: an exchange was in flight (R128, R131). -/
def EndReason.late (r : EndReason) (inFlight was : Bool) : Bool :=
  match r with
  | .stopped => was || inFlight
  | .contactFault => was
  | .exchangeTimeout => true
  | .cardRemoved => true
  | .powerLost => was || inFlight
  | .ended _ => false

def Chip.afterSession (h : Chip) (r : EndReason) (inFlight : Bool) : Chip :=
  { h.toOff with
    wantedLatch := h.wantedLatch && r.keepsLatch
    wantedPower := false
    discardLate := r.late inFlight h.discardLate
    powerSeen := h.powerSeen && !r.byCause }

/-- A session ends (R128). -/
def Part.endSession (p : Part) (c : CtxId) (r : EndReason) (inFlight : Bool) : Part :=
  match (p.ctx c).chip with
  | some h =>
    (p.convert (.chipEnd c) (chipRecord p c h (.sessionEnd r h.exchanges))).modCtx c fun x =>
      { x with holder := none, chip := some (h.afterSession r inFlight) }
  | none => p

/-- A session in any state but OFF is brought to its end: a start fails, or the exchange in flight and then the session end
(R126, R129, R130, R131). -/
def Part.cutSession (p : Part) (c : CtxId) (o : StartOutcome) (st : ExchangeStatus) (r : EndReason) : Part :=
  match (p.ctx c).session with
  | .off => p
  | .starting => p.startFails c o
  | .ready => p.endSession c r false
  | .sending => (p.endExchange c st).endSession c r true
  | .awaiting => (p.endExchange c st).endSession c r true

/-! ### Chip units -/

/-- Start outcome and exchange status of a drop status other than OK (R121, R124). -/
def DropStatus.startOutcome : DropStatus → StartOutcome
  | .ok => .ready
  | .mute => .mute
  | .parity => .parity
  | .contactFault => .contactFault

def DropStatus.exchangeStatus : DropStatus → ExchangeStatus
  | .ok => .ok
  | .mute => .mute
  | .parity => .parity
  | .contactFault => .contactFault

/-- CHIP_DATA in STARTING (R121). -/
def Part.atrData (p : Part) (c : CtxId) (h : Chip) (b1 b2 : Byte) : Part :=
  if !h.powerSeen then p
  else if Config.atrSize < h.atr.length + 2 then p.startFails c .atrLength
  else p.modCtx c fun x => x.modChip fun h => { h with atr := h.atr ++ [b1, b2] }

/-- The session enters READY: the start result carries the answer-to-reset bytes, and the session-end reservation stays held (R121). -/
def Part.startReady (p : Part) (c : CtxId) (h : Chip) (atr : List Byte) : Part :=
  (p.convert (.chipStart c) (chipRecord p c h (.start .ready (some atr)))).modCtx c fun x =>
    x.modChip fun h => { h with session := .ready, atr := [], atrWait := none }

/-- CHIP_END in STARTING (R121). -/
def Part.atrEnd (p : Part) (c : CtxId) (h : Chip) (st : DropStatus) (last : Option Byte) : Part :=
  let atr := h.atr ++ last.toList
  if !h.powerSeen then p
  else if Config.atrSize < atr.length then p.startFails c .atrLength
  else if st = .ok then if atr = [] then p.startFails c .atrLength else p.startReady c h atr
  else p.startFails c st.startOutcome

/-- A response byte: appended, or dropped with the overrun mark (R124). -/
def Chip.respond (h : Chip) (b : Byte) : Chip :=
  if h.response.length < Config.responseSize then { h with response := h.response ++ [b] } else { h with overrun := true }

/-- CHIP_END in AWAITING: the exchange ends, OVERRUN hiding no CONTACT_FAULT of the session (R124). -/
def Part.responseEnd (p : Part) (c : CtxId) (st : DropStatus) (last : Option Byte) : Part :=
  let p1 := p.modCtx c fun x => x.modChip fun h => last.toList.foldl Chip.respond h
  let overrun := match (p1.ctx c).chip with
    | some h => h.overrun
    | none => false
  let p2 := p1.endExchange c (if overrun then .overrun else st.exchangeStatus)
  if st = .contactFault then p2.endSession c .contactFault false else p2

/-- A chip unit out of turn: discarded quietly under the discard-late flag in OFF, where a CHIP_END clears the flag, and with
STREAM_PROTOCOL otherwise (R132). -/
def Ev.chipOutOfTurn (e : Ev) (c : CtxId) (h : Chip) (isEnd : Bool) (kind : Nat) : Ev :=
  if h.session = .off ∧ h.discardLate then
    if isEnd then e.map fun p => p.modCtx c fun x => x.modChip fun h => { h with discardLate := false } else e
  else e.misfit c kind

/-- CHIP_DATA at a hybrid reader (R121, R124, R132). -/
def Ev.chipData (e : Ev) (c : CtxId) (h : Chip) (kind : Nat) (b1 b2 : Byte) : Ev :=
  match h.session with
  | .starting => e.map fun p => p.atrData c h b1 b2
  | .awaiting => e.map fun p => p.modCtx c fun x => x.modChip fun h => (h.respond b1).respond b2
  | _ => e.chipOutOfTurn c h false kind

/-- CHIP_END at a hybrid reader (R121, R124, R132). -/
def Ev.chipEnd (e : Ev) (c : CtxId) (h : Chip) (kind : Nat) (st : DropStatus) (last : Option Byte) : Ev :=
  match h.session with
  | .starting => e.map fun p => p.atrEnd c h st last
  | .awaiting => e.map fun p => p.responseEnd c st last
  | _ => e.chipOutOfTurn c h true kind

/-! ### The card during a session -/

/-- A report of contact power on during a session sets the power-seen flag, whatever the card state reported with it (R121, R130). -/
def Chip.seePower (h : Chip) (power : Bool) : Chip :=
  if power ∧ h.session ≠ .off then { h with powerSeen := true } else h

/-- The Chip Channel takes a CARD_STATE after the Stripe Capture Unit (R121, R129, R130): the power-seen flag, then a card that has left, then a
loss of power. -/
def Part.chipCard (p : Part) (c : CtxId) (card : CardState) (power : Bool) : Part :=
  match (p.ctx c).chip with
  | some h =>
    let p1 := p.modCtx c fun x => x.modChip fun h => h.seePower power
    if card = .noCard then
      if h.session = .off then p1.modCtx c fun x => x.modChip fun h => { h with wantedLatch := false }
      else p1.cutSession c .cardRemoved .cardRemoved .cardRemoved
    else if power then p1
    else if h.powerSeen then
      (p1.modCtx c fun x => x.modChip fun h => { h with powerSeen := false }).cutSession c .powerLost .powerLost .powerLost
    else p1
  | none => p

/-! ### The command stream (R36) -/

/-- Units of a command of c bytes (R36, R123). -/
def commandUnits (len : Nat) : Nat := len / 2 + 1

/-- The next command unit: CHIP_DATA of two bytes, and CHIP_END with the last byte of an odd command (R36). -/
def Chip.nextUnit (h : Chip) : DownUnit :=
  match h.command.drop (2 * h.unitsSent) with
  | b1 :: b2 :: _ => .chipData b1 b2
  | [b] => .chipEnd (some b)
  | [] => .chipEnd none

def DownUnit.isChip : DownUnit → Bool
  | .chipData _ _ => true
  | .chipEnd _ => true
  | _ => false

def DownUnit.isChipEnd : DownUnit → Bool
  | .chipEnd _ => true
  | _ => false

/-- At the completion of a slot that carried a command unit the stream moves on; after CHIP_END the exchange enters AWAITING and the
response timer starts with the timeout of the profile as it stands (R36, R124). The command stays until the exchange ends (log 47). -/
def Part.commandSent (p : Part) (c : CtxId) (u : DownUnit) : Part :=
  let timer := match (p.ctx c).profile with
    | some pr => (p.line pr.line).startTimer (pr.chipTimeout.getD 5000)
    | none => none
  p.modCtx c fun x => x.modChip fun h =>
    if h.session = .sending ∧ u.isChip then
      if u.isChipEnd then { h with session := .awaiting, unitsSent := h.unitsSent + 1, respTimer := timer }
      else { h with unitsSent := h.unitsSent + 1 }
    else h

/-! ### Timers -/

def Chip.tick (h : Chip) : Chip := { h with atrWait := Machine.tick h.atrWait, respTimer := Machine.tick h.respTimer }

/-- Answer-to-reset wait expiry: the start fails TIMED_OUT (R122). -/
def Part.atrExpiry (p : Part) (c : CtxId) : Part :=
  match (p.ctx c).chip with
  | some h => if h.session = .starting ∧ h.atrWait = some 0 then p.startFails c .timedOut else p
  | none => p

/-- Response timer expiry: the exchange ends TIMED_OUT and the session EXCHANGE_TIMEOUT (R125). -/
def Part.responseExpiry (p : Part) (c : CtxId) : Part :=
  match (p.ctx c).chip with
  | some h =>
    if h.session = .awaiting ∧ h.respTimer = some 0
    then (p.endExchange c .timedOut).endSession c .exchangeTimeout true else p
  | none => p

end Sys2Proof.Machine
end

