-- ==== Sys2Proof/Machine/Entry.lean ====
section
/-! DEFINITION. Keypad entries (chapter 6): keys, timers, the enciphered block, endings and the entry result. -/

namespace Sys2Proof.Machine

/-- The digit count of an entry: the digits of an OPEN entry, the count of a SECURE one (R82). -/
def Entry.digitCount (e : Entry) : Nat :=
  match e.kind with
  | .opened => e.digits.length
  | .secure => e.count

/-- How an entry ends: outcome, ending key, detail (R100). -/
structure EntryEnding where
  outcome : EntryOutcome
  endKey  : Option Nat
  detail  : Option EntryDetail

def EntryEnding.plain (o : EntryOutcome) : EntryEnding := { outcome := o, endKey := none, detail := none }

/-- The body of the ENTRY_RESULT (R101). -/
def Entry.result (e : Entry) (o : EntryEnding) : EntryBody where
  kind := e.kind
  outcome := o.outcome
  endKey := o.endKey
  detail := o.detail
  digits := if e.kind = .opened then some e.digits else none
  count := e.digitCount
  ignored := e.ignored
  block := if e.kind = .secure ∧ o.outcome = .completed then some e.block else none
  blockBytes := if e.kind = .secure ∧ o.outcome = .blockFault then some e.block.length else none

/-- The endings in CLOSING after which the keypad is asked to drop its block (R98). -/
def EntryEnding.abandons (o : EntryEnding) : Bool :=
  match o.outcome with
  | .workstationCancelled => true
  | .timedOut => true
  | .keypadUnmasked => true
  | .blockFault => o.detail == some (.block .overlong)
  | _ => false

/-- The endings in CLOSING that set the late-block flag: all but a loss or a restart of the drop (R54). -/
def EntryEnding.leavesBlock (o : EntryEnding) : Bool :=
  match o.outcome with
  | .ended .dropLost => false
  | .ended .dropRestarted => false
  | _ => true

/-- R98: an unsent FINISH_BLOCK of the entry is removed, otherwise ABANDON_BLOCK joins. -/
def abandonBlock (q : List Control) : List Control :=
  if q.contains .finishBlock then removeLast (· == .finishBlock) q else joinControl .abandonBlock q

/-- The keypad context after its entry has ended (R99, steps 3 to 6). -/
def Context.afterEntry (x : Context) (e : Entry) (o : EntryEnding) : Context :=
  { x with
    holder := none
    keypad := x.keypad.map fun k => { k with wanted := .opened, entry := none }
    controls := if e.state = .closing ∧ o.abandons then abandonBlock x.controls else x.controls
    lateBlock := x.lateBlock || (e.state = .closing && o.leavesBlock) }

/-- An entry ends (R99): its result is made from its reservation, the holder is released, the wanted form becomes OPEN, the block is
abandoned where R98 says so, and the record is removed. -/
def Part.endEntry (p : Part) (c : CtxId) (o : EntryEnding) : Part :=
  match (p.ctx c).entry with
  | some e =>
    ((p.convert (.entry c) (.of (.entry (e.result o)) (some e.owner) (some c) (p.ctx c).lineId)).modCtx c
      fun x => x.afterEntry e o).forgetArming c
  | none => p

/-- KEYPAD_UNMASKED: the entry ends, and the fault is recorded (R87, R87a). -/
def Ev.unmasked (ev : Ev) (c : CtxId) (why : Unmask) : Ev :=
  (ev.map fun p => p.endEntry c { outcome := .keypadUnmasked, endKey := none, detail := some (.unmask why) }).detectAt
    .keypadUnmasked c (some (.unmask why))

/-! ### Keys in COLLECTING -/

/-- An ignored key adds 1 to the ignored-key count and changes nothing else (R91). -/
def Entry.ignore (e : Entry) : Entry := { e with ignored := satInc8 e.ignored }

/-- An accepted key that leaves the entry in COLLECTING: the first-key timer stops, the inter-key timer starts afresh (R91). -/
def Entry.accept (e : Entry) (line : Line) : Entry := { e with firstKey := none, interKey := line.startTimer e.interMs }

/-- A digit key 0..9 at an OPEN entry (R88). -/
def Entry.takeDigit (e : Entry) (line : Line) (n : Nat) : Entry :=
  if e.kind = .opened ∧ e.digits.length < e.max then { e with digits := e.digits ++ [n] }.accept line else e.ignore

/-- DIGIT, without a value (R88). -/
def Entry.takeMasked (e : Entry) (line : Line) : Entry :=
  if e.kind = .secure ∧ e.count < e.max then { e with count := e.count + 1 }.accept line else e.ignore

/-- BACK (R89). -/
def Entry.takeBack (e : Entry) (line : Line) : Entry :=
  if e.digitCount = 0 then e.ignore
  else match e.kind with
    | .opened => { e with digits := e.digits.dropLast }.accept line
    | .secure => { e with count := e.count - 1 }.accept line

/-- CLEAR (R89). -/
def Entry.takeClear (e : Entry) (line : Line) : Entry := { e with digits := [], count := 0 }.accept line

/-- A SECURE entry takes its terminator: it enters CLOSING, the key timers stop, the block-wait starts (R94). -/
def Entry.close (e : Entry) (line : Line) (key : Nat) : Entry :=
  { e with state := .closing, endKey := some key, firstKey := none, interKey := none,
           blockWait := line.startTimer Config.blockWaitMs, block := [] }

/-- A press handed to an entry in COLLECTING (R88 to R91, R94). -/
def Part.takePress (p : Part) (c : CtxId) (e : Entry) (v : VKey) : Part :=
  let line := p.lineOf c
  let put (e' : Entry) := p.modCtx c fun x => x.setEntry (some e')
  match v with
  | .digit => put (e.takeMasked line)
  | .key k =>
    if k.val < 10 then put (e.takeDigit line k.val)
    else if k.val = keyBack then put (e.takeBack line)
    else if k.val = keyClear then put (e.takeClear line)
    else if k.val = keyCancel then
      p.endEntry c { outcome := .customerCancelled, endKey := some keyCancel, detail := none }
    else if e.terms.has k.val ∧ e.min ≤ e.digitCount then
      match e.kind with
      | .opened => p.endEntry c { outcome := .completed, endKey := some k.val, detail := none }
      | .secure =>
        p.modCtx c fun x =>
          { x.setEntry (some (e.close line k.val)) with
            controls := joinControl .finishBlock x.controls, lateBlock := false }
    else put e.ignore

/-! ### The block -/

/-- BLOCK_DATA in CLOSING (R95). -/
def Part.blockData (p : Part) (c : CtxId) (e : Entry) (b1 b2 : Byte) : Part :=
  if Config.blockSize < e.block.length + 2
  then p.endEntry c { outcome := .blockFault, endKey := e.endKey, detail := some (.block .overlong) }
  else p.modCtx c fun x => x.setEntry (some { e with block := e.block ++ [b1, b2] })

/-- BLOCK_END in CLOSING (R95). -/
def Part.blockEnd (p : Part) (c : CtxId) (e : Entry) (refused : Bool) : Part :=
  if refused then p.endEntry c { outcome := .blockFault, endKey := e.endKey, detail := some (.block .refused) }
  else if e.block.length = 8 ∨ e.block.length = 16
  then p.endEntry c { outcome := .completed, endKey := e.endKey, detail := none }
  else p.endEntry c { outcome := .blockFault, endKey := e.endKey, detail := some (.block .length) }

/-! ### Timers -/

def Entry.timer (e : Entry) : EntryTimer → Option Nat
  | .firstKey => e.firstKey
  | .interKey => e.interKey
  | .total => e.total
  | .blockWait => e.blockWait

/-- A frame mark of the keypad's line (R13). -/
def Entry.tick (e : Entry) : Entry :=
  { e with firstKey := Machine.tick e.firstKey, interKey := Machine.tick e.interKey, total := Machine.tick e.total,
           blockWait := Machine.tick e.blockWait }

/-- A timer that has reached 0 ends its entry TIMED_OUT, naming the timer (R93). -/
def Part.entryExpiry (p : Part) (c : CtxId) (t : EntryTimer) : Part :=
  match (p.ctx c).entry with
  | some e =>
    if e.timer t = some 0 then p.endEntry c { outcome := .timedOut, endKey := none, detail := some (.timer t) } else p
  | none => p

end Sys2Proof.Machine
end

