-- ==== Sys2Proof/Machine/Stripe.lean ====
section
/-! DEFINITION. Stripe capture (chapter 7): capture rules, the track records, endings and the capture result, card state and unarmed
activity. -/

namespace Sys2Proof.Machine

/-- A count of 0 means 112 (R103). -/
def TrackRule.limit (r : TrackRule) : Nat := if r.count = 0 then Config.trackSize else r.count

/-- The track record a requested track starts with (R106). -/
def TrackRec.start (rules : Rules) (n : Nat) : TrackRec where
  track := n
  rule := rules.get n
  state := if (rules.get n).start.isSome then .seeking else .collecting
  endedBy := none
  startFound := false
  taken := false
  status := none
  parity := false
  buffer := []

def TrackRec.finish (t : TrackRec) (why : EndedBy) : TrackRec := { t with state := .ended, endedBy := some why }

/-- A character appended in COLLECTING; a full buffer ends the track TRUNCATED, a reached count below 112 ends it COUNT (R110). -/
def TrackRec.store (t : TrackRec) (ch : Byte) : TrackRec :=
  let t' := { t with buffer := t.buffer ++ [ch] }
  if Config.trackSize ≤ t'.buffer.length then t'.finish .truncated
  else if t.rule.limit ≤ t'.buffer.length then t'.finish .count
  else t'

/-- A track character at its track (R110). -/
def TrackRec.takeChar (t : TrackRec) (parity : Bool) (ch : Byte) : TrackRec :=
  match t.state with
  | .ended => t
  | .seeking =>
    if t.rule.start = some ch
    then { t with state := .collecting, startFound := true, parity := t.parity || parity } else t
  | .collecting =>
    let t' := { t with parity := t.parity || parity, taken := true }
    if t.rule.ends.contains ch then t'.finish .endCode else t'.store ch

/-- A TRACK_END at its track: the first status is recorded, and an open track ends (R111). -/
def TrackRec.takeEnd (t : TrackRec) (st : ReaderStatus) : TrackRec :=
  match t.status with
  | some _ => t
  | none =>
    let t' := { t with status := some st }
    if t.state = .ended then t' else t'.finish .trackEnd

/-- Apply `f` to the record of track n, if that track is requested. -/
def Capture.onTrack (u : Capture) (n : Nat) (f : TrackRec → TrackRec) : Capture :=
  { u with tracks := u.tracks.map fun t => if t.track = n then f t else t }

/-! ### Result -/

/-- Status of a requested track at the ending (R113). -/
def TrackRec.verdict (t : TrackRec) (o : CaptureOutcome) : TrackStatus :=
  if t.status = some .noData ∨ (t.rule.start.isSome ∧ ¬ t.startFound) ∨ (t.rule.start.isNone ∧ ¬ t.taken)
      ∨ (o ≠ .completed ∧ t.status = none) then .noData
  else if t.endedBy = some .truncated then .truncated
  else if t.status = some .lrcBad then .lrcBad
  else if t.parity then .parity
  else .ok

/-- Track entry of the result: a track that is not ENDED shows OPEN, and NO_DATA carries no characters (R113, R115). -/
def TrackRec.entry (t : TrackRec) (o : CaptureOutcome) : TrackEntry where
  track := t.track
  status := t.verdict o
  endedBy := t.endedBy
  chars := if t.verdict o = .noData then none else some t.buffer

def Capture.result (u : Capture) (o : CaptureOutcome) : CaptureBody :=
  { outcome := o, mask := u.mask, tracks := u.tracks.map (TrackRec.entry · o) }

/-- The tally is emptied (R117). -/
def Reader.clearTally (r : Reader) : Reader := { r with seen := .none, discarded := 0 }

/-- A capture ends (R114): result from its reservation, holder released, record removed, tally emptied. -/
def Part.endCapture (p : Part) (c : CtxId) (o : CaptureOutcome) : Part :=
  match (p.ctx c).capture with
  | some u =>
    (p.convert (.capture c) (.of (.capture (u.result o)) (some u.owner) (some c) (p.ctx c).lineId)).modCtx c fun x =>
      { x with holder := none, reader := x.reader.map fun r => ({ r with capture := none } : Reader).clearTally }
  | none => p

/-! ### Track units -/

/-- ARMED moves to CAPTURING: the arm timer stops, the capture limit starts (R108). -/
def Capture.begin (u : Capture) (line : Line) : Capture :=
  match u.state with
  | .armed => { u with state := .capturing, armTimer := none, limitTimer := line.startTimer Config.captureLimitMs }
  | .capturing => u

/-- A well-formed TRACK_CHAR (R108, R110, R117). -/
def Part.trackChar (p : Part) (c : CtxId) (track : Nat) (parity : Bool) (ch : Byte) : Part :=
  let line := p.lineOf c
  p.modCtx c fun x => x.modReader fun r =>
    match r.capture with
    | some u => { r with capture := some ((u.begin line).onTrack track fun t => t.takeChar parity ch) }
    | none => { r with seen := r.seen.add track, discarded := satInc8 r.discarded }

/-- A well-formed TRACK_END (R108, R111, R117). -/
def Part.trackEnd (p : Part) (c : CtxId) (track : Nat) (st : ReaderStatus) : Part :=
  let line := p.lineOf c
  p.modCtx c fun x => x.modReader fun r =>
    match r.capture with
    | some u => { r with capture := some ((u.begin line).onTrack track fun t => t.takeEnd st) }
    | none => { r with seen := r.seen.add track }

/-- A SWIPE_END: it completes a capture (R113), or closes an unarmed pass with its notice (R117). -/
def Part.swipeEnd (p : Part) (c : CtxId) : Part :=
  match (p.ctx c).reader with
  | some r =>
    match r.capture with
    | some _ => p.endCapture c .completed
    | none =>
      (p.offer (.of (.swiped r.card r.seen r.discarded) (p.ctx c).holder (some c) (p.ctx c).lineId)).modCtx c
        fun x => x.modReader Reader.clearTally
  | none => p

def readReaderStatus : Nat → Option ReaderStatus
  | 0 => some .ok
  | 1 => some .noData
  | 2 => some .lrcBad
  | _ => none

/-! ### Card state -/

/-- The card states a reader of each kind reports (R53, R116). -/
def readCard (kind : DropKind) (code : Nat) : Option CardState :=
  match kind, code with
  | .readerStripe, 0 => some .noCard
  | .readerStripe, 1 => some .swiping
  | .readerHybrid, 0 => some .noCard
  | .readerHybrid, 2 => some .inserted
  | .readerHybrid, 3 => some .latched
  | _, _ => none

/-- What a CARD notice of a hybrid reader carries of latch and power (R116). -/
def Context.latchPower (x : Context) : Option (Reported × Reported) := x.chip.map fun h => (h.reportedLatch, h.reportedPower)

/-- A card entering: NO_CARD to SWIPING at a stripe reader, NO_CARD to INSERTED at a hybrid one (R108). -/
def cardEnters (before after : CardState) : Bool := before == .noCard && (after == .swiping || after == .inserted)

/-- The Stripe Capture Unit takes a card state that fits (R116): a change is recorded with its CARD notice, and a card entering moves an
ARMED capture to CAPTURING (R108). -/
def Part.takeCard (p : Part) (c : CtxId) (card : CardState) : Part :=
  match (p.ctx c).reader with
  | some r =>
    if r.card = card then p
    else
      let x := p.ctx c
      let line := p.lineOf c
      ((p.modCtx c fun x => x.modReader fun r => { r with card := card }).offer
        (.of (.card r.card card .changed x.latchPower) x.holder (some c) x.lineId)).modCtx c fun x => x.modReader fun r' =>
          if cardEnters r.card card then { r' with capture := r'.capture.map (Capture.begin · line) } else r'
  | none => p

/-- A loss of the drop: the card state becomes UNKNOWN, with a CARD notice of cause LOST if it was another (R52, R116). -/
def Part.cardLost (p : Part) (c : CtxId) : Part :=
  match (p.ctx c).reader with
  | some r =>
    if r.card = .unknown then p
    else
      let x := p.ctx c
      (p.modCtx c fun x => x.modReader fun r => { r with card := .unknown }).offer
        (.of (.card r.card .unknown .lost x.latchPower) x.holder (some c) x.lineId)
  | none => p

/-! ### Timers -/

def Capture.tick (u : Capture) : Capture := { u with armTimer := Machine.tick u.armTimer, limitTimer := Machine.tick u.limitTimer }

/-- Arm timer expiry in ARMED: the capture ends ARM_EXPIRED (R108). -/
def Part.armExpiry (p : Part) (c : CtxId) : Part :=
  match (p.ctx c).capture with
  | some u => if u.state = .armed ∧ u.armTimer = some 0 then p.endCapture c .armExpired else p
  | none => p

/-- Capture limit expiry in CAPTURING: the capture ends INCOMPLETE (R109). -/
def Part.limitExpiry (p : Part) (c : CtxId) : Part :=
  match (p.ctx c).capture with
  | some u => if u.state = .capturing ∧ u.limitTimer = some 0 then p.endCapture c .incomplete else p
  | none => p

end Sys2Proof.Machine
end

