-- ==== Sys2Proof/Machine/Attach.lean ====
section
/-! DEFINITION. Attachment (chapter 3): entering and leaving ATTACHED, HELLO, restart, loss, and the endings of operations that a change
of attachment causes (R57). -/

namespace Sys2Proof.Machine

/-! ### Working state -/

/-- The virtual keys of a form (R71): how many debounce states the Key Scanner holds. -/
def ScanForm.keyCount : ScanForm → Nat
  | .opened => 16
  | .masked => 7

/-- Every virtual key of a form UP with run 0 (R72, R74). -/
def ScanForm.allUp (f : ScanForm) : List KeyState := List.replicate f.keyCount { down := false, run := 0 }

/-- The Slot Service's state is cleared: queue empty, holds 0, cursor at piece 0 (R30). -/
def Context.clearService (x : Context) : Context :=
  { x with controls := [], formHold := 0, latchHold := 0, powerHold := 0, cursor := 0 }

/-- Features of a HELLO (R48): display counts for a keypad only, a lamp count above 4 is 4. The kind that decides is the one reported, in a HELLO
that does not match too (log 42). -/
def helloFeatures (kindCode : Nat) (display : Bool) (lamps : Nat) : Features :=
  { display := display && kindCode == 1, lamps := min 4 lamps }

/-- What a drop that attaches or restarts makes of its context, whatever kind it reports (R30, R54, R72, R104, R117, R118): nothing queued, no
late block, a keypad's form OPEN with every key UP, a reader's card state UNKNOWN with an empty tally, and the session record as profiled. -/
def Context.dropAnew (x : Context) : Context :=
  { x.clearService with
    lateBlock := false
    keypad := x.keypad.map fun k => { k with reported := .opened, keys := ScanForm.opened.allUp, wanted := .opened }
    reader := x.reader.map fun r => ({ r with card := .unknown } : Reader).clearTally
    chip := x.chip.map fun _ => .fresh }

/-- The context's state as it enters ATTACHED, or after a restart with its own kind (R48, R50). The miss count is 0 on a line in TEST too
(log 41). -/
def Context.enterAttached (x : Context) (f : Features) : Context :=
  { x.dropAnew with attach := .attached, miss := 0, features := some f }

/-- The context leaves ATTACHED other than by a restart (R30, R54, R116, R118): control queue, late-block flag, card state, wanted latch and
power. -/
def Context.leaveAttached (x : Context) (next : Attach) : Context :=
  { x.clearService with
    attach := next
    lateBlock := false
    fresh := false
    reader := x.reader.map fun r => { r with card := .unknown }
    chip := x.chip.map fun h => { h with wantedLatch := false, wantedPower := false } }

/-- A change from any profiled state to another, ATTACHED or not before it. -/
def Context.moveTo (x : Context) (next : Attach) : Context :=
  if x.attach = .attached then x.leaveAttached next else { x with attach := next }

/-! ### Endings (R57) -/

/-- End every operation in flight on context c with the reason of a change of attachment or of the line (R57, R131). -/
def Part.endOps (p : Part) (c : CtxId) (why : Cause) : Part :=
  ((p.endEntry c (.plain (.ended why))).endCapture c (.ended why)).cutSession c (.ended why) (.ended why) (.ended why)

/-! ### Notices and detections -/

/-- A DROP notice of context c in its new state (R58). -/
def Part.dropNotice (p : Part) (c : CtxId) (cause : DropCause) (restart : Bool) (hello : Option HelloInfo) : Rec :=
  let x := p.ctx c
  .of (.drop (match x.profile with | some pr => pr.address | none => 0) x.attach cause restart hello) none (some c) x.lineId

def Ev.closeDrop (e : Ev) (c : CtxId) (cause : DropCause) (restart : Bool) (hello : Option HelloInfo) : Ev :=
  e.close (e.part.dropNotice c cause restart hello)

/-! ### HELLO -/

/-- A HELLO matches when its kind code is the profile's kind (R47). -/
def Context.helloMatches (x : Context) (kindCode : Nat) : Bool := x.kind.map DropKind.helloCode == some kindCode

/-- A HELLO at a context in WAITING, LOST or MISMATCH (R47). -/
def Ev.helloAttach (e : Ev) (c : CtxId) (kindCode : Nat) (display : Bool) (lamps : Nat) : Ev :=
  let x := e.part.ctx c
  let f := helloFeatures kindCode display lamps
  if x.helloMatches kindCode then
    (e.map fun p => p.modCtx c fun x => { x.enterAttached f with fresh := true }).closeDrop c .attached false
      (some { kindCode, features := f })
  else
    let e1 := (e.map fun p => p.modCtx c fun x => { x with attach := .mismatch }).detectAt .dropKind c (some (.kindCode kindCode))
    if x.attach = .mismatch then e1 else e1.closeDrop c .mismatch false (some { kindCode, features := f })

/-- A HELLO of origin START at an ATTACHED context: a drop restart (R50). -/
def Ev.helloRestart (e : Ev) (c : CtxId) (kindCode : Nat) (display : Bool) (lamps : Nat) : Ev :=
  let f := helloFeatures kindCode display lamps
  let e1 := e.map fun p => p.endOps c .dropRestarted
  if (e1.part.ctx c).helloMatches kindCode then
    ((e1.map fun p => p.modCtx c fun x => x.enterAttached f).detectAt .dropRestart c none).closeDrop c .restarted true
      (some { kindCode, features := f })
  else
    (((e1.map fun p => p.modCtx c fun x => { x.dropAnew with attach := .mismatch, fresh := false }).detectAt .dropRestart c none).detectAt
      .dropKind c (some (.kindCode kindCode))).closeDrop c .mismatch true (some { kindCode, features := f })

/-! ### Loss -/

/-- What a loss makes of the context besides its card state: LOST, with the reported latch and power UNKNOWN (R52). -/
def Context.afterLoss (x : Context) : Context :=
  { x.leaveAttached .lost with
    reader := x.reader
    chip := x.chip.map fun h =>
      { h with wantedLatch := false, wantedPower := false, reportedLatch := .unknown, reportedPower := .unknown } }

/-- The miss count of an ATTACHED context reaches Q (R52): operations end, the card state becomes UNKNOWN with its notice, DROP_LOST is
recorded with Q as detail, and a DROP notice closes the event. -/
def Ev.dropLost (e : Ev) (c : CtxId) (q : Nat) : Ev :=
  ((e.map fun p => ((p.endOps c .dropLost).modCtx c Context.afterLoss).cardLost c).detectAt
    .dropLost c (some (.threshold q))).closeDrop c .lost false none

/-- A silent or damaged slot of an ATTACHED context: on a line in RUN the miss count goes up, and at Q the context is LOST; on a line in
TEST it is held (R51, R52). -/
def Ev.miss (e : Ev) (c : CtxId) : Ev :=
  match (e.part.ctx c).profile with
  | some pr =>
    if (e.part.line pr.line).state = .run then
      let e1 := e.map fun p => p.modCtx c fun x => { x with miss := x.miss + 1 }
      if pr.q ≤ (e1.part.ctx c).miss then e1.dropLost c pr.q else e1
    else e
  | none => e

/-- A received unit at an ATTACHED context sets the miss count to 0, on a line in RUN (R51). -/
def Part.heard (p : Part) (c : CtxId) : Part :=
  match (p.ctx c).lineId with
  | some l => if (p.line l).state = .run then p.modCtx c fun x => { x with miss := 0 } else p
  | none => p

end Sys2Proof.Machine
end

