-- ==== Sys2Proof/Machine/Loop.lean ====
section
/-! DEFINITION. The loop test (section 10.2): the sequence in a participant's slots, compares, entry, check and end. -/

namespace Sys2Proof.Machine

/-- Payload number m of the repeating pattern. -/
def LoopSetup.payload (s : LoopSetup) (m : Nat) : Payload := s.pattern.get ⟨m % 4, by omega⟩

/-- Slot 4p + 1, the last of a test with pass limit p and the continuous flag clear (R156). -/
def LoopSetup.lastSlot (s : LoopSetup) : Nat := 4 * s.passLimit + 1

/-- The downstream unit of a participant's slot m (R156). -/
def LoopSetup.unit (s : LoopSetup) (m : Nat) : DownUnit :=
  if s.continuous then
    if m = 0 then .control .loopEnter else .loopPattern (s.payload (m - 1))
  else if s.passLimit = 0 then .poll
  else if m = 0 then .control .loopEnter
  else if m < s.lastSlot then .loopPattern (s.payload (m - 1))
  else if m = s.lastSlot then .control .loopExit
  else .poll

/-- Slot m is compared, with payload (m − 2) mod 4 (R156). -/
def LoopSetup.compares (s : LoopSetup) (m : Nat) : Bool :=
  2 ≤ m && (s.continuous || (0 < s.passLimit && m ≤ s.lastSlot))

/-- The number of the slot after slot m. A continuous test goes on at 4 after 4,294,967,295; otherwise the number stays at its largest
value (R156, log 22). -/
def LoopSetup.nextSlot (s : LoopSetup) (m : Nat) : Nat :=
  if m < 4294967295 then m + 1 else if s.continuous then 4 else m

/-- What a compare of an upstream unit with the expected payload finds: nothing, or the miscompare with the received payload and kind
(R157). -/
def compareEcho (expected : Payload) : SlotClass → Option (Miscompare × Option Payload × Option Nat)
  | .silent => some (.silent, none, none)
  | .damaged w => some (.damaged, some w, none)
  | .received kind w => if kind = 12 ∧ w = expected then none else some (.value, some w, some kind)

/-- A miscompare is written into the record: over the error it holds, unless stop-on-error keeps the first (R157). -/
def LoopRecord.write (r : LoopRecord) (s : LoopSetup) (m : Miscompare × Option Payload × Option Nat) : LoopRecord :=
  if s.stopOnError ∧ r.error.isSome then r
  else { r with error := some { kind := m.1, index := (r.slot - 2) % 4, pass := min Config.maxCount (r.passes + 1),
                                payload := m.2.1, upKind := m.2.2 } }

/-- The slot of a participant completes: its number advances, the pass and the finish follow the table of R156. -/
def LoopRecord.advance (r : LoopRecord) (s : LoopSetup) : LoopRecord :=
  { r with
    slot := s.nextSlot r.slot
    passes := if s.compares r.slot ∧ (r.slot - 2) % 4 = 3 then satInc r.passes else r.passes
    finish := if ¬ s.continuous ∧ 0 < s.passLimit ∧ r.slot = s.lastSlot then .done else r.finish }

def LoopTester.record (t : LoopTester) (c : CtxId) : Option LoopRecord := t.records.find? (·.ctx == c)

def LoopTester.put (t : LoopTester) (c : CtxId) (f : LoopRecord → LoopRecord) : LoopTester :=
  { t with records := t.records.map fun r => if r.ctx = c then f r else r }

def Part.modLoop (p : Part) (l : LineId) (f : LoopTester → LoopTester) : Part := p.modLine l fun x => { x with loop := f x.loop }

/-- The slot completion of a participant whose slot carried a unit of the loop sequence (R156, R157). -/
def Ev.loopCompletion (e : Ev) (l : LineId) (c : CtxId) (cls : SlotClass) : Ev :=
  let t := (e.part.line l).loop
  match t.setup, t.record c with
  | some s, some r =>
    let bad := if s.compares r.slot then compareEcho (s.payload (r.slot - 2)) cls else none
    match bad with
    | some m =>
      (e.map fun p => p.modLoop l fun t => { t.put c (fun r => (r.write s m).advance s) with errorFlag := true }).detectAt
        .loopMiscompare c (some (.miscompare m.1))
    | none => e.map fun p => p.modLoop l fun t => t.put c (·.advance s)
  | _, _ => e

/-! ### Results -/

def defaultSetup : LoopSetup where
  pattern := #v[0x5AA5, 0x0FF0, 0xC33C, 0x9669]
  passLimit := 1
  continuous := false
  stopOnError := false
  participants := none

/-- The body of the LOOP_RESULT of a line's test (R160). -/
def Line.loopBody (x : Line) (o : LoopOutcome) : LoopBody where
  outcome := o
  setup := x.loop.setup.getD defaultSetup
  entryFrame := x.loop.entryFrame
  endFrame := x.frame
  records := x.loop.records

/-- Step 1 of R160: the LOOP_RESULT is made from the line's reservation and kept as the last results; then the test state becomes NONE and
the setup and loop records are dropped (step 4). That the entry frame is dropped with them and the error flag kept is the model's DESIGN CHOICE
(log 53). -/
def Part.loopResult (p : Part) (l : LineId) (o : LoopOutcome) : Part :=
  let b := (p.line l).loopBody o
  (p.convert (.loop l) (.of (.loop b) none none (some l))).modLoop l fun t =>
    { t with state := .noTest, setup := none, entryFrame := none, records := [], lastResults := some b }

/-- A line entering IDLE ends its test ABORTED, one still ACCEPTED included (R155, R160). -/
def Part.abortTest (p : Part) (l : LineId) : Part :=
  if (p.line l).loop.state = .noTest then p else p.loopResult l .aborted

/-- A LINE notice (R21). -/
def lineNotice (l : LineId) (state : LineState) (why : LineReason) : Rec := .of (.line state why) none none (some l)

/-! ### The events of a frame mark -/

/-- The contexts that take part: ATTACHED on the line at the mark, and in the participant set if one was given (R155). -/
def Part.participants (p : Part) (l : LineId) : List CtxId :=
  (p.contextsOn l).filter fun c =>
    (p.ctx c).attach == .attached &&
      match (p.line l).loop.setup.bind (·.participants) with
      | some set => set.contains c
      | none => true

def Part.loopRecord (p : Part) (c : CtxId) : LoopRecord where
  ctx := c
  address := match (p.ctx c).profile with | some pr => pr.address | none => 0
  slot := 0
  passes := 0
  finish := .running
  error := none

/-- A line whose test is ACCEPTED enters TEST (R155, R56): its ATTACHED participants enter LOOPING, each with a fresh loop record. -/
def Part.enterTest (p : Part) (l : LineId) : Part :=
  let who := p.participants l
  let p1 := who.foldl (fun q c => q.modCtx c fun x => x.leaveAttached .looping) p
  let p2 := p1.modLine l fun x =>
    { x with state := .test, loop := { x.loop with state := .inTest, entryFrame := some x.frame, records := who.map p.loopRecord } }
  p2.offer (lineNotice l .test .testEntered)

/-- A test ends at a mark: LOOP_RESULT, participants still LOOPING to WAITING, line to RUN, LINE notice (R160). -/
def Part.endTest (p : Part) (l : LineId) (o : LoopOutcome) : Part :=
  let p1 := (p.loopResult l o).forContexts fun c q =>
    if (q.ctx c).onLine l ∧ (q.ctx c).attach = .looping then q.modCtx c fun x => { x with attach := .waiting } else q
  (p1.modLine l fun x => { x with state := .run }).offer (lineNotice l .run .testEnded)

/-- The check of R158: the outcome with which the test ends at this mark, if it does. -/
def LoopTester.check (t : LoopTester) : Option LoopOutcome :=
  let fin := t.records.all fun r => r.finish != .running
  let emptyTest := match t.setup with
    | some s => t.records.isEmpty || (s.passLimit == 0 && !s.continuous)
    | none => true
  let stopOnError := match t.setup with
    | some s => s.stopOnError
    | none => false
  if t.state = .stopRequested then some (if t.errorFlag then .failed else .stopped)
  else if emptyTest then some .empty
  else if stopOnError && t.errorFlag then some .failed
  else if fin then some (if t.errorFlag then .failed else .passed)
  else none

/-- The Loop Tester's event at a frame mark: test entry (R155) or, after the entry mark, the check (R158). -/
def Part.testMark (p : Part) (l : LineId) : Part :=
  match (p.line l).loop.state with
  | .noTest => p
  | .accepted => p.enterTest l
  | _ =>
    match (p.line l).loop.check with
    | some o => p.endTest l o
    | none => p

end Sys2Proof.Machine
end

