-- ==== Sys2Proof/Machine/Scan.lean ====
section
/-! DEFINITION. The Key Scanner (chapter 5): scan form, guard, debounce, lockout and the delivery of presses. -/

namespace Sys2Proof.Machine

/-- A scan (R73): its form, the raw state of each virtual key of that form, and the MULTI flag. -/
structure Scan where
  form  : ScanForm
  raw   : List Bool
  multi : Bool

/-- A SCAN_OPEN gives the 16 keys (R73). -/
def scanOpen (w : Payload) : Scan where
  form := .opened
  raw := [0, 1, 2, 3, 4, 5, 6, 7, 8, 9, 10, 11, 12, 13, 14, 15].map w.getLsbD
  multi := false

/-- A SCAN_MASKED gives the function keys 10 to 15 and DIGIT; MULTI set with DIGIT clear is taken with DIGIT down (R73). -/
def scanMasked (w : Payload) : Scan where
  form := .masked
  raw := [10, 11, 12, 13, 14, 15].map w.getLsbD ++ [w.getLsbD 0 || w.getLsbD 1]
  multi := w.getLsbD 1

/-- The virtual key at place i of a form's list (R71). -/
def ScanForm.vkey (f : ScanForm) (i : Nat) : VKey :=
  match f with
  | .opened => .key (Fin.ofNat 16 i)
  | .masked => if i < 6 then .key (Fin.ofNat 16 (10 + i)) else .digit

/-- One virtual key in one scan (R76): its new state, and whether it changed from UP to DOWN. -/
def KeyState.debounce (k : KeyState) (n : Nat) (raw : Bool) : KeyState × Bool :=
  if raw = k.down then ({ k with run := 0 }, false)
  else if n ≤ k.run + 1 then ({ down := raw, run := 0 }, raw)
  else ({ k with run := k.run + 1 }, false)

/-- Debounce every virtual key of the form (R75, step 4). -/
def debounceAll (n : Nat) (keys : List KeyState) (raw : List Bool) : List (KeyState × Bool) :=
  List.zipWith (fun k r => k.debounce n r) keys raw

/-- The press a scan delivers, if any (R78): a key that went DOWN while no other virtual key is DOWN, and MULTI clear in MASKED form. -/
def deliveredPress (form : ScanForm) (multi : Bool) (after : List (KeyState × Bool)) : Option VKey :=
  if (after.countP fun k => k.1.down) = 1 ∧ ¬ (form = .masked ∧ multi)
  then (after.findIdx? (·.2)).map form.vkey else none

/-- A KEY notice (R80). -/
def Part.keyNotice (p : Part) (c : CtxId) (pos : Option PosId) (form : ScanForm) (v : VKey) : Rec :=
  .of (.key form v) pos (some c) (p.ctx c).lineId

/-- Delivery of a press by the holder and the entry's state (R79). -/
def Part.deliver (p : Part) (c : CtxId) (form : ScanForm) (v : VKey) : Part :=
  match (p.ctx c).holder, (p.ctx c).entry with
  | some pos, some e =>
    match e.state with
    | .collecting =>
      let p1 := p.takePress c e v
      if e.echo then p1.offer (p.keyNotice c (some pos) form v) else p1
    | _ => p
  | _, _ => p.offer (p.keyNotice c none form v)

/-- Step 1 of R75: the reported form follows the scan, clearing the debounce state on a change (R74). -/
def Keypad.takeForm (k : Keypad) (form : ScanForm) : Keypad :=
  if k.reported = form then k else { k with reported := form, keys := form.allUp }

/-- A SECURE entry is in force (R75). -/
def Context.secureInForce (x : Context) : Bool :=
  match x.entry with
  | some e => e.kind == .secure
  | none => false

/-- The first SCAN_MASKED arms a SECURE entry: COLLECTING, and the first-key timer starts (R86). -/
def Entry.armed (e : Entry) (line : Line) : Entry :=
  { e with state := .collecting, arming := none, firstKey := line.startTimer e.firstMs }

/-- Step 2 of R75: the form is reported to a SECURE entry (R86, R87a). -/
def Ev.reportForm (ev : Ev) (c : CtxId) (form : ScanForm) : Ev :=
  match (ev.part.ctx c).entry with
  | some e =>
    if e.kind = .secure then
      match e.state, form with
      | .arming, .masked => ev.map fun p => p.modCtx c fun x => x.setEntry (some (e.armed (p.lineOf c)))
      | .arming, .opened => ev
      | _, .opened => ev.unmasked c .openScan
      | _, .masked => ev
    else ev
  | none => ev

/-- Steps 4 to 6 of R75: debounce, presses, delivery. -/
def Part.debounceScan (p : Part) (c : CtxId) (s : Scan) : Part :=
  match (p.ctx c).keypad with
  | some k =>
    let after := debounceAll k.n k.keys s.raw
    let p1 := p.modCtx c fun x => x.modKeypad fun k => { k with keys := after.map (·.1) }
    match deliveredPress s.form s.multi after with
    | some v => p1.deliver c s.form v
    | none => p1
  | none => p

/-- A scan at an ATTACHED keypad (R73, R75): it clears the late-block flag (R54), and goes through form, report, guard, debounce, presses
and delivery. -/
def Ev.scan (ev : Ev) (c : CtxId) (s : Scan) : Ev :=
  let secure := (ev.part.ctx c).secureInForce
  let ev1 := ev.map fun p => p.modCtx c fun x => { x with lateBlock := false }.modKeypad fun k => k.takeForm s.form
  let ev2 := ev1.reportForm c s.form
  if secure ∧ s.form = .opened then ev2 else ev2.map fun p => p.debounceScan c s

end Sys2Proof.Machine
end

