-- ==== Sys2Proof/Machine/Slots.lean ====
section
/-! DEFINITION. Slot Service (sections 2.3 to 2.8) and slot completions (chapter 3): the choice of the downstream unit at a slot's start, the
holds, and what the Context Table does with the upstream unit at its end. -/

namespace Sys2Proof.Machine

/-! ### The choice of the downstream unit (R31) -/

/-- The state control due at a keypad (case 4, R32). -/
def Context.formDue (x : Context) : Option Control :=
  match x.keypad with
  | some k => if k.wanted ≠ k.reported ∧ x.formHold = 0 then some (.setForm k.wanted) else none
  | none => none

/-- What was reported equals what is wanted; UNKNOWN equals neither on nor off (R30). -/
def Reported.agrees : Reported → Bool → Bool
  | .on, w => w
  | .off, w => !w
  | .unknown, _ => false

/-- The latch or power control due at a hybrid reader, the latch before the power (case 5, R33). -/
def Context.latchDue (x : Context) : Option Control :=
  match x.chip with
  | some h =>
    if ¬ h.reportedLatch.agrees h.wantedLatch then
      if x.latchHold = 0 then some (if h.wantedLatch then .latch else .unlatch) else none
    else if ¬ h.reportedPower.agrees h.wantedPower ∧ x.powerHold = 0 then
      some (if h.wantedPower then .powerOn else .powerOff)
    else none
  | none => none

/-- The pieces of a kind (R30): 0 to 8 for a keypad, 0 for a reader. -/
def pieceCount : DropKind → Nat
  | .keypad => 9
  | .readerStripe => 1
  | .readerHybrid => 1

/-- A piece is in the refresh set (R37). -/
def inRefreshSet (kind : DropKind) (f : Features) (piece : Nat) : Bool :=
  match kind with
  | .keypad => if piece < 8 then f.display else piece = 8 && 1 ≤ f.lamps
  | .readerStripe => piece = 0 && 1 ≤ f.lamps
  | .readerHybrid => piece = 0 && 1 ≤ f.lamps

/-- The piece at or after the cursor, cyclically, that is in the refresh set (R37). -/
def refreshPiece (kind : DropKind) (f : Features) (cursor : Nat) : Option Nat :=
  ([0, 1, 2, 3, 4, 5, 6, 7, 8].map fun i => (cursor + i) % pieceCount kind).find? (inRefreshSet kind f)

/-- The REFRESH unit of a piece of an image; a lamp above the reported count is sent OFF (R37). -/
def refreshUnit (img : Image) (f : Features) (piece : Nat) : DownUnit :=
  match img with
  | .blank => .poll
  | .reader bezel => .refreshLamps bezel .off .off .off
  | .keypad chars lamps =>
    let shown (i : Nat) (l : Lamp) : Lamp := if i ≤ f.lamps then l else .off
    if piece < 8 then .refreshText (piece = 0) (chars.toList.getD (2 * piece) 0x20) (chars.toList.getD (2 * piece + 1) 0x20)
    else .refreshLamps (shown 1 lamps[0]) (shown 2 lamps[1]) (shown 3 lamps[2]) (shown 4 lamps[3])

/-- Cases 8 and 9 of R31: a refresh, after which the cursor moves on (R38), or POLL. -/
def Context.chooseRefresh (x : Context) : DownUnit × Context :=
  match x.kind, x.features with
  | some kind, some f =>
    match refreshPiece kind f x.cursor with
    | some piece => (refreshUnit x.image f piece, { x with cursor := (piece + 1) % pieceCount kind })
    | none => (.poll, x)
  | _, _ => (.poll, x)

/-- Cases 4 to 9 of R31, for an ATTACHED context: the unit, and the context with its queue or cursor moved on. -/
def Context.chooseAttached (x : Context) : DownUnit × Context :=
  match x.formDue with
  | some c => (.control c, x)
  | none =>
    match x.latchDue with
    | some c => (.control c, x)
    | none =>
      match x.controls with
      | c :: rest => (.control c, { x with controls := rest })
      | [] =>
        match x.chip with
        | some h => if h.session = .sending then (h.nextUnit, x) else x.chooseRefresh
        | none => x.chooseRefresh

/-- The unit the Loop Tester supplies for a participant (case 1 of R31, R156). -/
def LoopTester.unitFor (t : LoopTester) (c : CtxId) : DownUnit :=
  match t.setup, t.record c with
  | some s, some r => s.unit r.slot
  | _, _ => .poll

/-- The choice of R31. -/
def Part.chooseUnit (p : Part) (l : LineId) (c : CtxId) : DownUnit × Context :=
  let x := p.ctx c
  match x.attach with
  | .looping => ((p.line l).loop.unitFor c, x)
  | .waiting => (.resync, x)
  | .lost => (.resync, x)
  | .attached => x.chooseAttached
  | _ => (.poll, x)

/-- The SECURE entry on the context is arming and has not been sent a SET_FORM that starts its count (R87). -/
def Context.isArming (x : Context) : Bool :=
  match x.entry with
  | some e => e.state == .arming
  | none => false

/-- Every slot from slot i up to slot j of the frame in progress is quiet (R4). -/
def Line.quietBetween (x : Line) (i j : Nat) : Bool := ((x.active.take j).drop i).all Option.isNone

/-- A slot may start: the line sends frames, no slot is in progress, and every slot of the frame before it has been sent: a slot that names a
context has had its start, and a quiet one passes of itself (R2, R4, log 6). -/
def Line.slotInTurn (x : Line) (i : Nat) : Bool :=
  x.state ≠ .idle && x.inSlot.isNone && x.nextSlot ≤ i && i < x.slots && x.quietBetween x.nextSlot i

/-- SLOT_START: in a slot that names a context the Slot Service chooses and sends the downstream unit (R4, R31); an EMPTY slot is quiet. A
timer that expires at the mark does so before a slot of the frame begins (R13). -/
def Part.slotStart (p : Part) (l : LineId) (i : Nat) : Part :=
  if (p.line l).slotInTurn i && !p.expiryDue l then
    match ((p.line l).active[i]?).join with
    | none => p.modLine l fun x => { x with nextSlot := i + 1 }
    | some c =>
      let chosen := p.chooseUnit l c
      let run : SlotRun :=
        { index := i, ctx := c, unit := chosen.1
          fromLoop := (p.ctx c).attach == .looping
          forEntry := chosen.1 == .control (.setForm .masked) && (p.ctx c).isArming
          call := ((p.line l).calls[i]?).getD (slotCall 0)
          word := chosen.1.word }
      (p.setCtx c chosen.2).modLine l fun x => { x with nextSlot := i + 1, inSlot := some run }
  else p

/-! ### Slot completions -/

/-- The holds after a slot completion: the hold of the control the slot carried is set to 4, every other one counts down (R32, R33). -/
def Context.stepHolds (x : Context) (u : DownUnit) : Context :=
  if x.attach ≠ .attached then x
  else match u with
  | .control (.setForm _) =>
    { x with formHold := Config.controlHold, latchHold := x.latchHold - 1, powerHold := x.powerHold - 1 }
  | .control .latch =>
    { x with formHold := x.formHold - 1, latchHold := Config.controlHold, powerHold := x.powerHold - 1 }
  | .control .unlatch =>
    { x with formHold := x.formHold - 1, latchHold := Config.controlHold, powerHold := x.powerHold - 1 }
  | .control .powerOn =>
    { x with formHold := x.formHold - 1, latchHold := x.latchHold - 1, powerHold := Config.controlHold }
  | .control .powerOff =>
    { x with formHold := x.formHold - 1, latchHold := x.latchHold - 1, powerHold := Config.controlHold }
  | _ => { x with formHold := x.formHold - 1, latchHold := x.latchHold - 1, powerHold := x.powerHold - 1 }

/-- A block unit: it goes to the entry in CLOSING, is discarded quietly under the late-block flag, and otherwise does not fit (R53, R54). -/
def Ev.blockUnit (e : Ev) (c : CtxId) (kind : Nat) (f : Entry → Part → Part) : Ev :=
  match (e.part.ctx c).entry with
  | some en =>
    if en.state = .closing then e.map (f en)
    else if (e.part.ctx c).lateBlock then e else e.misfit c kind
  | none => if (e.part.ctx c).lateBlock then e else e.misfit c kind

/-- A CARD_STATE (R53): reported latch and power, then the card state, then the chip session. -/
def Ev.cardState (e : Ev) (c : CtxId) (drop : DropKind) (kind code : Nat) (latch power : Bool) : Ev :=
  match readCard drop code with
  | some card =>
    e.map fun p =>
      ((p.modCtx c fun x => x.modChip fun h =>
          { h with reportedLatch := if latch then .on else .off, reportedPower := if power then .on else .off }).takeCard c card).chipCard
        c card power
  | none => e.misfit c kind

/-- A track unit fits when it names one of tracks 1 to 3 (R112). -/
def Ev.trackUnit (e : Ev) (c : CtxId) (kind track : Nat) (f : Part → Part) : Ev :=
  if 1 ≤ track ∧ track ≤ 3 then e.map f else e.misfit c kind

/-- Units at a keypad other than HELLO (R53). -/
def Ev.keypadUnit (e : Ev) (c : CtxId) (kind : Nat) : UpUnit → Ev
  | .idle => e
  | .scanOpen w => e.scan c (scanOpen w)
  | .scanMasked w => e.scan c (scanMasked w)
  | .blockData b1 b2 => e.blockUnit c kind fun en p => p.blockData c en b1 b2
  | .blockEnd refused => e.blockUnit c kind fun en p => p.blockEnd c en refused
  | _ => e.misfit c kind

/-- Units at a reader other than HELLO (R53, R112). -/
def Ev.readerUnit (e : Ev) (c : CtxId) (drop : DropKind) (kind : Nat) : UpUnit → Ev
  | .idle => e
  | .cardState code latch power => e.cardState c drop kind code latch power
  | .trackChar track parity ch => e.trackUnit c kind track fun p => p.trackChar c track parity ch
  | .trackEnd track status =>
    match readReaderStatus status with
    | some st => e.trackUnit c kind track fun p => p.trackEnd c track st
    | none => e.misfit c kind
  | .swipeEnd => e.map fun p => p.swipeEnd c
  | .chipData b1 b2 =>
    match (e.part.ctx c).chip with
    | some h => e.chipData c h kind b1 b2
    | none => e.misfit c kind
  | .chipEnd st last =>
    match (e.part.ctx c).chip with
    | some h => e.chipEnd c h kind st last
    | none => e.misfit c kind
  | _ => e.misfit c kind

/-- A received unit at an ATTACHED context (R46, R49, R50, R53). `first`: no slot completion came since it entered ATTACHED. -/
def Ev.attachedUnit (e : Ev) (c : CtxId) (first : Bool) (kind : Nat) (w : Payload) : Ev :=
  let e1 := e.map fun p => p.heard c
  match readUnit kind w with
  | .hello code start display lamps =>
    if start then e1.helloRestart c code display lamps
    else if first then e1 else e1.misfit c kind
  | u =>
    match (e.part.ctx c).kind with
    | some .keypad => e1.keypadUnit c kind u
    | some drop => e1.readerUnit c drop kind u
    | none => e1

/-- What the Context Table does with a slot completion, by the attachment state (R46). -/
def Ev.takeUnit (e : Ev) (l : LineId) (run : SlotRun) (cls : SlotClass) : Ev :=
  let c := run.ctx
  let x := e.part.ctx c
  match x.attach, cls with
  | .free, _ => e
  | .parked, _ => e
  | .attached, .received kind w =>
    (e.map fun p => p.modCtx c fun x => { x with fresh := false }).attachedUnit c x.fresh kind w
  | .attached, _ => (e.map fun p => p.modCtx c fun x => { x with fresh := false }).miss c
  | .looping, _ => if run.fromLoop then e.loopCompletion l c cls else e
  | _, .received kind w =>
    match readUnit kind w with
    | .hello code _ display lamps => e.helloAttach c code display lamps
    | _ => e
  | _, _ => e

/-- UNIT_DAMAGED, in every state that takes slot completions, with the slot index as detail (R55). -/
def Ev.damagedUnit (e : Ev) (run : SlotRun) (cls : SlotClass) : Ev :=
  match cls with
  | .damaged _ =>
    match (e.part.ctx run.ctx).attach with
    | .free => e
    | .parked => e
    | _ => e.detectAt .unitDamaged run.ctx (some (.slot run.index))
  | _ => e

/-- The arming count of a SECURE entry that the completion left in ARMING (R87). -/
def Ev.stepArming (e : Ev) (run : SlotRun) : Ev :=
  match (e.part.ctx run.ctx).entry with
  | some en =>
    if en.state = .arming then
      match en.arming with
      | some n =>
        let e1 := e.map fun p => p.modCtx run.ctx fun x => x.setEntry (some { en with arming := some (n + 1) })
        if Config.armingLimit ≤ n + 1 then e1.unmasked run.ctx .armingLimit else e1
      | none =>
        if run.forEntry then e.map fun p => p.modCtx run.ctx fun x => x.setEntry (some { en with arming := some 0 }) else e
    else e
  | none => e

/-- A slot completion (R12): holds, UNIT_DAMAGED, the unit, the command stream (R36), the arming count (R87), and the event's notices. -/
def Part.completeSlot (p : Part) (l : LineId) (run : SlotRun) (cls : SlotClass) : Part :=
  let p0 := (p.modLine l fun x => { x with inSlot := none }).modCtx run.ctx fun x => x.stepHolds run.unit
  let e1 := ((Ev.of p0).damagedUnit run cls).takeUnit l run cls
  ((e1.map fun p => p.commandSent run.ctx run.unit).stepArming run).finish

/-- SLOT_COMPLETION: the end of the slot in progress, whose unit is classed (R11, R12). After a mark that the last slot of an unpadded frame
meets, the expiries of the mark come first (R13). -/
def Part.slotCompletion (p : Part) (l : LineId) (i : Nat) (up : Upstream) : Part :=
  match (p.line l).inSlot with
  | some run => if run.index = i && !p.expiryDue l then p.completeSlot l run (classify up) else p
  | none => p

end Sys2Proof.Machine
end

