-- ==== Sys2Proof/Machine/Lines.lean ====
section
/-! DEFINITION. Line controllers and schedules as events (chapters 1 and 2): entering IDLE, the swap, the frame mark with the countdown of
frame timers, the end of a stopped frame, and the driver trip. -/

namespace Sys2Proof.Machine

/-! ### Entering IDLE (R18) -/

def LineReason.cause : LineReason → Cause
  | .driverFault => .lineFault
  | _ => .lineStopped

/-- One context of a line that enters IDLE: its operations end, and it goes to PARKED (R18, R57). -/
def Part.parkForIdle (p : Part) (why : Cause) (c : CtxId) : Part := (p.endOps c why).modCtx c fun x => x.moveTo .parked

/-- The contexts of a line that enters IDLE, in ascending number (R18). -/
def Part.parkLine (p : Part) (l : LineId) (why : Cause) : Part :=
  p.forContexts fun c q => if (q.ctx c).onLine l then q.parkForIdle why c else q

/-- A waiting pending schedule becomes the active one (R18). -/
def Part.activateWaiting (p : Part) (l : LineId) : Part :=
  match (p.line l).waiting with
  | some sched => (p.activate l sched).modLine l fun x => { x with waiting := none }
  | none => p

/-- A line enters IDLE (R16 to R19): its test ends ABORTED, its contexts are parked with their operations' results, a pending schedule
becomes active, the frame in progress and its calls are gone. -/
def Part.enterIdle (p : Part) (l : LineId) (why : LineReason) : Part :=
  (((p.abortTest l).parkLine l why.cause).activateWaiting l).modLine l fun x =>
    { x with state := .idle, stopPending := false, calls := [], inSlot := none, nextSlot := 0 }

/-- The slots of the frame in progress have all been sent, and none is in progress (R2). -/
def Line.frameSent (x : Line) : Bool := x.inSlot.isNone && x.quietBetween x.nextSlot x.slots

/-- STOPPED_FRAME_END: the end of the frame in progress on a line with stop pending (R16, R17). The frame is sent to its end first: its slots,
their completions and the padding. -/
def Part.stoppedFrameEnd (p : Part) (l : LineId) : Part :=
  if (p.line l).state ≠ .idle ∧ (p.line l).stopPending ∧ (p.line l).frameSent ∧ ¬ p.expiryDue l
  then (p.enterIdle l .stopped).offer (lineNotice l .idle .stopped) else p

/-- The LINE_DRIVE detection of a trip: the cut frame's number as stamp, no context, the line state at the trip as detail (R19). -/
def Part.driveFault (p : Part) (l : LineId) : Detection :=
  { cls := .lineDrive, line := some l, ctx := none, stamp := some (p.line l).frame, detail := some (.lineState (p.line l).state) }

/-- DRIVER_TRIP: the driver fault input is tripped, and on a line in RUN or TEST the frame is cut and the line enters IDLE (R19). -/
def Part.driverTrip (p : Part) (l : LineId) : Part :=
  let p1 := p.modLine l fun x => { x with driverTripped := true }
  if (p.line l).state = .idle then p1
  else (((Ev.of (p1.enterIdle l .driverFault)).detect (p.driveFault l)).close (lineNotice l .idle .driverFault)).finish

/-! ### The swap (R25) -/

/-- A context that the swap leaves without a slot goes to PARKED: its operations end UNSCHEDULED, and a loop participant's record is closed
(R25, R26, R156). -/
def Part.parkForSwap (p : Part) (l : LineId) (c : CtxId) : Part :=
  ((p.endOps c .unscheduled).modCtx c fun x => x.moveTo .parked).modLoop l fun t =>
    if (p.ctx c).attach = .looping then t.put c fun r => { r with finish := .unscheduled } else t

/-- The contexts of a line that the swap from `old` to `new` parks, and those it brings to WAITING. -/
def Part.swapLosers (p : Part) (l : LineId) (old new : Schedule) : List CtxId :=
  (p.contextsOn l).filter fun c => 0 < slotCount old c && slotCount new c == 0 && (p.ctx c).attach != .parked

def Part.swapGainers (p : Part) (l : LineId) (old new : Schedule) : List CtxId :=
  (p.contextsOn l).filter fun c => slotCount old c == 0 && 0 < slotCount new c && (p.ctx c).attach == .parked

/-- The DROP notices of the swap, in ascending context number (R25, R58). -/
def Part.swapNotices (p : Part) (l : LineId) (losers gainers : List CtxId) : List Rec :=
  ((p.contextsOn l).filter fun c => losers.contains c || gainers.contains c).map fun c =>
    p.dropNotice c (if losers.contains c then .unscheduled else .scheduled) false none

/-- The swap to `new`: the results of every operation it ends, then its DROP notices (R25). -/
def Part.swapTo (p : Part) (l : LineId) (new : Schedule) : Part :=
  let old := (p.line l).active
  let losers := p.swapLosers l old new
  let gainers := p.swapGainers l old new
  let p1 := (p.activate l new).modLine l fun x => { x with waiting := none }
  let p2 := losers.foldl (fun q c => q.parkForSwap l c) p1
  let p3 := gainers.foldl (fun q c => q.modCtx c fun x => { x with attach := .waiting }) p2
  p3.offerAll (p3.swapNotices l losers gainers)

/-- The Schedule Store's event at a frame mark (R25). -/
def Part.swapMark (p : Part) (l : LineId) : Part :=
  match (p.line l).waiting with
  | some new => p.swapTo l new
  | none => p

/-! ### The frame mark (R10, R13) -/

/-- One frame mark of every running timer of a context (R13). -/
def Context.tick (x : Context) : Context :=
  { x with
    keypad := x.keypad.map fun k => { k with entry := k.entry.map Entry.tick }
    reader := x.reader.map fun r => { r with capture := r.capture.map Capture.tick }
    chip := x.chip.map Chip.tick }

def Part.tickLine (p : Part) (l : LineId) : Part :=
  p.forContexts fun c q => if (q.ctx c).onLine l then q.modCtx c Context.tick else q

/-- The context of an expiry. -/
def expiryTarget : Expiry → CtxId
  | .entry c _ => c
  | .arm c => c
  | .captureLimit c => c
  | .atrWait c => c
  | .response c => c

/-- Take a timer expiry that is due; one that is not due does nothing. -/
def Part.expire (p : Part) : Expiry → Part
  | .entry c t => p.entryExpiry c t
  | .arm c => p.armExpiry c
  | .captureLimit c => p.limitExpiry c
  | .atrWait c => p.atrExpiry c
  | .response c => p.responseExpiry c

/-- The expiries of this line that are taken before the mark's other events (R27, log 4). -/
def Part.expireFirst (p : Part) (l : LineId) (first : List Expiry) : Part :=
  first.foldl (fun q x => if (q.ctx (expiryTarget x)).onLine l then q.expire x else q) p

/-- A frame mark comes when the line sends frames with no stop pending, after every slot of the frame (R2, R10, R16). On an unpadded frame the
last slot ends at the same instant, and its completion may be taken after the mark (section 1.7, log 36). -/
def Line.markInTurn (x : Line) : Bool :=
  x.state ≠ .idle && !x.stopPending &&
    match x.inSlot with
    | none => x.frameSent
    | some run => run.index + 1 = x.slots && x.nextSlot = x.slots && !x.padded

/-- The two events of a mark besides expiries, in either order (R27). -/
def Part.markEvents (p : Part) (l : LineId) : MarkOrder → Part
  | .swapFirst => (p.swapMark l).testMark l
  | .testFirst => (p.testMark l).swapMark l

/-- The mark opens the next frame: the calls of its slots are taken from the schedule the mark leaves active (R3). -/
def Part.openFrame (p : Part) (l : LineId) : Part := p.modLine l fun x => { x with calls := p.slotCalls l }

/-- FRAME_MARK (R10): the counter goes up and wraps, timers count down, and then come the mark's events: the expiries taken first, the swap
and the Loop Tester's event in the order given (R27). No mark comes while a timer that an earlier one brought to 0 is due (R13). -/
def Part.frameMark (p : Part) (l : LineId) (first : List Expiry) (order : MarkOrder) : Part :=
  if (p.line l).markInTurn && !p.expiryDue l then
    let p1 := ((p.modLine l fun x => { x with frame := x.frame + 1, nextSlot := 0 }).tickLine l).expireFirst l first
    (p1.markEvents l order).openFrame l
  else p

end Sys2Proof.Machine
end

