-- ==== Sys2Proof/Machine/Format.lean ====
section
/-! DEFINITION. Message formats toward the workstation (R163, R169): numbers, items and entries, the enumerations, the body of every
record, replies, and the framing with its CRC. Fields are numbered in the order their rule lists them (log 14). -/

namespace Sys2Proof.Machine

/-! ### Values (R163) -/

/-- A number in w bytes, least significant byte first. -/
def num : Nat → Nat → List Byte
  | 0, _ => []
  | w + 1, n => .ofNat 8 n :: num w (n / 256)

def flag (b : Bool) : List Byte := [if b then 1 else 0]

/-- A field of an entry that may be absent: a presence byte before it. -/
def present : Option (List Byte) → List Byte
  | none => [0]
  | some v => 1 :: v

/-- A list or text inside an entry: its count of values, in w bytes, before it. -/
def counted (w count : Nat) (v : List Byte) : List Byte := num w count ++ v

def itemsFrom (code : Nat) : List (Option (List Byte)) → List Byte
  | [] => []
  | none :: rest => itemsFrom (code + 1) rest
  | some v :: rest => .ofNat 8 code :: num 2 v.length ++ v ++ itemsFrom (code + 1) rest

/-- Items of a body: field code, 2-byte value length, value; a field left out has no item. -/
def itemBytes (fields : List (Option (List Byte))) : List Byte := itemsFrom 1 fields

/-- A message: start byte, body length, body, CRC-16 over length and body (R163). -/
def frameMessage (body : List Byte) : List Byte :=
  let covered := num 2 body.length ++ body
  0xC5 :: covered ++ num 2 (crc16 covered).toNat

/-! ### Enumerations, each numbered from 0 in the order its rule lists the values -/

def LineState.code : LineState → Nat
  | .idle => 0
  | .run => 1
  | .test => 2

def Attach.code : Attach → Nat
  | .free => 0
  | .parked => 1
  | .waiting => 2
  | .attached => 3
  | .mismatch => 4
  | .lost => 5
  | .looping => 6

def CardState.code : CardState → Nat
  | .unknown => 0
  | .noCard => 1
  | .swiping => 2
  | .inserted => 3
  | .latched => 4

def Session.code : Session → Nat
  | .off => 0
  | .starting => 1
  | .ready => 2
  | .sending => 3
  | .awaiting => 4

/-- "each on, off or UNKNOWN" (section 3.1). -/
def Reported.code : Reported → Nat
  | .on => 0
  | .off => 1
  | .unknown => 2

def EntryKind.code : EntryKind → Nat
  | .opened => 0
  | .secure => 1

def EntryState.code : EntryState → Nat
  | .arming => 0
  | .collecting => 1
  | .closing => 2

/-- IDLE is 0 (R104). -/
def CaptureState.code : CaptureState → Nat
  | .armed => 1
  | .capturing => 2

def LogStyle.code : LogStyle → Nat
  | .shift => 0
  | .keepFirst => 1
  | .off => 2

def Unmask.code : Unmask → Nat
  | .armingLimit => 0
  | .openScan => 1

def Miscompare.code : Miscompare → Nat
  | .silent => 0
  | .damaged => 1
  | .value => 2

/-- "DONE, UNSCHEDULED or RUNNING" (R160). -/
def Finish.code : Finish → Nat
  | .done => 0
  | .unscheduled => 1
  | .running => 2

def LoopOutcome.code : LoopOutcome → Nat
  | .passed => 0
  | .failed => 1
  | .stopped => 2
  | .empty => 3
  | .aborted => 4

def LineReason.code : LineReason → Nat
  | .started => 0
  | .stopped => 1
  | .driverFault => 2
  | .testEntered => 3
  | .testEnded => 4

def DropCause.code : DropCause → Nat
  | .attached => 0
  | .mismatch => 1
  | .restarted => 2
  | .lost => 3
  | .scheduled => 4
  | .unscheduled => 5

def PointerKind.code : PointerKind → Nat
  | .reader => 0
  | .keypad => 1

def ClearCause.code : ClearCause → Nat
  | .released => 0
  | .kindChanged => 1

def CardCause.code : CardCause → Nat
  | .changed => 0
  | .lost => 1

/-- The cause SWIPED_UNARMED of a CARD notice (R117). That it is number 2, after R116's CHANGED and LOST, is the model's DESIGN CHOICE (log 50). -/
def swipedCode : Nat := 2

/-- DROP_LOST to LINE_FAULT, in the order R57's reasons are listed everywhere. -/
def Cause.code : Cause → Nat
  | .dropLost => 0
  | .dropRestarted => 1
  | .unscheduled => 2
  | .lineStopped => 3
  | .lineFault => 4

def EntryOutcome.code : EntryOutcome → Nat
  | .completed => 0
  | .customerCancelled => 1
  | .workstationCancelled => 2
  | .timedOut => 3
  | .keypadUnmasked => 4
  | .blockFault => 5
  | .ended c => 6 + c.code

def timerCode : EntryTimer → Nat
  | .firstKey => 0
  | .interKey => 1
  | .total => 2
  | .blockWait => 3

def BlockFault.code : BlockFault → Nat
  | .overlong => 0
  | .length => 1
  | .refused => 2

/-- The detail of an entry result is numbered within its outcome (log 15). -/
def EntryDetail.code : EntryDetail → Nat
  | .timer t => timerCode t
  | .unmask w => w.code
  | .block w => w.code

def CaptureOutcome.code : CaptureOutcome → Nat
  | .completed => 0
  | .armExpired => 1
  | .incomplete => 2
  | .workstationCancelled => 3
  | .ended c => 4 + c.code

/-- "OK, NO_DATA, PARITY, LRC_BAD or TRUNCATED" (R115). -/
def TrackStatus.code : TrackStatus → Nat
  | .ok => 0
  | .noData => 1
  | .parity => 2
  | .lrcBad => 3
  | .truncated => 4

/-- "END_CODE, COUNT, TRACK_END, TRUNCATED or OPEN" (R115). -/
def endedByCode : Option EndedBy → Nat
  | some .endCode => 0
  | some .count => 1
  | some .trackEnd => 2
  | some .truncated => 3
  | none => 4

def StartOutcome.code : StartOutcome → Nat
  | .ready => 0
  | .mute => 1
  | .parity => 2
  | .contactFault => 3
  | .atrLength => 4
  | .timedOut => 5
  | .stopped => 6
  | .cardRemoved => 7
  | .powerLost => 8
  | .ended c => 9 + c.code

def ExchangeStatus.code : ExchangeStatus → Nat
  | .ok => 0
  | .mute => 1
  | .parity => 2
  | .contactFault => 3
  | .overrun => 4
  | .timedOut => 5
  | .stopped => 6
  | .cardRemoved => 7
  | .powerLost => 8
  | .ended c => 9 + c.code

def EndReason.code : EndReason → Nat
  | .stopped => 0
  | .contactFault => 1
  | .exchangeTimeout => 2
  | .cardRemoved => 3
  | .powerLost => 4
  | .ended c => 5 + c.code

def ResetKind.code : ResetKind → Nat
  | .power => 0
  | .restart => 1

/-- The line state at a driver trip is listed "RUN or TEST" (R147), and a trip finds no other (R19). -/
def LineState.tripCode : LineState → Nat
  | .idle => 0
  | .run => 0
  | .test => 1

/-- The detail of a detection is one byte, numbered within its class (R147, log 15). -/
def Detail.code : Detail → Nat
  | .slot i => i
  | .threshold q => q
  | .kindCode k => k
  | .unitCode k => k
  | .unmask w => w.code
  | .lineState s => s.tripCode
  | .miscompare m => m.code
  | .link e => e.index.val
  | .level l => l

def VKey.code : VKey → Nat
  | .key n => n.val
  | .digit => noneCode

def ctxByte (c : CtxId) : List Byte := num 1 c.val

/-- A pointer, an entry of a schedule: the context or the all-ones value. -/
def pointerByte (c : Option CtxId) : List Byte := num 1 (match c with | some c => c.val | none => noneCode)

def holderByte (p : Option PosId) : List Byte := num 1 (match p with | some p => posNumber p | none => noneCode)

/-! ### Entries -/

/-- The setup of a loop test as one entry (R160). -/
def LoopSetup.entry (s : LoopSetup) : List Byte :=
  counted 1 4 (s.pattern.toList.flatMap fun w => num 2 w.toNat) ++ num 2 s.passLimit ++ flag s.continuous ++ flag s.stopOnError

/-- The error of a participant: kind, pattern index, pass, and payload and kind where the slot gave them (R157, R160). It is one field of the
participant's entry, so that one presence byte stands before all of it (DESIGN CHOICE, log 63). -/
def LoopError.entry (e : LoopError) : List Byte :=
  num 1 e.kind.code ++ num 1 e.index ++ num 2 e.pass ++ present (e.payload.map fun w => num 2 w.toNat) ++
  present (e.upKind.map (num 1 ·))

def LoopRecord.entry (r : LoopRecord) : List Byte :=
  ctxByte r.ctx ++ num 1 r.address ++ num 2 r.passes ++ num 1 r.finish.code ++ present (r.error.map LoopError.entry)

/-- The last results of a line as one entry of READ LOOP RESULTS: the fields of a LOOP_RESULT body in place (R153, R160; DESIGN CHOICE, log 58). -/
def LoopBody.entry (b : LoopBody) : List Byte :=
  num 1 b.outcome.code ++ b.setup.entry ++ present (b.entryFrame.map fun f => num 4 f.toNat) ++ num 4 b.endFrame.toNat ++
  counted 1 b.records.length (b.records.flatMap LoopRecord.entry)

def TrackEntry.entry (t : TrackEntry) : List Byte :=
  num 1 t.track ++ num 1 t.status.code ++ num 1 (endedByCode t.endedBy) ++ present (t.chars.map fun l => counted 1 l.length l)

/-- A detection as one entry of READ FAULTS: class, line, context, stamp, detail (R146). The first-fault record is one item of this form
(DESIGN CHOICE, log 60). -/
def Detection.entry (d : Detection) : List Byte :=
  num 1 d.cls.index.val ++ present (d.line.map fun l => num 1 (lineCode l)) ++ present (d.ctx.map ctxByte) ++
  present (d.stamp.map fun s => num 4 s.toNat) ++ present (d.detail.map fun x => num 1 x.code)

def LogEntry.entry (e : LogEntry) : List Byte := e.detection.entry ++ num 1 e.repeats

/-- A capture rule as an entry: start code or NONE, end codes and count (R39, R103), and before them the number of its track, for which the rules
give no place (DESIGN CHOICE, log 57). -/
def TrackRule.entry (r : TrackRule) (track : Nat) : List Byte :=
  num 1 track ++ num 1 (match r.start with | some b => b.toNat | none => noneCode) ++ counted 1 r.ends.length r.ends ++ num 1 r.count

def Rules.entries (r : Rules) : List Byte := r.t1.entry 1 ++ r.t2.entry 2 ++ r.t3.entry 3

/-! ### Bodies of the records -/

def EntryBody.items (b : EntryBody) : List (Option (List Byte)) :=
  [some (num 1 b.kind.code), some (num 1 b.outcome.code), b.endKey.map (num 1 ·), b.detail.map fun d => num 1 d.code,
   b.digits.map fun l => l.flatMap (num 1 ·), some (num 1 b.count), some (num 1 b.ignored), b.block, b.blockBytes.map (num 1 ·)]

def CaptureBody.items (b : CaptureBody) : List (Option (List Byte)) :=
  [some (num 1 b.outcome.code), some (num 1 b.mask.mask), some (b.tracks.flatMap TrackEntry.entry)]

/-- Part, then the fields of START, EXCHANGE and SESSION_END in the order of R133: the part is item 1, and by the model's choice the fields of its
table run on through the three parts as items 2 to 8 (DESIGN CHOICE, log 61). -/
def ChipBody.items : ChipBody → List (Option (List Byte))
  | .start o atr => [some (num 1 0), some (num 1 o.code), atr]
  | .exchange n st r => [some (num 1 1), none, none, some (num 2 n), some (num 1 st.code), some r]
  | .sessionEnd r n => [some (num 1 2), none, none, none, none, none, some (num 1 r.code), some (num 2 n)]

def LoopBody.items (b : LoopBody) : List (Option (List Byte)) :=
  [some (num 1 b.outcome.code), some b.setup.entry, b.entryFrame.map fun f => num 4 f.toNat, some (num 4 b.endFrame.toNat),
   some (b.records.flatMap LoopRecord.entry)]

/-- The body items of a record, numbered as its rule lists them (R21, R58, R61, R80, R101, R115 to R117, R133, R150, R160, R162). A CARD notice
of cause SWIPED_UNARMED runs on from the list of R116 (log 45), and POWER_UP gives the straps' link rate and line rate as numbers of 3 and 2 bytes
(log 54). Values that a rule names in one phrase have an item each: the two pointers of a POSITION notice after the clearing are items 4 and 5 (R61,
log 56), the two card states of a CARD notice 1 and 2 and its latch and power 4 and 5 (R116, log 59), and what a HELLO reported runs on in a DROP
notice as items 5 to 7 (R58, log 62). The tracks seen of a SWIPED_UNARMED notice are a list of track numbers (log 16). All are DESIGN CHOICES. -/
def Body.items : Body → List (Option (List Byte))
  | .entry b => b.items
  | .capture b => b.items
  | .chip b => b.items
  | .loop b => b.items
  | .line st why => [some (num 1 st.code), some (num 1 why.code)]
  | .powerUp kind rev first straps =>
      [some (num 1 kind.code), some (num 1 rev), some (flag first), some (num 3 straps.linkRate), some (flag straps.flow),
       some (num 2 straps.lineRate.kbps)]
  | .drop addr st why restart hello =>
      [some (num 1 addr), some (num 1 st.code), some (num 1 why.code), some (flag restart),
       hello.map fun h => num 1 h.kindCode, hello.map fun h => flag h.features.display, hello.map fun h => num 1 h.features.lamps]
  | .position ptr named why after =>
      [some (num 1 ptr.code), some (ctxByte named), some (num 1 why.code), some (pointerByte after.reader),
       some (pointerByte after.keypad)]
  | .fault cls stamp detail count first =>
      [some (num 1 cls.index.val), stamp.map fun s => num 4 s.toNat, detail.map fun d => num 1 d.code, some (num 2 count),
       some (flag first)]
  | .card before after why lp =>
      [some (num 1 before.code), some (num 1 after.code), some (num 1 why.code), lp.map fun x => num 1 x.1.code,
       lp.map fun x => num 1 x.2.code]
  | .swiped now seen discarded =>
      [none, none, some (num 1 swipedCode), none, none, some (num 1 now.code), some (seen.tracks.flatMap (num 1 ·)),
       some (num 1 discarded)]
  | .key form k => [some (num 1 form.code), some (num 1 k.code)]

/-! ### Messages toward the workstation (R169) -/

/-- Presence byte of a record: bit 0 position, bit 1 context, bit 2 line. -/
def Rec.presence (r : Rec) : Nat := r.pos.isSome.toNat + 2 * r.ctx.isSome.toNat + 4 * r.line.isSome.toNat

def Rec.message (r : Rec) (sendNumber : BitVec 16) : List Byte :=
  [0x03, 0x00] ++ num 1 r.body.kind.index.val ++ num 1 r.level ++ num 2 sendNumber.toNat ++ num 1 r.presence ++
  (match r.pos with | some p => num 1 (posNumber p) | none => []) ++
  (match r.ctx with | some c => ctxByte c | none => []) ++
  (match r.line with | some l => num 1 (lineCode l) | none => []) ++ itemBytes r.body.items

def RefusalCode.code : RefusalCode → Nat
  | .unknownKind => 1
  | .badLength => 2
  | .badField => 3
  | .wrongState => 4
  | .busy => 5
  | .notBound => 6
  | .notAttached => 7
  | .noResultRoom => 8
  | .controlFull => 9

def Reply.body (r : Reply) : List Byte :=
  match r.answer with
  | .accepted fields => [0x01, r.tag, r.kind] ++ itemBytes fields
  | .refused code field => [0x02, r.tag, r.kind] ++ num 1 code.code ++ num 1 field

/-- The bytes of a message on TXD (R163, R169). -/
def Sending.bytes : Sending → List Byte
  | .reply r => frameMessage r.body
  | .record r n => frameMessage (r.message n)

end Sys2Proof.Machine
end

