-- ==== Sys2Proof/Machine/Parse.lean ====
section
/-! DEFINITION. Reading a request from the body of a good message (R163, R165 steps 1 to 3, R169): the kind byte, the items and their value
lengths, the field codes. The field table numbers each request's fields as the list that opens its description does. -/

namespace Sys2Proof.Machine

/-- What a field's value is (R163): a number of 1 to w bytes (log 18); a list of at most m values of w bytes; a text of any length; or a
field made of entries. -/
inductive Shape
  | number (w : Nat)
  | list (w m : Nat)
  | text
  | keypadPart
  | readerPart
  | rules
  | settings
  deriving DecidableEq, Repr

/-- A field of a request: its shape, and whether its rule gives neither a default nor a meaning when it is left out (R165). -/
structure Field where
  shape    : Shape
  required : Bool
  deriving DecidableEq, Repr

def must (s : Shape) : Field := { shape := s, required := true }
def may (s : Shape) : Field := { shape := s, required := false }

/-- The fields of each request kind, field code 1 first (R169 for the kinds; each request's description for its fields). The largest count of
a list is that of its rule: 16 entries of a schedule (R22), 3 terminators (log 43), 261 command bytes (R123), 4 payloads and 16
participants (R154). -/
def fieldTable : Nat → Option (List Field)
  | 0x10 => some []
  | 0x11 => some []
  | 0x12 => some [must (.number 1), must (.number 2), must (.number 1), must (.number 2)]
  | 0x13 => some [must (.number 1)]
  | 0x14 => some [must (.number 1)]
  | 0x15 => some [must (.number 1), must (.list 1 16)]
  | 0x16 => some [must (.number 1)]
  | 0x17 => some [must (.number 1), may (.number 1), may (.number 1)]
  | 0x19 => some [must (.number 1), may .keypadPart, may .readerPart]
  | 0x1A => some [must (.number 1), must (.number 1), must (.number 1), must (.number 1), may (.list 1 3), may (.number 3),
      may (.number 3), may (.number 3), may (.number 1), may .text]
  | 0x1B => some [must (.number 1)]
  | 0x1C => some [must (.number 1), must (.number 1), may (.number 3)]
  | 0x1D => some [must (.number 1)]
  | 0x1E => some [must (.number 1), may (.number 1), may (.number 1), may (.number 1), may (.number 1), may (.number 1), may .rules,
      may (.number 2)]
  | 0x1F => some [must (.number 1)]
  | 0x20 => some [must (.number 1)]
  | 0x21 => some [must (.number 1), must (.list 1 261)]
  | 0x22 => some [must (.number 1)]
  | 0x23 => some [must (.number 1)]
  | 0x24 => some [must (.number 1), must (.number 1)]
  | 0x25 => some [may .settings, may (.number 1)]
  | 0x26 => some []
  | 0x27 => some []
  | 0x28 => some [must (.number 1), may (.list 2 4), may (.number 2), may (.number 1), may (.number 1), may (.list 1 16)]
  | 0x29 => some [must (.number 1)]
  | 0x2A => some [must (.number 1)]
  | _ => none

/-! ### Values -/

/-- A number from its bytes, least significant first; no byte is 0. -/
def readNum : List Byte → Nat
  | [] => 0
  | b :: bs => b.toNat + 256 * readNum bs

/-- The values of a list of two-byte numbers; a list of one-byte numbers is `List.map`. -/
def readWords : List Byte → List Nat
  | b1 :: b2 :: rest => readNum [b1, b2] :: readWords rest
  | _ => []

/-! ### Entries: each reader takes its field from the front and leaves the rest -/

def takeByte : List Byte → Option (Nat × List Byte)
  | b :: rest => some (b.toNat, rest)
  | [] => none

def takeBytes (n : Nat) (l : List Byte) : Option (List Byte × List Byte) :=
  if n ≤ l.length then some (l.take n, l.drop n) else none

/-- A byte that may be absent, with its presence byte 0 or 1. -/
def takeOptByte : List Byte → Option (Option Nat × List Byte)
  | b :: rest =>
    if b = 0 then some (none, rest)
    else if b = 1 then (takeByte rest).map fun x => (some x.1, x.2)
    else none
  | [] => none

/-- A text that may be absent: presence byte, then its count in 2 bytes and its characters. -/
def takeOptText : List Byte → Option (Option (List Byte) × List Byte)
  | b :: rest =>
    if b = 0 then some (none, rest)
    else if b = 1 then
      match takeBytes 2 rest with
      | some (n, rest') => (takeBytes (readNum n) rest').map fun x => (some x.1, x.2)
      | none => none
    else none
  | [] => none

/-- The keypad part of SET INDICATORS: text, lamps 1 to 4, beep; nothing may follow. -/
def readKeypadPart (l : List Byte) : Option KeypadPart :=
  (takeOptText l).bind fun t =>
  (takeOptByte t.2).bind fun l1 =>
  (takeOptByte l1.2).bind fun l2 =>
  (takeOptByte l2.2).bind fun l3 =>
  (takeOptByte l3.2).bind fun l4 =>
  (takeOptByte l4.2).bind fun b =>
  if b.2 = [] then some { text := t.1, lamp1 := l1.1, lamp2 := l2.1, lamp3 := l3.1, lamp4 := l4.1, beep := b.1 } else none

/-- The reader part of SET INDICATORS: bezel lamp, beep. -/
def readReaderPart (l : List Byte) : Option ReaderPart :=
  (takeOptByte l).bind fun z => (takeOptByte z.2).bind fun b =>
  if b.2 = [] then some { bezel := z.1, beep := b.1 } else none

/-- One capture rule: start code, counted end codes and count (R39, R40, R103), after the number of its track, for which the rules give no place
(DESIGN CHOICE, log 57). -/
def takeRule (l : List Byte) : Option (RuleField × List Byte) :=
  (takeByte l).bind fun t =>
  (takeByte t.2).bind fun s =>
  (takeByte s.2).bind fun n =>
  (takeBytes n.1 n.2).bind fun e =>
  (takeByte e.2).bind fun c =>
  some ({ track := t.1, start := s.1, ends := e.1.map BitVec.toNat, count := c.1 }, c.2)

/-- One class setting (R151): by the model's choice the settings of a request are one field, each an entry of class, detect and report (log 60). -/
def takeSetting (l : List Byte) : Option (ClassSetting × List Byte) :=
  (takeByte l).bind fun c => (takeOptByte c.2).bind fun d => (takeOptByte d.2).bind fun r =>
  some ({ cls := c.1, detect := d.1, report := r.1 }, r.2)

/-- Entries end to end, at most `fuel` of them; every entry takes at least one byte. -/
def readEntries {α : Type} (take : List Byte → Option (α × List Byte)) : Nat → List Byte → Option (List α)
  | _, [] => some []
  | 0, _ :: _ => none
  | fuel + 1, l => (take l).bind fun x => (readEntries take fuel x.2).map (x.1 :: ·)

def readRules (l : List Byte) : Option (List RuleField) := readEntries takeRule l.length l

def readSettings (l : List Byte) : Option (List ClassSetting) := readEntries takeSetting l.length l

/-- The value length suits the field (R165, step 2). -/
def Shape.suits (s : Shape) (v : List Byte) : Bool :=
  match s with
  | .number w => 1 ≤ v.length && v.length ≤ w
  | .list w m => v.length % w = 0 && v.length / w ≤ m
  | .text => true
  | .keypadPart => (readKeypadPart v).isSome
  | .readerPart => (readReaderPart v).isSome
  | .rules => (readRules v).isSome
  | .settings => (readSettings v).isSome

/-! ### Items -/

/-- An item: field code and value (R163). -/
structure Item where
  code  : Nat
  value : List Byte
  deriving DecidableEq, Repr

/-- Split a body after its tag into items; `none` when an item overruns the body or bytes are left over (R165, step 2). -/
def splitItems : Nat → List Byte → Option (List Item)
  | _, [] => some []
  | fuel + 1, c :: l1 :: l2 :: rest =>
    if readNum [l1, l2] ≤ rest.length then
      (splitItems fuel (rest.drop (readNum [l1, l2]))).map
        fun is => { code := c.toNat, value := rest.take (readNum [l1, l2]) } :: is
    else none
  | _, _ => none

/-- The field of a code in a request's list, if the kind has it. -/
def fieldOf (fields : List Field) (code : Nat) : Option Field := if code = 0 then none else fields[code - 1]?

/-- Step 2 of R165 for value lengths: the first item whose length does not suit its field. -/
def lengthFault (fields : List Field) (items : List Item) : Option Nat :=
  (items.find? fun i => match fieldOf fields i.code with | some f => !f.shape.suits i.value | none => false).map (·.code)

/-- Step 3 of R165: the first item whose code the kind does not have, or that appeared before. -/
def codeFault (fields : List Field) (items : List Item) : Option Nat :=
  let rec go (seen : List Nat) : List Item → Option Nat
    | [] => none
    | i :: rest => if (fieldOf fields i.code).isNone || seen.contains i.code then some i.code else go (i.code :: seen) rest
  go [] items

/-- Step 3 of R165: the first field that is left out and has neither a default nor a meaning when left out. -/
def missingField (fields : List Field) (items : List Item) : Option Nat :=
  ((List.range fields.length).find? fun n =>
    match fields[n]? with
    | some f => f.required && !(items.any fun i => i.code == n + 1)
    | none => false).map (· + 1)

/-! ### Building the request -/

def itemValue (items : List Item) (code : Nat) : Option (List Byte) := (items.find? (·.code == code)).map (·.value)

def optNum (items : List Item) (code : Nat) : Option Nat := (itemValue items code).map readNum

def theNum (items : List Item) (code : Nat) : Nat := (optNum items code).getD 0

def optBytes (items : List Item) (code : Nat) : Option (List Nat) := (itemValue items code).map fun v => v.map BitVec.toNat

/-- The request of a kind whose items have passed steps 2 and 3 (R169). -/
def buildRequest (kind : Nat) (is : List Item) : Option Request :=
  match kind with
  | 0x10 => some .status
  | 0x11 => some .restart
  | 0x12 => some (.lineSetup (theNum is 1) (theNum is 2) (theNum is 3) (theNum is 4))
  | 0x13 => some (.lineStart (theNum is 1))
  | 0x14 => some (.lineStop (theNum is 1))
  | 0x15 => some (.loadSchedule (theNum is 1) ((optBytes is 2).getD []))
  | 0x16 => some (.readSchedule (theNum is 1))
  | 0x17 => some (.bindPosition (theNum is 1) (optNum is 2) (optNum is 3))
  | 0x19 => some (.setIndicators (theNum is 1) ((itemValue is 2).bind readKeypadPart) ((itemValue is 3).bind readReaderPart))
  | 0x1A => some (.openEntry (theNum is 1)
      { kind := theNum is 2, min := theNum is 3, max := theNum is 4, terms := optBytes is 5, firstKey := optNum is 6,
        interKey := optNum is 7, total := optNum is 8, echo := optNum is 9, prompt := itemValue is 10 })
  | 0x1B => some (.cancelEntry (theNum is 1))
  | 0x1C => some (.armReader (theNum is 1) (theNum is 2) (optNum is 3))
  | 0x1D => some (.disarmReader (theNum is 1))
  | 0x1E => some (.dropProfile (theNum is 1)
      { line := optNum is 2, address := optNum is 3, kind := optNum is 4, q := optNum is 5, d := optNum is 6,
        rules := (itemValue is 7).bind readRules, chipTimeout := optNum is 8 })
  | 0x1F => some (.dropRelease (theNum is 1))
  | 0x20 => some (.chipStart (theNum is 1))
  | 0x21 => some (.chipExchange (theNum is 1) ((itemValue is 2).getD []))
  | 0x22 => some (.chipStop (theNum is 1))
  | 0x23 => some (.releaseCard (theNum is 1))
  | 0x24 => some (.setLevels (theNum is 1) (theNum is 2))
  | 0x25 => some (.faultSetup ((itemValue is 1).bind readSettings) (optNum is 2))
  | 0x26 => some .readFaults
  | 0x27 => some .clearFaults
  | 0x28 => some (.loopStart (theNum is 1)
      { pattern := (itemValue is 2).map readWords, passLimit := optNum is 3, continuous := optNum is 4, stopOnError := optNum is 5,
        participants := optBytes is 6 })
  | 0x29 => some (.loopStop (theNum is 1))
  | 0x2A => some (.readLoopResults (theNum is 1))
  | _ => none

/-- Read a request of kind `kind` from the bytes after the tag: steps 1 to 3 of R165. -/
def readRequest (kind : Nat) (rest : List Byte) : Parsed :=
  match fieldTable kind with
  | none => .bad .unknownKind 0
  | some fields =>
    match splitItems rest.length rest with
    | none => .bad .badLength 0
    | some items =>
      match lengthFault fields items, codeFault fields items, missingField fields items with
      | some code, _, _ => .bad .badLength code
      | none, some code, _ => .bad .badField code
      | none, none, some code => .bad .badField code
      | none, none, none =>
        match buildRequest kind items with
        | some r => .good r
        | none => .bad .unknownKind 0

/-- The good message of a body: kind byte, tag byte, items (R163). A body holds at least 2 bytes. -/
def readMessage : List Byte → Message
  | kind :: tag :: rest => { kind, tag, read := readRequest kind.toNat rest }
  | [kind] => { kind, tag := 0, read := .bad .badLength 0 }
  | [] => { kind := 0, tag := 0, read := .bad .badLength 0 }

/-- The kind code of a request (R169). -/
def requestKind : Request → Byte
  | .status => 0x10
  | .restart => 0x11
  | .lineSetup _ _ _ _ => 0x12
  | .lineStart _ => 0x13
  | .lineStop _ => 0x14
  | .loadSchedule _ _ => 0x15
  | .readSchedule _ => 0x16
  | .bindPosition _ _ _ => 0x17
  | .setIndicators _ _ _ => 0x19
  | .openEntry _ _ => 0x1A
  | .cancelEntry _ => 0x1B
  | .armReader _ _ _ => 0x1C
  | .disarmReader _ => 0x1D
  | .dropProfile _ _ => 0x1E
  | .dropRelease _ => 0x1F
  | .chipStart _ => 0x20
  | .chipExchange _ _ => 0x21
  | .chipStop _ => 0x22
  | .releaseCard _ => 0x23
  | .setLevels _ _ => 0x24
  | .faultSetup _ _ => 0x25
  | .readFaults => 0x26
  | .clearFaults => 0x27
  | .loopStart _ _ => 0x28
  | .loopStop _ => 0x29
  | .readLoopResults _ => 0x2A

end Sys2Proof.Machine
end

