-- ==== Sys2Proof/Machine/Check.lean ====
section
/-! DEFINITION. The form every request takes (R165, step 4): a list of checks in the order of its rule, of which the first that fails
decides the refusal, and an effect that is taken only when all pass. -/

namespace Sys2Proof.Machine

/-- A check of a request: what it found, or the refusal code with the field code of the field refused (0: no field, log 21). -/
abbrev Check (α : Type) := Except (RefusalCode × Nat) α

/-- The items of an ACCEPTED reply: item i (from 0) is field code i + 1. -/
abbrev Items := List (Option (List Byte))

/-- One condition of a check order. -/
def need (c : Prop) [Decidable c] (code : RefusalCode) (field : Nat := 0) : Check Unit :=
  if c then .ok () else .error (code, field)

/-- One value of a check order: a value out of range, or an absent pointer, refuses. -/
def want {α : Type} (o : Option α) (code : RefusalCode) (field : Nat := 0) : Check α :=
  match o with
  | some a => .ok a
  | none => .error (code, field)

/-- A field that may be left out. -/
def wantOpt {α : Type} (read : Nat → Option α) (n : Option Nat) (code : RefusalCode) (field : Nat := 0) : Check (Option α) :=
  match n with
  | none => .ok none
  | some n => (want (read n) code field).map some

/-- A request: refused with the part as it was, or taken with its reply's items. -/
def judge {α : Type} (p : Part) (check : Check α) (run : α → Part × Items) : Part × Answer :=
  match check with
  | .error r => (p, .refused r.1 r.2)
  | .ok a => ((run a).1, .accepted (run a).2)

/-- Claims on a context are taken while its line is RUN, with or without a stop pending, and no loop test has been accepted there and
not yet ended (R84, R105, R119, R154). -/
def Part.takesClaims (p : Part) (c : CtxId) : Bool := (p.lineOf c).state == .run && (p.lineOf c).loop.state == .noTest

end Sys2Proof.Machine
end

