-- ==== Sys2Proof/Machine/LineRequests.lean ====
section
/-! DEFINITION. The requests to the lines and the Schedule Store: LINE SETUP (R7 to R9), LINE START (R15), LINE STOP (R16, R17),
LOAD SCHEDULE (R23, R24), LOOP START (R154), LOOP STOP (R159). -/

namespace Sys2Proof.Machine

/-! ### LINE SETUP -/

def Part.checkLineSetup (p : Part) (line rate slots : Nat) : Check (LineId × BitRate) := do
  let l ← want (readLine line) .badField 1
  let r ← want (readRate rate) .badField 2
  need (2 ≤ slots ∧ slots ≤ 16) .badField 3
  need ((p.line l).state = .idle) .wrongState
  pure (l, r)

/-- The values taken, with L and P computed from them; a change of S re-makes the active schedule as S EMPTY entries (R8, R9). -/
def Line.setup (x : Line) (rate : BitRate) (slots pmin : Nat) : Line :=
  { x with
    rate, slots, pmin
    frameLen := frameLength rate slots pmin
    period := framePeriod rate (frameLength rate slots pmin)
    active := if slots = x.slots then x.active else List.replicate slots none }

/-- N is recomputed for every keypad of the line with k ≥ 1; after a change of S none has (R9, R14). -/
def Part.recomputeLine (p : Part) (l : LineId) : Part :=
  p.forContexts fun c q =>
    if (q.ctx c).onLine l ∧ 0 < slotCount (q.line l).active c then q.recomputeScan c (slotCount (q.line l).active c) else q

/-- LINE SETUP (R7 to R9). The reply has an item for each of R, S, Pmin, L and P (log 62). -/
def serveLineSetup (line rate slots pmin : Nat) (p : Part) : Part × Answer :=
  judge p (p.checkLineSetup line rate slots) fun x =>
    let p' := (p.modLine x.1 fun y => y.setup x.2 slots (takePmin pmin)).recomputeLine x.1
    (p', [some (num 2 x.2.kbps), some (num 1 slots), some (num 2 (takePmin pmin)), some (num 2 (p'.line x.1).frameLen),
          some (num 2 (p'.line x.1).period)])

/-! ### LINE START -/

def Part.checkLineStart (p : Part) (lines : Nat) : Check (List LineId) := do
  let ls ← want (readLines lines) .badField 1
  need (ls.all fun l => (p.line l).state == .idle) .wrongState
  pure ls

/-- One line enters RUN at frame 0, with the slot calls of that frame, and its contexts with a slot go to WAITING (R3, R15). -/
def Part.startLine (p : Part) (l : LineId) : Part :=
  (p.modLine l fun x => { x with
      state := .run, frame := 0, stopPending := false, calls := p.slotCalls l, nextSlot := 0, inSlot := none }).forContexts
    fun c q =>
      if (q.ctx c).onLine l ∧ 0 < slotCount (q.line l).active c then q.modCtx c fun x => { x with attach := .waiting } else q

/-- LINE START (R15). No rule lists what its reply carries: it has no item (log 62). -/
def serveLineStart (lines : Nat) (p : Part) : Part × Answer :=
  judge p (p.checkLineStart lines) fun ls =>
    ((ls.foldl Part.startLine p).offerAll (ls.map fun l => lineNotice l .run .started), [])

/-! ### LINE STOP -/

/-- A line in RUN or TEST gets its stop pending; in IDLE, or with a stop pending, nothing changes (R16, R17). -/
def Line.requestStop (x : Line) : Line := if x.state = .idle then x else { x with stopPending := true }

/-- LINE STOP (R16, R17); its reply has no item (log 62). -/
def serveLineStop (lines : Nat) (p : Part) : Part × Answer :=
  judge p (want (readLines lines) .badField 1) fun ls => (ls.foldl (fun q l => q.modLine l Line.requestStop) p, [])

/-! ### LOAD SCHEDULE -/

/-- Every context a schedule names is profiled on line l (R23). -/
def Part.namesOwn (p : Part) (l : LineId) (s : Schedule) : Bool :=
  s.all fun e => match e with
    | none => true
    | some c => (p.ctx c).onLine l

def Part.checkLoadSchedule (p : Part) (line : Nat) (entries : List Nat) : Check (LineId × Schedule) := do
  let l ← want (readLine line) .badField 1
  need (entries.length = (p.line l).slots) .badLength 2
  let s ← want (readAll readEntry entries) .badField 2
  need (p.namesOwn l s) .badField 2
  pure (l, s)

/-- In IDLE the list becomes active at once (0: ACTIVE); otherwise it becomes the pending schedule (1: PENDING) (R24). -/
def serveLoadSchedule (line : Nat) (entries : List Nat) (p : Part) : Part × Answer :=
  judge p (p.checkLoadSchedule line entries) fun x =>
    if (p.line x.1).state = .idle then (p.activate x.1 x.2, [some (num 1 (lineCode x.1)), some (num 1 0)])
    else (p.modLine x.1 fun y => { y with waiting := some x.2 }, [some (num 1 (lineCode x.1)), some (num 1 1)])

/-! ### LOOP START -/

/-- A pattern given holds exactly 4 payloads of 0..65,535 (R154). -/
def readPattern : List Nat → Option (Vector Payload 4)
  | [a, b, c, d] =>
    if a ≤ 65535 ∧ b ≤ 65535 ∧ c ≤ 65535 ∧ d ≤ 65535
    then some #v[.ofNat 16 a, .ofNat 16 b, .ofNat 16 c, .ofNat 16 d] else none
  | _ => none

/-- Each context of a participant set lies in 0..15 and is profiled on a named line (R154). That a context named twice counts once, and that the set
stands in ascending number, is the model's DESIGN CHOICE (log 51). -/
def Part.readParticipants (p : Part) (ls : List LineId) (l : List Nat) : Option (List CtxId) :=
  match readAll readCtx l with
  | some cs => if cs.all (fun c => ls.any fun l => (p.ctx c).onLine l) then some (allCtx.filter cs.contains) else none
  | none => none

def Part.checkLoopStart (p : Part) (lines : Nat) (f : LoopFields) : Check (List LineId × LoopSetup) := do
  let ls ← want (readLines lines) .badField 1
  need (f.passLimit.getD 1 ≤ 4095) .badField 3
  let pattern ← match f.pattern with
    | none => .ok defaultSetup.pattern
    | some w => want (readPattern w) .badField 2
  let continuous ← want (readFlagOr f.continuous) .badField 4
  let stopOnError ← want (readFlagOr f.stopOnError) .badField 5
  let who ← match f.participants with
    | none => .ok none
    | some w => (want (p.readParticipants ls w) .badField 6).map some
  need (ls.all fun l => (p.line l).state == .run && (p.line l).loop.state == .noTest) .wrongState
  need (ls.all fun l => (p.contextsOn l).all fun c => (p.ctx c).holder.isNone) .busy
  need (p.queue.canReserve ls.length) .noResultRoom
  pure (ls, { pattern, passLimit := f.passLimit.getD 1, continuous, stopOnError, participants := who })

/-- A participant set is split between the lines by each context's line (R154). -/
def Part.setupFor (p : Part) (l : LineId) (s : LoopSetup) : LoopSetup :=
  { s with participants := s.participants.map fun cs => cs.filter fun c => (p.ctx c).onLine l }

/-- One line's test is ACCEPTED with its setup, the error flag clear (R154). -/
def Part.acceptTest (p : Part) (s : LoopSetup) (l : LineId) : Part :=
  p.modLoop l fun t =>
    { t with state := .accepted, setup := some (p.setupFor l s), errorFlag := false, entryFrame := none, records := [] }

/-- LOOP START (R154). That the reply gives the setup taken as items 2 to 6, one for each of its fields, is the model's DESIGN CHOICE (log 52). -/
def serveLoopStart (lines : Nat) (f : LoopFields) (p : Part) : Part × Answer :=
  judge p (p.checkLoopStart lines f) fun x =>
    (x.1.foldl (fun q l => q.acceptTest x.2 l) (p.reserveAll (x.1.map .loop)),
     [some (num 1 lines), some (x.2.pattern.toList.flatMap fun w => num 2 w.toNat), some (num 2 x.2.passLimit),
      some (flag x.2.continuous), some (flag x.2.stopOnError), x.2.participants.map fun cs => cs.flatMap ctxByte])

/-! ### LOOP STOP -/

/-- The line is in TEST with its test running or already asked to stop (R159). -/
def Line.inLoopTest (x : Line) : Bool := x.state == .test && (x.loop.state == .inTest || x.loop.state == .stopRequested)

def Part.checkLoopStop (p : Part) (lines : Nat) : Check (List LineId) := do
  let ls ← want (readLines lines) .badField 1
  need (ls.all fun l => (p.line l).inLoopTest) .wrongState
  pure ls

def serveLoopStop (lines : Nat) (p : Part) : Part × Answer :=
  judge p (p.checkLoopStop lines) fun ls =>
    (ls.foldl (fun q l => q.modLoop l fun t => { t with state := .stopRequested }) p, [some (num 1 lines)])

end Sys2Proof.Machine
end

