-- ==== Sys2Proof/Machine/Windows.lean ====
section
/-! DEFINITION. The requests to the Position Table: BIND POSITION (R60) and SET INDICATORS (R66 to R68), and the writing of an image, which
OPEN ENTRY's prompt shares (R70). -/

namespace Sys2Proof.Machine

/-! ### BIND POSITION -/

/-- A pointer may name a context that is not FREE, of the kind the pointer is for (R60, step 2). -/
def Part.mayPoint (p : Part) (ptr : PointerKind) : Option CtxId → Bool
  | none => true
  | some c =>
    match (p.ctx c).kind, ptr with
    | some .keypad, .keypad => true
    | some .readerStripe, .reader => true
    | some .readerHybrid, .reader => true
    | _, _ => false

/-- The position holds the context a pointer names (R60, step 3). -/
def Part.holdsThrough (p : Part) (i : PosId) : Option CtxId → Bool
  | none => false
  | some c => (p.ctx c).holder == some i

def Part.checkBind (p : Part) (pos : Nat) (reader keypad : Option Nat) :
    Check (PosId × Option (Option CtxId) × Option (Option CtxId)) := do
  let i ← want (readPos pos) .badField 1
  need (reader.isSome ∨ keypad.isSome) .badField
  let r ← wantOpt readPointer reader .badField 2
  let k ← wantOpt readPointer keypad .badField 3
  need (p.mayPoint .reader (r.getD none)) .badField 2
  need (p.mayPoint .keypad (k.getD none)) .badField 3
  need (¬ p.holdsThrough i (p.position i).reader ∧ ¬ p.holdsThrough i (p.position i).keypad) .busy
  pure (i, r, k)

/-- The pointers given take their new values; a field left out leaves its pointer (R60). By the model's choice the reply sends "both of its
pointers" as an item each: position 1, reader pointer 2, keypad pointer 3 (DESIGN CHOICE, log 55). -/
def serveBindPosition (pos : Nat) (reader keypad : Option Nat) (p : Part) : Part × Answer :=
  judge p (p.checkBind pos reader keypad) fun x =>
    let old := p.position x.1
    let new : Position := { reader := x.2.1.getD old.reader, keypad := x.2.2.getD old.keypad }
    (p.setPosition x.1 new, [some (num 1 (posNumber x.1)), some (pointerByte new.reader), some (pointerByte new.keypad)])

/-! ### Images -/

/-- A lamp state left out keeps the lamp (R67). -/
def writeLamp (old : Lamp) (given : Option Nat) : Lamp := (given.bind readLamp).getD old

/-- A text replaces the 16 display characters (R67). -/
def Image.writeText (img : Image) (t : List Byte) : Image :=
  match img with
  | .keypad _ lamps => .keypad (displayText t) lamps
  | other => other

/-- The keypad part of SET INDICATORS written to an image (R67). -/
def writeKeypadPart (k : KeypadPart) (img : Image) : Image :=
  match (match k.text with | some t => img.writeText t | none => img) with
  | .keypad chars lamps =>
    .keypad chars #v[writeLamp lamps[0] k.lamp1, writeLamp lamps[1] k.lamp2, writeLamp lamps[2] k.lamp3, writeLamp lamps[3] k.lamp4]
  | other => other

/-- The reader part of SET INDICATORS written to an image (R67). -/
def writeReaderPart (r : ReaderPart) : Image → Image
  | .reader bezel => .reader (writeLamp bezel r.bezel)
  | other => other

/-- A write that changes the image sets the refresh cursor to piece 0 (R67, R38). -/
def Context.writeImage (x : Context) (img : Image) : Context :=
  if img = x.image then x else { x with image := img, cursor := 0 }

/-- A prompt, if given, is written to the display (R70). -/
def Context.writePrompt (x : Context) : Option (List Byte) → Context
  | some t => x.writeImage (x.image.writeText t)
  | none => x

/-! ### SET INDICATORS -/

def lampGood : Option Nat → Bool
  | none => true
  | some n => (readLamp n).isSome

def keypadLampsGood (k : KeypadPart) : Bool :=
  lampGood k.lamp1 && lampGood k.lamp2 && lampGood k.lamp3 && lampGood k.lamp4

/-- A part of SET INDICATORS as the checks find it: its target, the new image, and the beep. -/
structure Target where
  ctx   : CtxId
  image : Image
  beep  : Option Nat

/-- Step 3 of R66: the target has no holder, or this position. -/
def Part.mayWrite (p : Part) (i : PosId) (t : Target) : Bool := (p.ctx t.ctx).holder.isNone || (p.ctx t.ctx).holder == some i

/-- Step 4 of R66: a beep at an ATTACHED target finds at most 5 places of its queue in use (R34). -/
def Part.beepFits (p : Part) (t : Target) : Bool :=
  t.beep.isNone || (p.ctx t.ctx).attach != .attached || (p.ctx t.ctx).controls.length < Config.beepPlaces

/-- The target of a part that is given; `none` for a part that is not. -/
def Part.target {α : Type} (p : Part) (part : Option α) (ptr : Option CtxId) (write : α → Image → Image) (beep : α → Option Nat) :
    Check (List Target) :=
  match part with
  | none => .ok []
  | some a => (want ptr .notBound).map fun c => [{ ctx := c, image := write a (p.ctx c).image, beep := beep a }]

def Part.checkIndicators (p : Part) (pos : Nat) (keypad : Option KeypadPart) (reader : Option ReaderPart) :
    Check (List Target) := do
  let i ← want (readPos pos) .badField 1
  need (keypad.isSome ∨ reader.isSome) .badField
  need (∀ k ∈ keypad, keypadLampsGood k) .badField 2
  need (∀ r ∈ reader, lampGood r.bezel) .badField 3
  let ks ← p.target keypad (p.position i).keypad writeKeypadPart (·.beep)
  let rs ← p.target reader (p.position i).reader writeReaderPart (·.beep)
  need ((ks ++ rs).all (p.mayWrite i)) .busy
  need ((ks ++ rs).all p.beepFits) .controlFull
  pure (ks ++ rs)

/-- A BEEP joins the queue of an ATTACHED context; in any other state it is dropped (R68). -/
def Context.takeBeep (x : Context) : Option Nat → Context
  | some n => if x.attach = .attached then { x with controls := x.controls ++ [.beep (Machine.takeBeep n)] } else x
  | none => x

def Part.indicate (p : Part) (t : Target) : Part := p.modCtx t.ctx fun x => (x.writeImage t.image).takeBeep t.beep

/-- Reply entry of a target part: context, whether the image changed, the beep taken and its outcome, 0 QUEUED or 1 NOT_ATTACHED (R68). -/
def Part.indicateEntry (p : Part) (t : Target) : List Byte :=
  ctxByte t.ctx ++ flag (t.image ≠ (p.ctx t.ctx).image) ++ present (t.beep.map fun n => num 1 (takeBeep n)) ++
  present (t.beep.map fun _ => num 1 (if (p.ctx t.ctx).attach = .attached then 0 else 1))

def serveSetIndicators (pos : Nat) (keypad : Option KeypadPart) (reader : Option ReaderPart) (p : Part) : Part × Answer :=
  judge p (p.checkIndicators pos keypad reader) fun ts =>
    (ts.foldl Part.indicate p, [some (ts.flatMap p.indicateEntry)])

end Sys2Proof.Machine
end

