-- ==== Sys2Proof/Machine/Operations.lean ====
section
/-! DEFINITION. The requests that start, feed and stop operations: OPEN ENTRY (R83 to R85), CANCEL ENTRY (R97), ARM READER (R105, R106),
DISARM READER (R107), CHIP START (R119, R120), CHIP EXCHANGE (R123), CHIP STOP (R126), RELEASE CARD (R127). -/

namespace Sys2Proof.Machine

/-! ### OPEN ENTRY -/

/-- The digit counts a kind of entry allows (R83). -/
def EntryKind.bounds (k : EntryKind) (n : Nat) : Bool :=
  match k with
  | .opened => n ≤ 32
  | .secure => 4 ≤ n && n ≤ 12

/-- The fields of OPEN ENTRY as R83 takes them. -/
structure EntryTaken where
  kind     : EntryKind
  min      : Nat
  max      : Nat
  terms    : TermSet
  firstMs  : Nat
  interMs  : Nat
  totalMs  : Nat
  echo     : Bool

/-- Step 1 of R84 for the fields after the position (R83). -/
def checkEntryFields (f : EntryFields) : Check EntryTaken := do
  let kind ← want (readEntryKind f.kind) .badField 2
  need (kind.bounds f.min) .badField 3
  need (kind.bounds f.max) .badField 4
  need (f.min ≤ f.max) .badField 4
  let terms ← match f.terms with
    | none => .ok { enter := true, f1 := false, f2 := false }
    | some l => want (readTerms l) .badField 5
  let echo ← want (readFlagOr f.echo) .badField 9
  pure { kind, min := f.min, max := f.max, terms, echo
         firstMs := takeTimeout f.firstKey, interMs := takeTimeout f.interKey, totalMs := takeTimeout f.total }

/-- The check order of R84. -/
def Part.checkOpenEntry (p : Part) (pos : Nat) (f : EntryFields) : Check (PosId × CtxId × EntryTaken) := do
  let i ← want (readPos pos) .badField 1
  let t ← checkEntryFields f
  let c ← want (p.position i).keypad .notBound
  need ((p.ctx c).attach = .attached) .notAttached
  need (p.takesClaims c) .wrongState
  need (p.ctx c).holder.isNone .busy
  need (p.queue.canReserve 1) .noResultRoom
  pure (i, c, t)

/-- The entry record at acceptance (R82, R85). A SECURE entry whose keypad reports MASKED already starts its arming count at 0 (R87). -/
def EntryTaken.record (t : EntryTaken) (i : PosId) (line : Line) (reported : ScanForm) : Entry where
  kind := t.kind
  owner := i
  min := t.min
  max := t.max
  terms := t.terms
  echo := t.echo
  state := match t.kind with
    | .opened => .collecting
    | .secure => .arming
  digits := []
  count := 0
  ignored := 0
  arming := if t.kind = .secure ∧ reported = .masked then some 0 else none
  firstMs := t.firstMs
  interMs := t.interMs
  firstKey := match t.kind with
    | .opened => line.startTimer t.firstMs
    | .secure => none
  interKey := none
  total := line.startTimer t.totalMs
  blockWait := none
  block := []
  endKey := none

/-- The form a keypad is wanted in during an entry (R30, R85). -/
def EntryKind.wantedForm : EntryKind → ScanForm
  | .opened => .opened
  | .secure => .masked

/-- The keypad context as an entry is accepted: holder, prompt, record, wanted form (R85). -/
def Context.openEntry (x : Context) (i : PosId) (t : EntryTaken) (line : Line) (prompt : Option (List Byte)) : Context :=
  { x.writePrompt prompt with
    holder := some i
    keypad := x.keypad.map fun k => { k with wanted := t.kind.wantedForm, entry := some (t.record i line k.reported) } }

/-- A timeout in the reply to OPEN ENTRY: the value taken in ms, and its frame count n, or 0 for a timeout of 0, which starts no timer (R13, R85).
A timer that will start later shows its n too (log 44). -/
def Line.timeoutEntry (x : Line) (ms : Nat) : List Byte := num 3 ms ++ num 3 ((x.startTimer ms).getD 0)

def termBytes (t : TermSet) : List Byte :=
  (if t.enter then num 1 keyEnter else []) ++ (if t.f1 then num 1 keyF1 else []) ++ (if t.f2 then num 1 keyF2 else [])

/-- OPEN ENTRY (R84, R85). The reply sends min and max as an item each (log 62), and the three timeouts as one (log 14). -/
def serveOpenEntry (pos : Nat) (f : EntryFields) (p : Part) : Part × Answer :=
  judge p (p.checkOpenEntry pos f) fun (i, c, t) =>
    let line := p.lineOf c
    ((p.reserve (.entry c)).modCtx c fun x => x.openEntry i t line f.prompt,
     [some (num 1 (posNumber i)), some (ctxByte c), some (num 1 t.kind.code), some (num 1 t.min), some (num 1 t.max),
      some (termBytes t.terms),
      some (line.timeoutEntry t.firstMs ++ line.timeoutEntry t.interMs ++ line.timeoutEntry t.totalMs)])

/-! ### CANCEL ENTRY -/

def Part.checkCancelEntry (p : Part) (pos : Nat) : Check (PosId × CtxId × Entry) := do
  let i ← want (readPos pos) .badField 1
  let c ← want (p.position i).keypad .notBound
  need ((p.ctx c).holder = some i) .wrongState
  let e ← want (p.ctx c).entry .wrongState
  pure (i, c, e)

def serveCancelEntry (pos : Nat) (p : Part) : Part × Answer :=
  judge p (p.checkCancelEntry pos) fun (i, c, e) =>
    (p.endEntry c (.plain .workstationCancelled), [some (num 1 (posNumber i)), some (ctxByte c), some (num 1 e.state.code)])

/-! ### ARM READER -/

def Part.checkArmReader (p : Part) (pos mask : Nat) : Check (PosId × CtxId × TrackSet) := do
  let i ← want (readPos pos) .badField 1
  let m ← want (readMask mask) .badField 2
  let c ← want (p.position i).reader .notBound
  need ((p.ctx c).attach = .attached) .notAttached
  need (p.takesClaims c) .wrongState
  need ((p.ctx c).holder.isNone ∧ (p.ctx c).session = .off) .busy
  need (p.queue.canReserve 1) .noResultRoom
  pure (i, c, m)

/-- The capture record at acceptance (R106). -/
def captureRecord (i : PosId) (m : TrackSet) (rules : Rules) (timer : Option Nat) : Capture :=
  { state := .armed, owner := i, mask := m, armTimer := timer, limitTimer := none, tracks := m.tracks.map (TrackRec.start rules) }

def Context.rules (x : Context) : Rules := (x.profile.bind (·.rules)).getD defaultRules

/-- The reader context as a capture is armed: holder, record, empty tally (R106). -/
def Context.arm (x : Context) (i : PosId) (m : TrackSet) (timer : Option Nat) : Context :=
  { x with
    holder := some i
    reader := x.reader.map fun r => ({ r with capture := some (captureRecord i m x.rules timer) } : Reader).clearTally }

/-- The reply gives the arm timeout and its frame count n as two items (R106, log 46). -/
def serveArmReader (pos mask : Nat) (timeout : Option Nat) (p : Part) : Part × Answer :=
  judge p (p.checkArmReader pos mask) fun (i, c, m) =>
    let line := p.lineOf c
    let ms := takeTimeout timeout
    ((p.reserve (.capture c)).modCtx c fun x => x.arm i m (line.startTimer ms),
     [some (num 1 (posNumber i)), some (ctxByte c), some (num 1 m.mask), some (num 3 ms),
      some (num 3 ((line.startTimer ms).getD 0))])

/-! ### DISARM READER -/

def Part.checkDisarmReader (p : Part) (pos : Nat) : Check (PosId × CtxId × Capture) := do
  let i ← want (readPos pos) .badField 1
  let c ← want (p.position i).reader .notBound
  let u ← want (p.ctx c).capture .wrongState
  need ((p.ctx c).holder = some i) .busy
  pure (i, c, u)

def serveDisarmReader (pos : Nat) (p : Part) : Part × Answer :=
  judge p (p.checkDisarmReader pos) fun (i, c, u) =>
    (p.endCapture c .workstationCancelled, [some (num 1 (posNumber i)), some (ctxByte c), some (num 1 u.state.code)])

/-! ### CHIP START -/

/-- Step 7 of R119: the card is INSERTED or LATCHED, and the reader reports its contact power off. -/
def Context.cardReady (x : Context) : Bool :=
  match x.reader, x.chip with
  | some r, some h => (r.card == .inserted || r.card == .latched) && h.reportedPower == .off
  | _, _ => false

def Part.checkChipStart (p : Part) (pos : Nat) : Check (PosId × CtxId) := do
  let i ← want (readPos pos) .badField 1
  let c ← want (p.position i).reader .notBound
  need ((p.ctx c).kind = some .readerHybrid) .badField 1
  need ((p.ctx c).attach = .attached) .notAttached
  need (p.takesClaims c) .wrongState
  need (p.ctx c).holder.isNone .busy
  need (p.ctx c).cardReady .wrongState
  need (p.queue.canReserve 2) .noResultRoom
  pure (i, c)

/-- The session record as a start is accepted (R120). -/
def Chip.start (h : Chip) (i : PosId) (timer : Option Nat) : Chip :=
  { h with
    session := .starting, owner := some i, wantedLatch := true, wantedPower := true, discardLate := false, powerSeen := false
    atr := [], atrWait := timer, exchanges := 0 }

def Context.startChip (x : Context) (i : PosId) (timer : Option Nat) : Context :=
  { x with holder := some i, chip := x.chip.map fun h => h.start i timer }

def serveChipStart (pos : Nat) (p : Part) : Part × Answer :=
  judge p (p.checkChipStart pos) fun (i, c) =>
    let timer := (p.lineOf c).startTimer Config.atrWaitMs
    ((p.reserveAll [.chipStart c, .chipEnd c]).modCtx c fun x => x.startChip i timer,
     [some (num 1 (posNumber i)), some (ctxByte c), some (num 3 (timer.getD 0))])

/-! ### CHIP EXCHANGE -/

def Part.checkChipExchange (p : Part) (pos : Nat) (command : List Byte) : Check (PosId × CtxId) := do
  let i ← want (readPos pos) .badField 1
  need (4 ≤ command.length ∧ command.length ≤ 261) .badLength 2
  let c ← want (p.position i).reader .notBound
  need ((p.ctx c).session = .ready) .wrongState
  need ((p.ctx c).holder = some i) .busy
  need (p.queue.canReserve 1) .noResultRoom
  pure (i, c)

/-- The session record as an exchange is accepted (R123). -/
def Chip.exchange (h : Chip) (command : List Byte) : Chip :=
  { h with session := .sending, command, unitsSent := 0, response := [], overrun := false, exchanges := satInc h.exchanges }

def Context.exchangeCount (x : Context) : Nat :=
  match x.chip with
  | some h => h.exchanges
  | none => 0

def serveChipExchange (pos : Nat) (command : List Byte) (p : Part) : Part × Answer :=
  judge p (p.checkChipExchange pos command) fun (i, c) =>
    ((p.reserve (.exchange c)).modCtx c fun x => x.modChip fun h => h.exchange command,
     [some (num 1 (posNumber i)), some (ctxByte c), some (num 2 (satInc (p.ctx c).exchangeCount)), some (num 2 command.length),
      some (num 1 (commandUnits command.length))])

/-! ### CHIP STOP -/

def Part.checkChipStop (p : Part) (pos : Nat) : Check (PosId × CtxId) := do
  let i ← want (readPos pos) .badField 1
  let c ← want (p.position i).reader .notBound
  need ((p.ctx c).session ≠ .off) .wrongState
  need ((p.ctx c).holder = some i) .busy
  pure (i, c)

def serveChipStop (pos : Nat) (p : Part) : Part × Answer :=
  judge p (p.checkChipStop pos) fun (i, c) =>
    (p.cutSession c .stopped .stopped .stopped,
     [some (num 1 (posNumber i)), some (ctxByte c), some (num 1 (p.ctx c).session.code)])

/-! ### RELEASE CARD -/

def Part.checkReleaseCard (p : Part) (pos : Nat) : Check (PosId × CtxId) := do
  let i ← want (readPos pos) .badField 1
  let c ← want (p.position i).reader .notBound
  need ((p.ctx c).kind = some .readerHybrid) .badField 1
  need ((p.ctx c).attach = .attached) .notAttached
  need ((p.ctx c).session = .off) .busy
  pure (i, c)

def Context.latchWanted (x : Context) : Bool :=
  match x.chip with
  | some h => h.wantedLatch
  | none => false

def serveReleaseCard (pos : Nat) (p : Part) : Part × Answer :=
  judge p (p.checkReleaseCard pos) fun (i, c) =>
    (p.modCtx c fun x => x.modChip fun h => { h with wantedLatch := false },
     [some (num 1 (posNumber i)), some (ctxByte c), some (flag (p.ctx c).latchWanted)])

end Sys2Proof.Machine
end

