-- ==== Sys2Proof/Machine/Profile.lean ====
section
/-! DEFINITION. The requests that profile and release a context: DROP PROFILE (R40 to R43, R61, R69, R28) and DROP RELEASE (R44). -/

namespace Sys2Proof.Machine

/-! ### Working state of a kind at profiling (R42, R72, R104, R118) -/

def Keypad.fresh : Keypad := { reported := .opened, keys := ScanForm.opened.allUp, n := 1, wanted := .opened, entry := none }

def Reader.fresh : Reader := { card := .unknown, capture := none, seen := .none, discarded := 0 }

def DropKind.isReader : DropKind → Bool
  | .keypad => false
  | .readerStripe => true
  | .readerHybrid => true

/-- A context takes the reset working state and the blank image of its kind, with no reported features (R42, R69). -/
def Context.asKind (x : Context) (k : DropKind) : Context :=
  { x with
    features := none
    lateBlock := false
    keypad := if k = .keypad then some .fresh else none
    reader := if k.isReader then some .fresh else none
    chip := if k = .readerHybrid then some .fresh else none
    image := blankImage k }

/-! ### The fields of DROP PROFILE -/

/-- Capture rules given, track by track (R40, step 2); of two for one track the later counts (log 20). -/
def readRuleList : List RuleField → Option (List (Nat × TrackRule))
  | [] => some []
  | f :: fs =>
    match readRule f, readRuleList fs with
    | some r, some rs => some ((f.track, r) :: rs)
    | _, _ => none

/-- Behaviour fields of a kind with the values given, the present ones of the same kind, or the defaults (R41, R42). -/
def newProfile (line : LineId) (address : Nat) (kind : DropKind) (old : Option Profile) (f : ProfileFields)
    (rules : List (Nat × TrackRule)) : Profile :=
  let keep := old.filter fun o => o.kind == kind
  { line, address, kind
    q := match f.q with
      | some n => takeQ n
      | none => (keep.map (·.q)).getD 8
    d := if kind = .keypad then
        some (match f.d with
          | some n => takeD n
          | none => (keep.bind (·.d)).getD 20)
      else none
    rules := if kind.isReader then
        some (rules.foldl (fun r x => r.put x.1 x.2) ((keep.bind (·.rules)).getD defaultRules))
      else none
    chipTimeout := if kind = .readerHybrid then
        some (match f.chipTimeout with
          | some n => takeChipTimeout n
          | none => (keep.bind (·.chipTimeout)).getD 5000)
      else none }

def Profile.sameIdentity (a : Profile) (line : LineId) (address : Nat) (kind : DropKind) : Bool :=
  a.line == line && a.address == address && a.kind == kind

/-- The request keeps the identity the context already holds (R40, step 5). -/
def Context.keepsIdentity (x : Context) (line : LineId) (address : Nat) (kind : DropKind) : Bool :=
  match x.profile with
  | some pr => pr.sameIdentity line address kind
  | none => false

/-- Another profiled context has this line and drop address (R40, step 6). -/
def Part.addressTaken (p : Part) (c : CtxId) (line : LineId) (address : Nat) : Bool :=
  allCtx.any fun o => o != c &&
    match (p.ctx o).profile with
    | some pr => pr.line == line && pr.address == address
    | none => false

/-- The check order of R40; what it finds is the context and its profile after the request. A capture-rules field with no rule in it counts as
given: it changes no rule of a reader, and is refused at a keypad (log 40). -/
def Part.checkDropProfile (p : Part) (ctx : Nat) (f : ProfileFields) : Check (CtxId × Profile) := do
  let c ← want (readCtx ctx) .badField 1
  let givenLine ← wantOpt readLine f.line .badField 2
  need (∀ a ∈ f.address, 1 ≤ a ∧ a ≤ 15) .badField 3
  let givenKind ← wantOpt readKind f.kind .badField 4
  let rules ← want (readRuleList (f.rules.getD [])) .badField 7
  let old := (p.ctx c).profile
  let line ← want (givenLine <|> old.map (·.line)) .badField 2
  let address ← want (f.address <|> old.map (·.address)) .badField 3
  let kind ← want (givenKind <|> old.map (·.kind)) .badField 4
  need (f.d.isNone ∨ kind = .keypad) .badField 6
  need (f.rules.isNone ∨ kind.isReader) .badField 7
  need (f.chipTimeout.isNone ∨ kind = .readerHybrid) .badField 8
  need ((p.ctx c).attach = .free ∨ (p.ctx c).attach = .parked ∨ (p.ctx c).keepsIdentity line address kind) .wrongState
  need (¬ p.addressTaken c line address) .badField 3
  pure (c, newProfile line address kind old f rules)

/-! ### Effects -/

/-- The entries of a schedule that name c become EMPTY (R28). -/
def withoutContext (c : CtxId) (s : Schedule) : Schedule := s.map fun e => if e = some c then none else e

/-- R28, for the active and the pending schedule of a line. -/
def Part.purge (p : Part) (l : LineId) (c : CtxId) : Part :=
  p.modLine l fun x => { x with active := withoutContext c x.active, waiting := x.waiting.map (withoutContext c) }

def Position.pointer (x : Position) : PointerKind → Option CtxId
  | .reader => x.reader
  | .keypad => x.keypad

def Position.clear (x : Position) : PointerKind → Position
  | .reader => { x with reader := none }
  | .keypad => { x with keypad := none }

/-- One pointer of one position, cleared with its POSITION notice if it names c (R61). -/
def Part.clearPointer (p : Part) (c : CtxId) (why : ClearCause) (ptr : PointerKind) (i : PosId) : Part :=
  if (p.position i).pointer ptr = some c
  then (p.setPosition i ((p.position i).clear ptr)).offer (.of (.position ptr c why ((p.position i).clear ptr)) (some i))
  else p

/-- Pointers of the given kinds that name c, in order of position number (R61). -/
def Part.clearPointers (p : Part) (c : CtxId) (why : ClearCause) (ptrs : List PointerKind) : Part :=
  allPos.foldl (fun q i => ptrs.foldl (fun q ptr => q.clearPointer c why ptr i) q) p

/-- The pointer kind that may not name a context of this kind. -/
def DropKind.wrongPointer : DropKind → PointerKind
  | .keypad => .reader
  | .readerStripe => .keypad
  | .readerHybrid => .keypad

/-- The miss count under a new Q (R43). -/
def missUnder (attach : Attach) (miss q : Nat) : Nat :=
  match attach with
  | .attached => if q ≤ miss then q - 1 else miss
  | .lost => q
  | _ => min miss q

/-- The context under its new profile: first profiled it goes from FREE to PARKED, at a kind change all but its attachment state and miss count
starts anew, and otherwise only its profile and the miss count follow the request (R42, R43). -/
def Context.profiled (x : Context) (pr : Profile) : Context :=
  match x.profile with
  | none => { Context.free.asKind pr.kind with attach := .parked, profile := some pr }
  | some old =>
    let miss := missUnder x.attach x.miss pr.q
    if old.kind = pr.kind then { x with profile := some pr, miss }
    else { Context.free.asKind pr.kind with attach := x.attach, profile := some pr, miss }

/-- An accepted DROP PROFILE (R42, R43): the schedules of a line it leaves (R28), the context, the pointers of the wrong kind (R61), and N
of a keypad, with k taken as 1 while it is 0 (R14). -/
def Part.profile (p : Part) (c : CtxId) (pr : Profile) : Part :=
  let p1 := match (p.ctx c).profile with
    | some old => if old.line = pr.line then p else p.purge old.line c
    | none => p
  let p2 := p1.modCtx c (·.profiled pr)
  let p3 := match (p.ctx c).profile with
    | some old => if old.kind = pr.kind then p2 else p2.clearPointers c .kindChanged [pr.kind.wrongPointer]
    | none => p2
  p3.recomputeScan c (max 1 (p3.slotsOf c))

/-- The reply to DROP PROFILE (R41): context, identity, attachment state, the behaviour fields of its kind, N of a keypad. That the identity and the
behaviour values are an item for each field is the model's DESIGN CHOICE (log 49). -/
def Part.profileReply (p : Part) (c : CtxId) (pr : Profile) : Items :=
  [some (ctxByte c), some (num 1 (lineCode pr.line)), some (num 1 pr.address), some (num 1 pr.kind.code),
   some (num 1 (p.ctx c).attach.code), some (num 1 pr.q), pr.d.map (num 1 ·), pr.rules.map Rules.entries,
   pr.chipTimeout.map (num 2 ·), (p.ctx c).keypad.map fun k => num 1 k.n]

def serveDropProfile (ctx : Nat) (f : ProfileFields) (p : Part) : Part × Answer :=
  judge p (p.checkDropProfile ctx f) fun x =>
    let p' := p.profile x.1 x.2
    (p', p'.profileReply x.1 x.2)

/-! ### DROP RELEASE (R44) -/

def Part.checkDropRelease (p : Part) (ctx : Nat) : Check CtxId := do
  let c ← want (readCtx ctx) .badField 1
  need ((p.ctx c).attach = .free ∨ (p.ctx c).attach = .parked) .wrongState
  pure c

/-- A PARKED context becomes FREE: schedule entries, pointers with their notices, and everything the context held (R44). -/
def Part.releaseCtx (p : Part) (c : CtxId) : Part :=
  match (p.ctx c).profile with
  | some pr => ((p.purge pr.line c).setCtx c .free).clearPointers c .released [.reader, .keypad]
  | none => p

/-- DROP RELEASE (R44); its reply has no item (log 62). -/
def serveDropRelease (ctx : Nat) (p : Part) : Part × Answer :=
  judge p (p.checkDropRelease ctx) fun c => (p.releaseCtx c, [])

end Sys2Proof.Machine
end

