-- ==== Sys2Proof/Machine/Reports.lean ====
section
/-! DEFINITION. The requests that only report, and the requests to the Fault Record and the level table: STATUS (R167), READ SCHEDULE (R29),
READ FAULTS and CLEAR FAULTS (R152), FAULT SETUP (R151), READ LOOP RESULTS (R153), SET LEVELS (R137). -/

namespace Sys2Proof.Machine

/-! ### STATUS (R167) -/

def Line.statusEntry (x : Line) : List Byte := num 1 x.state.code ++ num 4 x.frame.toNat ++ num 2 x.frameLen ++ num 2 x.period

def Context.statusEntry (x : Context) : List Byte :=
  num 1 x.attach.code ++ holderByte x.holder ++ present (x.reader.map fun r => num 1 r.card.code) ++
  present (x.chip.map fun h => num 1 h.session.code) ++ present (x.keypad.map fun k => num 1 k.n)

def Position.entry (x : Position) : List Byte := pointerByte x.reader ++ pointerByte x.keypad

/-- The reply to STATUS: the lines, the contexts, the positions, the Event Queue, the link error counts (R167). -/
def Part.status (p : Part) : Items :=
  [some (p.lineA.statusEntry ++ p.lineB.statusEntry),
   some (allCtx.flatMap fun c => (p.ctx c).statusEntry),
   some (allPos.flatMap fun i => (p.position i).entry),
   some (num 1 p.queue.records.length ++ num 1 p.queue.reservations.length ++ p.queue.discards.toList.flatMap (num 2 ·)),
   some (p.link.errors.toList.flatMap (num 2 ·))]

def serveStatus (p : Part) : Part × Answer := (p, .accepted p.status)

/-! ### READ SCHEDULE (R29) -/

def scheduleBytes (s : Schedule) : List Byte := s.flatMap pointerByte

/-- The slot count of each context named in a schedule: context number, then k, in ascending number (R29; the layout: log 39). -/
def slotCountEntries (s : Schedule) : List Byte :=
  (allCtx.filter fun c => 0 < slotCount s c).flatMap fun c => ctxByte c ++ num 1 (slotCount s c)

def serveReadSchedule (line : Nat) (p : Part) : Part × Answer :=
  judge p (want (readLine line) .badField 1) fun l =>
    let x := p.line l
    (p, [some (num 1 x.slots), some (scheduleBytes x.active), some (slotCountEntries x.active), some (flag x.waiting.isSome),
         x.waiting.map scheduleBytes])

/-! ### The Fault Record's requests -/

def allClasses : List FaultClass :=
  [.unitDamaged, .dropLost, .dropKind, .dropRestart, .streamProtocol, .keypadUnmasked, .lineDrive, .loopMiscompare, .linkFrame,
   .eventDiscard]

def FaultRecord.laterBytes (f : FaultRecord) : List Byte := (allClasses.filter f.laterHas).flatMap fun c => num 1 c.index.val

/-- The settings of the ten classes: detect and report of each, in the order of R147, without a class number (DESIGN CHOICE, log 60). -/
def FaultRecord.settingEntries (f : FaultRecord) : List Byte := f.classes.toList.flatMap fun r => flag r.detect ++ flag r.report

/-- READ FAULTS changes nothing (R152). By the model's choice the counts are one item, ten numbers in the order of R147, and the settings one item
(log 60). -/
def serveReadFaults (p : Part) : Part × Answer :=
  let f := p.faults
  (p, .accepted
    [f.first.map Detection.entry, some f.laterBytes, some (f.log.flatMap LogEntry.entry),
     some (f.classes.toList.flatMap fun r => num 2 r.count), some f.settingEntries, some (num 1 f.style.code)])

/-- What CLEAR FAULTS empties; settings and log style stay (R152). -/
def FaultRecord.cleared (f : FaultRecord) : FaultRecord :=
  { f with classes := f.classes.map fun r => { r with count := 0, later := false }, first := none, log := [] }

def serveClearFaults (p : Part) : Part × Answer :=
  (p.setFaults p.faults.cleared, .accepted [p.faults.first.map Detection.entry, some p.faults.laterBytes])

/-- A class setting as taken: the class, with its new detect and report settings where given. -/
structure SettingTaken where
  cls    : FaultClass
  detect : Option Bool
  report : Option Bool

/-- A class setting names one of the ten classes, gives a detect value, a report value or both, each on or off, and does not turn the
detection of LINE_DRIVE off (R151). On and off travel as a flag (log 48). -/
def readSetting (c : ClassSetting) : Check SettingTaken := do
  let cls ← want (readFaultClass c.cls) .badField 1
  need (c.detect.isSome ∨ c.report.isSome) .badField 1
  let detect ← wantOpt readFlag c.detect .badField 1
  let report ← wantOpt readFlag c.report .badField 1
  need (¬ (cls = .lineDrive ∧ detect = some false)) .badField 1
  pure { cls, detect, report }

def readSettingList : List ClassSetting → Check (List SettingTaken)
  | [] => .ok []
  | c :: cs => do
    let x ← readSetting c
    let xs ← readSettingList cs
    pure (x :: xs)

def ClassRow.set (r : ClassRow) (x : SettingTaken) : ClassRow :=
  { r with detect := x.detect.getD r.detect, report := x.report.getD r.report }

def FaultRecord.apply (f : FaultRecord) (x : SettingTaken) : FaultRecord :=
  { f with classes := f.classes.set x.cls.index.val ((f.classes.get x.cls.index).set x) x.cls.index.isLt }

def checkFaultSetup (settings : Option (List ClassSetting)) (style : Option Nat) :
    Check (List SettingTaken × Option LogStyle) := do
  need ((settings.getD []) ≠ [] ∨ style.isSome) .badField
  let xs ← readSettingList (settings.getD [])
  let s ← wantOpt readLogStyle style .badField 2
  pure (xs, s)

/-- FAULT SETUP applies every item it carries in one event (R151). -/
def serveFaultSetup (settings : Option (List ClassSetting)) (style : Option Nat) (p : Part) : Part × Answer :=
  judge p (checkFaultSetup settings style) fun x =>
    let f := x.1.foldl FaultRecord.apply p.faults
    let f' := { f with style := x.2.getD f.style }
    (p.setFaults f', [some f'.settingEntries, some (num 1 f'.style.code)])

/-! ### READ LOOP RESULTS (R153) -/

/-- For each named line, A before B, the last results or none. By the model's choice the reply is one item made of an entry for each named line,
which is a presence byte and the results, without the line's number (DESIGN CHOICE, log 58). -/
def serveReadLoopResults (lines : Nat) (p : Part) : Part × Answer :=
  judge p (want (readLines lines) .badField 1) fun ls =>
    (p, [some (ls.flatMap fun l => present ((p.line l).loop.lastResults.map LoopBody.entry))])

/-! ### SET LEVELS (R137) -/

/-- The level taken: POWER_UP keeps 5, and a result kind given 0 takes 1. -/
def levelTaken (k : RecordKind) (level : Nat) : Nat :=
  if k = .powerUp then 5 else if k.isResult ∧ level = 0 then 1 else level

def checkSetLevels (kind level : Nat) : Check RecordKind := do
  let k ← want (readRecordKind kind) .badField 1
  need (level ≤ 5) .badField 2
  pure k

def EventQueue.setLevel (q : EventQueue) (k : RecordKind) (level : Nat) : EventQueue :=
  { q with levels := q.levels.set k.index.val level k.index.isLt }

def serveSetLevels (kind level : Nat) (p : Part) : Part × Answer :=
  judge p (checkSetLevels kind level) fun k =>
    (p.setQueue (p.queue.setLevel k (levelTaken k level)), [some (num 1 k.index.val), some (num 1 (levelTaken k level))])

end Sys2Proof.Machine
end

