-- ==== Sys2Proof/Machine/Requests.lean ====
section
/-! DEFINITION. A request taken (R165, step 4): it passes to the block that owns it. -/

namespace Sys2Proof.Machine

/-- RESTART is accepted in every state; RTS is negated and the pending request discarded (R168). -/
def serveRestart (p : Part) : Part × Answer :=
  (p.setLink { p.link with restarting := true, held := none }, .accepted [])

/-- The request as its rule lays it down. -/
def serve (r : Request) (p : Part) : Part × Answer :=
  match r with
  | .status => serveStatus p
  | .restart => serveRestart p
  | .lineSetup line rate slots pmin => serveLineSetup line rate slots pmin p
  | .lineStart lines => serveLineStart lines p
  | .lineStop lines => serveLineStop lines p
  | .loadSchedule line entries => serveLoadSchedule line entries p
  | .readSchedule line => serveReadSchedule line p
  | .bindPosition pos reader keypad => serveBindPosition pos reader keypad p
  | .setIndicators pos keypad reader => serveSetIndicators pos keypad reader p
  | .openEntry pos fields => serveOpenEntry pos fields p
  | .cancelEntry pos => serveCancelEntry pos p
  | .armReader pos mask timeout => serveArmReader pos mask timeout p
  | .disarmReader pos => serveDisarmReader pos p
  | .dropProfile ctx fields => serveDropProfile ctx fields p
  | .dropRelease ctx => serveDropRelease ctx p
  | .chipStart pos => serveChipStart pos p
  | .chipExchange pos command => serveChipExchange pos command p
  | .chipStop pos => serveChipStop pos p
  | .releaseCard pos => serveReleaseCard pos p
  | .setLevels kind level => serveSetLevels kind level p
  | .faultSetup settings style => serveFaultSetup settings style p
  | .readFaults => serveReadFaults p
  | .clearFaults => serveClearFaults p
  | .loopStart lines fields => serveLoopStart lines fields p
  | .loopStop lines => serveLoopStop lines p
  | .readLoopResults lines => serveReadLoopResults lines p

end Sys2Proof.Machine
end

