-- ==== Sys2Proof/Machine/Link.lean ====
section
/-! DEFINITION. The Link Interface (chapter 11): requests in hand and pending, the byte receiver, link errors, the transmit arbiter, the
resets and the start-up wait. -/

namespace Sys2Proof.Machine

/-! ### RTS -/

/-- The level of RTS (R162, R165, R168): negated in a reset, in the start-up wait and after a RESTART was accepted; otherwise asserted, but
with flow control on only while a further request can be held. -/
def Link.rtsLevel (k : Link) : Bool :=
  k.phase == .running && !k.restarting && !(k.straps.flow && k.inHand && k.held.isSome)

def Link.refreshRts (k : Link) : Link := { k with rts := k.rtsLevel }

def Part.modLink (p : Part) (f : Link → Link) : Part := p.setLink (f p.link)

/-! ### Link errors -/

/-- A link error is counted whatever the detect setting, and LINK_FRAME is detected with the error as detail (R164). -/
def Link.countError (k : Link) (e : LinkError) : Link :=
  { k with errors := k.errors.set e.index.val (satInc (k.errors.get e.index)) e.index.isLt }

def linkDetection (e : LinkError) : Detection :=
  { cls := .linkFrame, line := none, ctx := none, stamp := none, detail := some (.link e) }

def Part.linkError (p : Part) (e : LinkError) : Part :=
  ((Ev.of (p.modLink fun k => k.countError e)).detect (linkDetection e)).finish

/-! ### Requests -/

/-- What taking a message makes of the part, and the answer: steps 1 to 3 of R165 refuse, step 4 serves. -/
def Part.judgeMessage (p : Part) (m : Message) : Part × Answer :=
  match m.read with
  | .bad code field => (p, .refused code field)
  | .good r => serve r p

/-- A request is taken: its reply is made in the same event, and it is in hand until the reply has been sent (R165). -/
def Part.take (p : Part) (m : Message) : Part :=
  let x := p.judgeMessage m
  x.1.modLink fun k =>
    ({ k with inHand := true, reply := some { tag := m.tag, kind := m.kind, answer := x.2 } } : Link).refreshRts

/-- The link takes messages: the start-up wait is over, and no RESTART has been accepted (R162, R168). -/
def Link.listening (k : Link) : Bool := k.phase == .running && !k.restarting

/-- A good message arrives (R165): it is taken, becomes the pending request, or is an OVERFLOW. -/
def Part.receive (p : Part) (m : Message) : Part :=
  if !p.link.listening then p
  else if !p.link.inHand then p.take m
  else if p.link.held.isNone then p.modLink fun k => ({ k with held := some m } : Link).refreshRts
  else p.linkError .overflow

/-- The message of a request row: a good message with that request's kind and the tag given (log 2). -/
def requestMessage (r : Request) (tag : Byte) : Message := { kind := requestKind r, tag, read := .good r }

/-! ### The byte receiver (R164) -/

/-- A message with its start byte, two length bytes, body and CRC is whole (R163). -/
def messageWhole (rx : List Byte) : Bool :=
  match rx with
  | _ :: l1 :: l2 :: rest => rest.length == readNum [l1, l2] + 2
  | _ => false

/-- The length field has just been taken and lies outside 2..1,200 (R164). -/
def lengthBad (rx : List Byte) : Bool :=
  match rx with
  | [_, l1, l2] => !(2 ≤ readNum [l1, l2] && readNum [l1, l2] ≤ 1200)
  | _ => false

/-- The body and the CRC bytes of a whole message. -/
def splitMessage (rx : List Byte) : List Byte × List Byte :=
  let covered := rx.drop 1
  (covered.take (covered.length - 2), covered.drop (covered.length - 2))

/-- The CRC of a whole message is good (R163). -/
def crcGood (rx : List Byte) : Bool := num 2 (crc16 (splitMessage rx).1).toNat == (splitMessage rx).2

/-- One byte on RXD (R162, R164, R168). -/
def Part.takeByte (p : Part) (b : Byte) : Part :=
  if !p.link.listening then p
  else if p.link.rx = [] then if b = 0xC5 then p.modLink fun k => { k with rx := [b] } else p
  else
    let rx := p.link.rx ++ [b]
    if lengthBad rx then (p.modLink fun k => { k with rx := [] }).linkError .length
    else if messageWhole rx then
      let p1 := p.modLink fun k => { k with rx := [] }
      if crcGood rx then p1.receive (readMessage ((splitMessage rx).1.drop 2)) else p1.linkError .check
    else p.modLink fun k => { k with rx }

/-- A gap inside a message: the bytes taken are dropped, and the next byte is the first of a hunt (R164). -/
def Part.gapTimeout (p : Part) : Part :=
  if p.link.listening ∧ p.link.rx ≠ [] then (p.modLink fun k => { k with rx := [] }).linkError .gap else p

/-! ### Resets (R161, R162, R168) -/

/-- A line after a reset: the values of R1, R22 and R153 with the strap rate; the driver fault input stays as the monitor senses. -/
def Line.afterReset (x : Line) (rate : BitRate) : Line :=
  { Line.afterPowerUp with rate, period := framePeriod rate 272, driverTripped := x.driverTripped }

/-- The Link Interface after a reset: nothing received, in hand, pending or being sent, the counts 0, the straps read; CTS is a pin the
part does not drive. -/
def Link.afterReset (k : Link) (phase : Phase) (kind : ResetKind) (pins : StrapPins) : Link :=
  { Link.afterPowerUp with phase, resetKind := kind, straps := strapSettings pins, cts := k.cts }

/-- Every block takes its reset values; the Fault Record is given (R1, R39, R59, R135, R146, R153). -/
def Part.reset (p : Part) (phase : Phase) (kind : ResetKind) (pins : StrapPins) (faults : FaultRecord) : Part where
  lineA := p.lineA.afterReset (strapSettings pins).lineRate
  lineB := p.lineB.afterReset (strapSettings pins).lineRate
  ctxs := Vector.replicate 16 .free
  positions := Vector.replicate 8 { reader := none, keypad := none }
  queue := .fresh
  faults := faults
  link := p.link.afterReset phase kind pins

/-- Where a power-up reset leaves the link: while RESET# is low the part stays in reset, whatever the supply does, and otherwise the
start-up wait begins (R162). -/
def Link.afterPower (k : Link) : ResetCause → Phase
  | .supply => if k.phase = .held then .held else .startup
  | .pin => .held

/-- POWER_UP_RESET: the supply comes up, or RESET# is asserted (R161, R162). -/
def Part.powerUp (p : Part) (cause : ResetCause) (pins : StrapPins) : Part := p.reset (p.link.afterPower cause) .power pins .fresh

/-- RESET_RELEASE: the straps are read again, and the start-up wait begins (R161, R162). -/
def Part.resetRelease (p : Part) (pins : StrapPins) : Part :=
  if p.link.phase = .held then p.reset .startup .power pins p.faults else p

/-- A RESTART takes effect: the Fault Record is kept whole (R168). -/
def Part.restart (p : Part) (pins : StrapPins) : Part := p.reset .startup .restart pins p.faults

/-- RESTART_TIMEOUT: 100 ms after acceptance the RESTART takes effect, cutting the reply where it stands (R168). -/
def Part.restartTimeout (p : Part) (pins : StrapPins) : Part := if p.link.restarting then p.restart pins else p

/-- STARTUP_WAIT_END (R162): the receiver hunts, RTS is set, and POWER_UP is offered. -/
def Part.startupEnd (p : Part) : Part :=
  if p.link.phase = .startup then
    (p.modLink fun k => ({ k with phase := .running, rx := [] } : Link).refreshRts).offer
      (.of (.powerUp p.link.resetKind Config.revision p.faults.first.isSome p.link.straps))
  else p

/-! ### The transmit arbiter (R143, R144, R166) -/

/-- The transmitter may start a message: it is free, the part runs, and CTS allows it. -/
def Link.mayStart (k : Link) : Bool := k.phase == .running && k.tx.isNone && (!k.straps.flow || k.cts)

/-- The highest level among the queued records. -/
def highestLevel (rs : List Rec) : Nat := rs.foldl (fun m r => max m r.level) 0

/-- The record to send: the one admitted first among those of the highest level (R143). -/
def EventQueue.next (q : EventQueue) : Option Rec := q.records.find? fun r => r.level == highestLevel q.records

/-- The record leaves the queue, its place is free at once, and the send number goes up, wrapping (R144). -/
def EventQueue.drained (q : EventQueue) : EventQueue :=
  { q with records := q.records.eraseP (fun r => r.level == highestLevel q.records), sendNumber := q.sendNumber + 1 }

/-- The first byte of a message starts with it. -/
def Link.send (k : Link) (what : Sending) : Link := { k with tx := some { what, bytes := what.bytes, started := 1 } }

/-- MESSAGE_SEND_START (R143, R144): a waiting reply first, then the oldest record of the highest level; none after a RESTART was accepted
(R168). -/
def Part.sendStart (p : Part) : Part :=
  if !p.link.mayStart then p
  else match p.link.reply with
  | some r => p.modLink fun k => ({ k with reply := none } : Link).send (.reply r)
  | none =>
    if p.link.restarting then p
    else match p.queue.next with
    | some r => (p.modLink fun k => k.send (.record r p.queue.sendNumber)).setQueue p.queue.drained
    | none => p

/-- The last byte of a reply is sent: no request is in hand, and the pending one, if any, is taken in the same event (R165). -/
def Part.takeHeld (p : Part) : Part :=
  match p.link.held with
  | some m => (p.modLink fun k => { k with held := none }).take m
  | none => p.modLink Link.refreshRts

/-- A byte of the message has still to start, and CTS holds it (R166). -/
def Link.holds (k : Link) (t : Tx) : Bool := k.straps.flow && !k.cts && t.started < t.bytes.length

/-- MESSAGE_SENT (R165, R166, R168). -/
def Part.messageSent (p : Part) (pins : StrapPins) : Part :=
  match p.link.tx with
  | none => p
  | some t =>
    if p.link.holds t then p
    else match t.what with
    | .record _ _ => p.modLink fun k => { k with tx := none }
    | .reply _ =>
      if p.link.restarting then p.restart pins
      else (p.modLink fun k => { k with tx := none, inHand := false }).takeHeld

/-- `n` bytes of the message have been started by now: no byte that was started before becomes unstarted, and there are no more than the
message has. -/
def Tx.startedBy (t : Tx) (n : Nat) : Tx := { t with started := max t.started (min n t.bytes.length) }

/-- CTS_CHANGE (R166): the pin takes a level. A negation with flow control on holds the bytes of the message in transmission that have not
been started; with flow control off CTS is ignored. -/
def Link.changeCts (k : Link) : CtsLevel → Link
  | .asserted => { k with cts := true }
  | .negated n => { k with cts := false, tx := if k.straps.flow && k.cts then k.tx.map fun t => t.startedBy n else k.tx }

end Sys2Proof.Machine
end

