-- ==== Sys2Proof/Machine/EventCommands.lean ====
section
/-! DEFINITION. The meaning of every command that is an event of the link, of a reset or of a line. -/

namespace Sys2Proof.Machine

/-- Bytes arrive on RXD: a message, several, or part of one (R163, R164, log 35). -/
def execLinkMessageReceived (bytes : List Byte) (s : State) : Host.Outcome State Fault Refusal :=
  effect (fun p => bytes.foldl Part.takeByte p) s

/-- More than 20 ms without a byte inside a message (R164). -/
def execLinkGapTimeout (s : State) : Host.Outcome State Fault Refusal :=
  effect Part.gapTimeout s

/-- The transmit arbiter chooses (R143, R144, R166). -/
def execMessageSendStart (s : State) : Host.Outcome State Fault Refusal :=
  effect Part.sendStart s

/-- The last byte of the message in transmission is sent (R165, R168); `pins`: what the straps read, for a RESTART. -/
def execMessageSent (pins : StrapPins) (s : State) : Host.Outcome State Fault Refusal :=
  effect (fun p => p.messageSent pins) s

/-- 100 ms after a RESTART was accepted (R168). -/
def execRestartTimeout (pins : StrapPins) (s : State) : Host.Outcome State Fault Refusal :=
  effect (fun p => p.restartTimeout pins) s

/-- CTS takes a level (R166). -/
def execCtsChange (level : CtsLevel) (s : State) : Host.Outcome State Fault Refusal :=
  effect (fun p => p.modLink fun k => k.changeCts level) s

/-- A power-up reset, by the supply or by RESET# (R161, R162). -/
def execPowerUpReset (cause : ResetCause) (pins : StrapPins) (s : State) : Host.Outcome State Fault Refusal :=
  effect (fun p => p.powerUp cause pins) s

/-- RESET# is released (R161, R162). -/
def execResetRelease (pins : StrapPins) (s : State) : Host.Outcome State Fault Refusal :=
  effect (fun p => p.resetRelease pins) s

/-- The start-up wait ends (R162). -/
def execStartupWaitEnd (s : State) : Host.Outcome State Fault Refusal :=
  effect Part.startupEnd s

/-- A frame mark of a line (R10, R13, R25, R155, R158). -/
def execFrameMark (line : LineId) (first : List Expiry) (order : MarkOrder) (s : State) : Host.Outcome State Fault Refusal :=
  effect (fun p => p.frameMark line first order) s

/-- A slot starts: its downstream unit is chosen and sent (R4, R31). -/
def execSlotStart (line : LineId) (slot : Nat) (s : State) : Host.Outcome State Fault Refusal :=
  effect (fun p => p.slotStart line slot) s

/-- A slot ends: its upstream unit is classed and taken (R11, R12, R46). -/
def execSlotCompletion (line : LineId) (slot : Nat) (up : Upstream) (s : State) : Host.Outcome State Fault Refusal :=
  effect (fun p => p.slotCompletion line slot up) s

/-- A timer of an entry expires (R93). -/
def execEntryTimerExpiry (ctx : CtxId) (timer : EntryTimer) (s : State) : Host.Outcome State Fault Refusal :=
  effect (fun p => p.entryExpiry ctx timer) s

/-- An arm timer expires (R108). -/
def execArmTimerExpiry (ctx : CtxId) (s : State) : Host.Outcome State Fault Refusal :=
  effect (fun p => p.armExpiry ctx) s

/-- A capture limit expires (R109). -/
def execCaptureLimitExpiry (ctx : CtxId) (s : State) : Host.Outcome State Fault Refusal :=
  effect (fun p => p.limitExpiry ctx) s

/-- An answer-to-reset wait expires (R122). -/
def execAtrWaitExpiry (ctx : CtxId) (s : State) : Host.Outcome State Fault Refusal :=
  effect (fun p => p.atrExpiry ctx) s

/-- A response timer expires (R125). -/
def execResponseTimeout (ctx : CtxId) (s : State) : Host.Outcome State Fault Refusal :=
  effect (fun p => p.responseExpiry ctx) s

/-- The frame in progress ends on a line with its stop pending (R16 to R18). -/
def execStoppedFrameEnd (line : LineId) (s : State) : Host.Outcome State Fault Refusal :=
  effect (fun p => p.stoppedFrameEnd line) s

/-- The line driver’s monitor trips (R19). -/
def execDriverTrip (line : LineId) (s : State) : Host.Outcome State Fault Refusal :=
  effect (fun p => p.driverTrip line) s

/-- The monitor no longer senses overcurrent (R19). -/
def execDriverFaultInputCleared (line : LineId) (s : State) : Host.Outcome State Fault Refusal :=
  effect (fun p => p.modLine line fun x => { x with driverTripped := false }) s

end Sys2Proof.Machine
end

