-- ==== Sys2Proof/Machine/RequestCommands.lean ====
section
/-! DEFINITION. The meaning of every command that is a request: a good message with that request arrives on the link (R165, log 2). -/

namespace Sys2Proof.Machine

/-- The arrival of a request with its tag. -/
def arrive (tag : Byte) (r : Request) (s : State) : Host.Outcome State Fault Refusal :=
  effect (fun p => p.receive (requestMessage r tag)) s

/-- STATUS arrives (R167, R165). -/
def execStatus (tag : Byte) (s : State) : Host.Outcome State Fault Refusal :=
  arrive tag .status s

/-- RESTART arrives (R168). -/
def execRestart (tag : Byte) (s : State) : Host.Outcome State Fault Refusal :=
  arrive tag .restart s

/-- LINE SETUP arrives (R7 to R9). -/
def execLineSetup (tag : Byte) (line rate slots pmin : Nat) (s : State) : Host.Outcome State Fault Refusal :=
  arrive tag (.lineSetup line rate slots pmin) s

/-- LINE START arrives (R15). -/
def execLineStart (tag : Byte) (lines : Nat) (s : State) : Host.Outcome State Fault Refusal :=
  arrive tag (.lineStart lines) s

/-- LINE STOP arrives (R16, R17). -/
def execLineStop (tag : Byte) (lines : Nat) (s : State) : Host.Outcome State Fault Refusal :=
  arrive tag (.lineStop lines) s

/-- LOAD SCHEDULE arrives (R23, R24). -/
def execLoadSchedule (tag : Byte) (line : Nat) (entries : List Nat) (s : State) : Host.Outcome State Fault Refusal :=
  arrive tag (.loadSchedule line entries) s

/-- READ SCHEDULE arrives (R29). -/
def execReadSchedule (tag : Byte) (line : Nat) (s : State) : Host.Outcome State Fault Refusal :=
  arrive tag (.readSchedule line) s

/-- BIND POSITION arrives (R60). -/
def execBindPosition (tag : Byte) (pos : Nat) (reader keypad : Option Nat) (s : State) : Host.Outcome State Fault Refusal :=
  arrive tag (.bindPosition pos reader keypad) s

/-- SET INDICATORS arrives (R66 to R68). -/
def execSetIndicators (tag : Byte) (pos : Nat) (keypad : Option KeypadPart) (reader : Option ReaderPart) (s : State) : Host.Outcome State Fault Refusal :=
  arrive tag (.setIndicators pos keypad reader) s

/-- OPEN ENTRY arrives (R83 to R85). -/
def execOpenEntry (tag : Byte) (pos : Nat) (fields : EntryFields) (s : State) : Host.Outcome State Fault Refusal :=
  arrive tag (.openEntry pos fields) s

/-- CANCEL ENTRY arrives (R97). -/
def execCancelEntry (tag : Byte) (pos : Nat) (s : State) : Host.Outcome State Fault Refusal :=
  arrive tag (.cancelEntry pos) s

/-- ARM READER arrives (R105, R106). -/
def execArmReader (tag : Byte) (pos mask : Nat) (timeout : Option Nat) (s : State) : Host.Outcome State Fault Refusal :=
  arrive tag (.armReader pos mask timeout) s

/-- DISARM READER arrives (R107). -/
def execDisarmReader (tag : Byte) (pos : Nat) (s : State) : Host.Outcome State Fault Refusal :=
  arrive tag (.disarmReader pos) s

/-- DROP PROFILE arrives (R40 to R43). -/
def execDropProfile (tag : Byte) (ctx : Nat) (fields : ProfileFields) (s : State) : Host.Outcome State Fault Refusal :=
  arrive tag (.dropProfile ctx fields) s

/-- DROP RELEASE arrives (R44). -/
def execDropRelease (tag : Byte) (ctx : Nat) (s : State) : Host.Outcome State Fault Refusal :=
  arrive tag (.dropRelease ctx) s

/-- CHIP START arrives (R119, R120). -/
def execChipStart (tag : Byte) (pos : Nat) (s : State) : Host.Outcome State Fault Refusal :=
  arrive tag (.chipStart pos) s

/-- CHIP EXCHANGE arrives (R123). -/
def execChipExchange (tag : Byte) (pos : Nat) (command : List Byte) (s : State) : Host.Outcome State Fault Refusal :=
  arrive tag (.chipExchange pos command) s

/-- CHIP STOP arrives (R126). -/
def execChipStop (tag : Byte) (pos : Nat) (s : State) : Host.Outcome State Fault Refusal :=
  arrive tag (.chipStop pos) s

/-- RELEASE CARD arrives (R127). -/
def execReleaseCard (tag : Byte) (pos : Nat) (s : State) : Host.Outcome State Fault Refusal :=
  arrive tag (.releaseCard pos) s

/-- SET LEVELS arrives (R137). -/
def execSetLevels (tag : Byte) (kind level : Nat) (s : State) : Host.Outcome State Fault Refusal :=
  arrive tag (.setLevels kind level) s

/-- FAULT SETUP arrives (R151). -/
def execFaultSetup (tag : Byte) (settings : Option (List ClassSetting)) (style : Option Nat) (s : State) : Host.Outcome State Fault Refusal :=
  arrive tag (.faultSetup settings style) s

/-- READ FAULTS arrives (R152). -/
def execReadFaults (tag : Byte) (s : State) : Host.Outcome State Fault Refusal :=
  arrive tag .readFaults s

/-- CLEAR FAULTS arrives (R152). -/
def execClearFaults (tag : Byte) (s : State) : Host.Outcome State Fault Refusal :=
  arrive tag .clearFaults s

/-- LOOP START arrives (R154). -/
def execLoopStart (tag : Byte) (lines : Nat) (fields : LoopFields) (s : State) : Host.Outcome State Fault Refusal :=
  arrive tag (.loopStart lines fields) s

/-- LOOP STOP arrives (R159). -/
def execLoopStop (tag : Byte) (lines : Nat) (s : State) : Host.Outcome State Fault Refusal :=
  arrive tag (.loopStop lines) s

/-- READ LOOP RESULTS arrives (R153). -/
def execReadLoopResults (tag : Byte) (lines : Nat) (s : State) : Host.Outcome State Fault Refusal :=
  arrive tag (.readLoopResults lines) s

end Sys2Proof.Machine
end

