-- ==== Sys2Proof/Machine/Dispatch.lean ====
section
/-! DEFINITION. The arms of the machine: one direct call of a meaning for every command. -/

namespace Sys2Proof.Machine

def exec (i : Instr) (s : State) : Host.Outcome State Fault Refusal :=
  match i with
  | .status tag => Sys2Proof.Machine.execStatus tag s
  | .restart tag => Sys2Proof.Machine.execRestart tag s
  | .lineSetup tag line rate slots pmin => Sys2Proof.Machine.execLineSetup tag line rate slots pmin s
  | .lineStart tag lines => Sys2Proof.Machine.execLineStart tag lines s
  | .lineStop tag lines => Sys2Proof.Machine.execLineStop tag lines s
  | .loadSchedule tag line entries => Sys2Proof.Machine.execLoadSchedule tag line entries s
  | .readSchedule tag line => Sys2Proof.Machine.execReadSchedule tag line s
  | .bindPosition tag pos reader keypad => Sys2Proof.Machine.execBindPosition tag pos reader keypad s
  | .setIndicators tag pos keypad reader => Sys2Proof.Machine.execSetIndicators tag pos keypad reader s
  | .openEntry tag pos fields => Sys2Proof.Machine.execOpenEntry tag pos fields s
  | .cancelEntry tag pos => Sys2Proof.Machine.execCancelEntry tag pos s
  | .armReader tag pos mask timeout => Sys2Proof.Machine.execArmReader tag pos mask timeout s
  | .disarmReader tag pos => Sys2Proof.Machine.execDisarmReader tag pos s
  | .dropProfile tag ctx fields => Sys2Proof.Machine.execDropProfile tag ctx fields s
  | .dropRelease tag ctx => Sys2Proof.Machine.execDropRelease tag ctx s
  | .chipStart tag pos => Sys2Proof.Machine.execChipStart tag pos s
  | .chipExchange tag pos command => Sys2Proof.Machine.execChipExchange tag pos command s
  | .chipStop tag pos => Sys2Proof.Machine.execChipStop tag pos s
  | .releaseCard tag pos => Sys2Proof.Machine.execReleaseCard tag pos s
  | .setLevels tag kind level => Sys2Proof.Machine.execSetLevels tag kind level s
  | .faultSetup tag settings style => Sys2Proof.Machine.execFaultSetup tag settings style s
  | .readFaults tag => Sys2Proof.Machine.execReadFaults tag s
  | .clearFaults tag => Sys2Proof.Machine.execClearFaults tag s
  | .loopStart tag lines fields => Sys2Proof.Machine.execLoopStart tag lines fields s
  | .loopStop tag lines => Sys2Proof.Machine.execLoopStop tag lines s
  | .readLoopResults tag lines => Sys2Proof.Machine.execReadLoopResults tag lines s
  | .linkMessageReceived bytes => Sys2Proof.Machine.execLinkMessageReceived bytes s
  | .linkGapTimeout => Sys2Proof.Machine.execLinkGapTimeout s
  | .messageSendStart => Sys2Proof.Machine.execMessageSendStart s
  | .messageSent pins => Sys2Proof.Machine.execMessageSent pins s
  | .restartTimeout pins => Sys2Proof.Machine.execRestartTimeout pins s
  | .ctsChange level => Sys2Proof.Machine.execCtsChange level s
  | .powerUpReset cause pins => Sys2Proof.Machine.execPowerUpReset cause pins s
  | .resetRelease pins => Sys2Proof.Machine.execResetRelease pins s
  | .startupWaitEnd => Sys2Proof.Machine.execStartupWaitEnd s
  | .frameMark line first order => Sys2Proof.Machine.execFrameMark line first order s
  | .slotStart line slot => Sys2Proof.Machine.execSlotStart line slot s
  | .slotCompletion line slot up => Sys2Proof.Machine.execSlotCompletion line slot up s
  | .entryTimerExpiry ctx timer => Sys2Proof.Machine.execEntryTimerExpiry ctx timer s
  | .armTimerExpiry ctx => Sys2Proof.Machine.execArmTimerExpiry ctx s
  | .captureLimitExpiry ctx => Sys2Proof.Machine.execCaptureLimitExpiry ctx s
  | .atrWaitExpiry ctx => Sys2Proof.Machine.execAtrWaitExpiry ctx s
  | .responseTimeout ctx => Sys2Proof.Machine.execResponseTimeout ctx s
  | .stoppedFrameEnd line => Sys2Proof.Machine.execStoppedFrameEnd line s
  | .driverTrip line => Sys2Proof.Machine.execDriverTrip line s
  | .driverFaultInputCleared line => Sys2Proof.Machine.execDriverFaultInputCleared line s

end Sys2Proof.Machine
end

