-- ==== Sys2Proof/Safety.lean ====
section
/-! DEFINITION. The terms in which statements about the part are made: when the link takes a request at once, what a reply leaves, what stays
as it was, and the conditions that the manual says hold in every state (section 3 of the overview). -/

namespace Sys2Proof.Safety

open Sys2Proof.Machine

/-! ### Requests -/

/-- The row of a request, with its tag. -/
def command (tag : Byte) : Request → Instr
  | .status => .status tag
  | .restart => .restart tag
  | .lineSetup line rate slots pmin => .lineSetup tag line rate slots pmin
  | .lineStart lines => .lineStart tag lines
  | .lineStop lines => .lineStop tag lines
  | .loadSchedule line entries => .loadSchedule tag line entries
  | .readSchedule line => .readSchedule tag line
  | .bindPosition pos reader keypad => .bindPosition tag pos reader keypad
  | .setIndicators pos keypad reader => .setIndicators tag pos keypad reader
  | .openEntry pos fields => .openEntry tag pos fields
  | .cancelEntry pos => .cancelEntry tag pos
  | .armReader pos mask timeout => .armReader tag pos mask timeout
  | .disarmReader pos => .disarmReader tag pos
  | .dropProfile ctx fields => .dropProfile tag ctx fields
  | .dropRelease ctx => .dropRelease tag ctx
  | .chipStart pos => .chipStart tag pos
  | .chipExchange pos bytes => .chipExchange tag pos bytes
  | .chipStop pos => .chipStop tag pos
  | .releaseCard pos => .releaseCard tag pos
  | .setLevels kind level => .setLevels tag kind level
  | .faultSetup settings style => .faultSetup tag settings style
  | .readFaults => .readFaults tag
  | .clearFaults => .clearFaults tag
  | .loopStart lines fields => .loopStart tag lines fields
  | .loopStop lines => .loopStop tag lines
  | .readLoopResults lines => .readLoopResults tag lines

/-- The field after the tag, in a request that begins with a line, lines, a position, a context or a record kind, is out of its range. -/
def FirstFieldBad : Request → Prop
  | .lineSetup line _ _ _ => 1 < line
  | .loadSchedule line _ => 1 < line
  | .readSchedule line => 1 < line
  | .lineStart lines => 2 < lines
  | .lineStop lines => 2 < lines
  | .loopStart lines _ => 2 < lines
  | .loopStop lines => 2 < lines
  | .readLoopResults lines => 2 < lines
  | .bindPosition pos _ _ => ¬ (1 ≤ pos ∧ pos ≤ 8)
  | .setIndicators pos _ _ => ¬ (1 ≤ pos ∧ pos ≤ 8)
  | .openEntry pos _ => ¬ (1 ≤ pos ∧ pos ≤ 8)
  | .cancelEntry pos => ¬ (1 ≤ pos ∧ pos ≤ 8)
  | .armReader pos _ _ => ¬ (1 ≤ pos ∧ pos ≤ 8)
  | .disarmReader pos => ¬ (1 ≤ pos ∧ pos ≤ 8)
  | .chipStart pos => ¬ (1 ≤ pos ∧ pos ≤ 8)
  | .chipExchange pos _ => ¬ (1 ≤ pos ∧ pos ≤ 8)
  | .chipStop pos => ¬ (1 ≤ pos ∧ pos ≤ 8)
  | .releaseCard pos => ¬ (1 ≤ pos ∧ pos ≤ 8)
  | .dropProfile ctx _ => 15 < ctx
  | .dropRelease ctx => 15 < ctx
  | .setLevels kind _ => 10 < kind
  | _ => False

/-- The link takes a request at once: the part runs, no RESTART has been accepted, no request is in hand and none is pending (R165). -/
abbrev Ready (s : State) : Prop :=
  s.part.link.phase = .running ∧ s.part.link.restarting = false ∧ s.part.link.inHand = false ∧ s.part.link.held = none

/-- The state after a request that was taken at once: the part is `p` but for the link, which holds the reply, has the request in hand and
keeps RTS asserted. -/
def Replied (s : State) (p : Part) (tag kind : Byte) (a : Answer) : State :=
  { s with part := { p with
      link := { s.part.link with inHand := true, reply := some { tag := tag, kind := kind, answer := a }, rts := true } } }

/-- The message in transmission may end: flow control is off, CTS is asserted, or every byte of the message had been started when CTS was
negated (R166). -/
abbrev MayFinish (k : Link) : Prop := ∀ t, k.tx = some t → k.straps.flow = true → k.cts = true ∨ t.bytes.length ≤ t.started

/-! ### The items of a request (R163, R165) -/

/-- What a field of a request is made of: a number of up to w bytes, a list of at most m numbers of w bytes each, a text, or entries that a
reading takes or not. -/
inductive FieldForm
  | number (w : Nat)
  | list (w m : Nat)
  | text
  | entries (reads : List Byte → Bool)

/-- The fields of a request kind in the order of their codes (R163, R169), each with "it must be there": of the fields a request names, those
to which its rule gives no default and no meaning when they are left out. -/
def requestFields : Nat → Option (List (Bool × FieldForm))
  | 0x10 => some []
  | 0x11 => some []
  | 0x12 => some [(true, .number 1), (true, .number 2), (true, .number 1), (true, .number 2)]
  | 0x13 => some [(true, .number 1)]
  | 0x14 => some [(true, .number 1)]
  | 0x15 => some [(true, .number 1), (true, .list 1 16)]
  | 0x16 => some [(true, .number 1)]
  | 0x17 => some [(true, .number 1), (false, .number 1), (false, .number 1)]
  | 0x19 => some [(true, .number 1), (false, .entries fun v => (readKeypadPart v).isSome),
      (false, .entries fun v => (readReaderPart v).isSome)]
  | 0x1A => some ([(true, .number 1), (true, .number 1), (true, .number 1), (true, .number 1), (false, .list 1 3), (false, .number 3),
      (false, .number 3), (false, .number 3), (false, .number 1), (false, .text)])
  | 0x1B => some [(true, .number 1)]
  | 0x1C => some [(true, .number 1), (true, .number 1), (false, .number 3)]
  | 0x1D => some [(true, .number 1)]
  | 0x1E => some ([(true, .number 1), (false, .number 1), (false, .number 1), (false, .number 1), (false, .number 1), (false, .number 1),
      (false, .entries fun v => (readRules v).isSome), (false, .number 2)])
  | 0x1F => some [(true, .number 1)]
  | 0x20 => some [(true, .number 1)]
  | 0x21 => some [(true, .number 1), (true, .list 1 261)]
  | 0x22 => some [(true, .number 1)]
  | 0x23 => some [(true, .number 1)]
  | 0x24 => some [(true, .number 1), (true, .number 1)]
  | 0x25 => some [(false, .entries fun v => (readSettings v).isSome), (false, .number 1)]
  | 0x26 => some []
  | 0x27 => some []
  | 0x28 => some [(true, .number 1), (false, .list 2 4), (false, .number 2), (false, .number 1), (false, .number 1), (false, .list 1 16)]
  | 0x29 => some [(true, .number 1)]
  | 0x2A => some [(true, .number 1)]
  | _ => none

/-- The field of a code, if the kind has it. -/
def HasField (fields : List (Bool × FieldForm)) (code : Nat) (f : Bool × FieldForm) : Prop := 1 ≤ code ∧ fields[code - 1]? = some f

/-- The length of a value does not suit its form (R165, step 2; log 18). -/
def IllSuited (v : List Byte) : FieldForm → Prop
  | .number w => v.length = 0 ∨ w < v.length
  | .list w m => v.length % w ≠ 0 ∨ m < v.length / w
  | .text => False
  | .entries reads => reads v = false

/-- The item is of a field of the kind, and its length does not suit it. -/
def ItemBad (fields : List (Bool × FieldForm)) (i : Byte × List Byte) : Prop := ∃ f, HasField fields i.1.toNat f ∧ IllSuited i.2 f.2

/-- Items as they stand in a message body: field code, value length in two bytes, value (R163). -/
def itemsBytes (items : List (Byte × List Byte)) : List Byte := items.flatMap fun i => i.1 :: (num 2 i.2.length ++ i.2)

/-- The number that a value's bytes carry, least significant byte first (R163). -/
def numberOf (v : List Byte) : Nat := v.foldr (fun b n => b.toNat + 256 * n) 0

/-- The value of the item of a code, if the message has one. -/
def valueAt (items : List (Byte × List Byte)) (code : Nat) : Option (List Byte) := (items.find? fun i => i.1.toNat == code).map (·.2)

/-- A byte that may be left out of an entry: its presence byte, then the byte (R163). -/
def optByte : Option Nat → List Byte
  | none => [0]
  | some n => [1, .ofNat 8 n]

/-- The keypad part of SET INDICATORS on the link: text, lamps 1 to 4, beep (R66; log 17). -/
def keypadPartBytes (k : KeypadPart) : List Byte :=
  (match k.text with
    | none => [0]
    | some t => 1 :: (num 2 t.length ++ t)) ++
  optByte k.lamp1 ++ optByte k.lamp2 ++ optByte k.lamp3 ++ optByte k.lamp4 ++ optByte k.beep

/-- The reader part: bezel lamp, beep. -/
def readerPartBytes (r : ReaderPart) : List Byte := optByte r.bezel ++ optByte r.beep

/-- A capture rule on the link: start code, counted end codes, count (R103, R163), after the number of its track (the model's choice, log 57). -/
def ruleBytes (r : RuleField) : List Byte :=
  num 1 r.track ++ num 1 r.start ++ num 1 r.ends.length ++ r.ends.map (BitVec.ofNat 8) ++ num 1 r.count

/-- A class setting on the link: class, detect, report (R151; an entry by the model's choice, log 60). -/
def settingBytes (x : ClassSetting) : List Byte := num 1 x.cls ++ optByte x.detect ++ optByte x.report

/-- A number of one byte, if it is given. -/
abbrev FitsByte (n : Option Nat) : Prop := ∀ m ∈ n, m < 256

/-- The request that good items carry: field by field, in the numbering of R163 and the order of each request's own list, a field left out
being absent. -/
def Carries (items : List (Byte × List Byte)) : Request → Prop :=
  let value := valueAt items
  let number (code : Nat) : Option Nat := (value code).map numberOf
  let bytes (code : Nat) : Option (List Nat) := (value code).map fun v => v.map BitVec.toNat
  fun r => match r with
  | .status => True
  | .restart => True
  | .readFaults => True
  | .clearFaults => True
  | .lineSetup line rate slots pmin => number 1 = some line ∧ number 2 = some rate ∧ number 3 = some slots ∧ number 4 = some pmin
  | .lineStart lines => number 1 = some lines
  | .lineStop lines => number 1 = some lines
  | .loopStop lines => number 1 = some lines
  | .readLoopResults lines => number 1 = some lines
  | .readSchedule line => number 1 = some line
  | .loadSchedule line entries => number 1 = some line ∧ bytes 2 = some entries
  | .bindPosition pos reader keypad => number 1 = some pos ∧ number 2 = reader ∧ number 3 = keypad
  | .setIndicators pos keypad reader => number 1 = some pos ∧ value 2 = keypad.map keypadPartBytes ∧ value 3 = reader.map readerPartBytes ∧
      (∀ k ∈ keypad, FitsByte k.lamp1 ∧ FitsByte k.lamp2 ∧ FitsByte k.lamp3 ∧ FitsByte k.lamp4 ∧ FitsByte k.beep ∧
        ∀ t ∈ k.text, t.length < 65536) ∧
      ∀ z ∈ reader, FitsByte z.bezel ∧ FitsByte z.beep
  | .openEntry pos f => number 1 = some pos ∧ number 2 = some f.kind ∧ number 3 = some f.min ∧ number 4 = some f.max ∧ bytes 5 = f.terms ∧
      number 6 = f.firstKey ∧ number 7 = f.interKey ∧ number 8 = f.total ∧ number 9 = f.echo ∧ value 10 = f.prompt
  | .cancelEntry pos => number 1 = some pos
  | .disarmReader pos => number 1 = some pos
  | .chipStart pos => number 1 = some pos
  | .chipStop pos => number 1 = some pos
  | .releaseCard pos => number 1 = some pos
  | .armReader pos mask timeout => number 1 = some pos ∧ number 2 = some mask ∧ number 3 = timeout
  | .dropProfile ctx f => number 1 = some ctx ∧ number 2 = f.line ∧ number 3 = f.address ∧ number 4 = f.kind ∧ number 5 = f.q ∧ number 6 = f.d ∧
      value 7 = f.rules.map (·.flatMap ruleBytes) ∧ number 8 = f.chipTimeout ∧
      ∀ rules ∈ f.rules, ∀ r ∈ rules, r.track < 256 ∧ r.start < 256 ∧ r.ends.length < 256 ∧ (∀ n ∈ r.ends, n < 256) ∧ r.count < 256
  | .dropRelease ctx => number 1 = some ctx
  | .chipExchange pos command => number 1 = some pos ∧ value 2 = some command
  | .setLevels kind level => number 1 = some kind ∧ number 2 = some level
  | .faultSetup settings style => value 1 = settings.map (·.flatMap settingBytes) ∧ number 2 = style ∧
      ∀ xs ∈ settings, ∀ x ∈ xs, x.cls < 256 ∧ FitsByte x.detect ∧ FitsByte x.report
  | .loopStart lines f => number 1 = some lines ∧ value 2 = f.pattern.map (·.flatMap (num 2)) ∧ number 3 = f.passLimit ∧
      number 4 = f.continuous ∧ number 5 = f.stopOnError ∧ bytes 6 = f.participants ∧ ∀ ws ∈ f.pattern, ∀ w ∈ ws, w < 65536

/-! ### Messages and units on the wire (R163, R169, R170) -/

/-- The register of a CRC whose generator is x^w and the terms of `low`, from a start value, after bits taken in turn: it moves up by one place, and
where the bit it loses differs from the bit taken in, the terms of `low` are added. -/
def crcOf {w : Nat} (low start : BitVec w) (bits : List Bool) : BitVec w :=
  bits.foldl (fun r b => if r.msb = b then r <<< 1 else (r <<< 1) ^^^ low) start

/-- A message on the link: start byte, body length, body, and the CRC-16 of x^16 + x^12 + x^5 + 1 from 0xFFFF over length and body, each byte
most significant bit first (R163). -/
def wireMessage (body : List Byte) : List Byte :=
  let covered := num 2 body.length ++ body
  0xC5 :: (covered ++ num 2 (crcOf (0x1021 : BitVec 16) 0xFFFF (covered.flatMap fun b => (List.range 8).map b.getMsbD)).toNat)

/-- A unit on a line: kind, payload, and the check, the CRC of x^4 + x + 1 from 0 over both, most significant bit first (R170). -/
def wireUnit (kind : BitVec 4) (payload : Payload) : UnitWord :=
  kind ++ payload ++ crcOf (0x3 : BitVec 4) 0 ((List.range 4).map kind.getMsbD ++ (List.range 16).map payload.getMsbD)

/-- The word of a downstream unit (R170). -/
def downWord : DownUnit → UnitWord
  | .poll => wireUnit 0 0
  | .resync => wireUnit 1 0
  | .refreshText isFirst c1 c2 => wireUnit 2 ((if isFirst then 0 else 1 : BitVec 2) ++ c1.extractLsb' 0 7 ++ c2.extractLsb' 0 7)
  | .refreshLamps l1 l2 l3 l4 =>
    let lamp (z : Lamp) : BitVec 2 := match z with
      | .off => 0
      | .on => 1
      | .blink => 2
    wireUnit 2 ((2 : BitVec 2) ++ (0 : BitVec 6) ++ lamp l1 ++ lamp l2 ++ lamp l3 ++ lamp l4)
  | .control c =>
    let control (code arg : Byte) : UnitWord := wireUnit 3 (code ++ arg)
    match c with
    | .setForm .opened => control 1 0
    | .setForm .masked => control 1 1
    | .beep n => control 2 (.ofNat 8 n)
    | .finishBlock => control 3 0
    | .abandonBlock => control 4 0
    | .latch => control 5 0
    | .unlatch => control 6 0
    | .powerOn => control 7 0
    | .powerOff => control 8 0
    | .loopEnter => control 9 0
    | .loopExit => control 10 0
  | .chipData b1 b2 => wireUnit 4 (b1 ++ b2)
  | .chipEnd none => wireUnit 5 0
  | .chipEnd (some b) => wireUnit 5 ((1 : BitVec 8) ++ b)
  | .loopPattern w => wireUnit 6 w

/-- A value of an enumeration: its place, from 0, in the list of its rule (R163). -/
def place {α : Type} [DecidableEq α] (values : List α) (x : α) : List Byte := num 1 (values.idxOf x)

/-- The items of the fields of a body, numbered from 1, a field left out having none (R163). -/
def numbered (fields : List (Option (List Byte))) : List (Byte × List Byte) :=
  (fields.zipIdx 1).filterMap fun x => x.1.map fun v => (.ofNat 8 x.2, v)

/-- A yes or no on the link. -/
def yesNo (b : Bool) : List Byte := [if b then 1 else 0]

/-- A field of an entry that may be left out: its presence byte, then the field (R163). -/
def maybe : Option (List Byte) → List Byte
  | none => [0]
  | some v => 1 :: v

/-- The five changes of attachment or of the line that end an operation, in the order of every list that names them. -/
def allCauses : List Cause := [.dropLost, .dropRestarted, .unscheduled, .lineStopped, .lineFault]

/-- The detail of a detection in one byte (R147; logs 15 and 16). -/
def detailByte : Detail → List Byte
  | .slot i => num 1 i
  | .threshold q => num 1 q
  | .kindCode k => num 1 k
  | .unitCode k => num 1 k
  | .unmask w => place [.armingLimit, .openScan] w
  | .lineState s => if s = .test then [1] else [0]
  | .miscompare m => place [.silent, .damaged, .value] m
  | .link e => place [.check, .length, .gap, .overflow] e
  | .level l => num 1 l

/-- The ten classes in the order of R147. -/
def classByte (c : FaultClass) : List Byte :=
  place [.unitDamaged, .dropLost, .dropKind, .dropRestart, .streamProtocol, .keypadUnmasked, .lineDrive, .loopMiscompare, .linkFrame,
    .eventDiscard] c

/-- An entry of LOOP_RESULT for a participant: context, drop address, passes, finish, and its error with kind, index, pass, payload and kind code
(R157, R160; the error as one field: log 63). -/
def loopEntry (r : LoopRecord) : List Byte :=
  num 1 r.ctx.val ++ num 1 r.address ++ num 2 r.passes ++ place [.done, .unscheduled, .running] r.finish ++
  maybe (r.error.map fun e => place [.silent, .damaged, .value] e.kind ++ num 1 e.index ++ num 2 e.pass ++
    maybe (e.payload.map fun w => num 2 w.toNat) ++ maybe (e.upKind.map (num 1)))

/-- An entry of CAPTURE_RESULT for a track: track, status, ended-by, characters (R115). -/
def trackEntry (t : TrackEntry) : List Byte :=
  num 1 t.track ++ place [.ok, .noData, .parity, .lrcBad, .truncated] t.status ++
  place [some .endCode, some .count, some .trackEnd, some .truncated, none] t.endedBy ++
  maybe (t.chars.map fun l => num 1 l.length ++ l)

/-- The fields of a record's body in the order of its table or list (R21, R58, R61, R80, R101, R115 to R117, R133, R150, R160, R162; the layouts
that the tables leave open: logs 14 to 16, 45, 50, 54, 56, 59 and 61 to 63). -/
def bodyFields : Body → List (Option (List Byte))
  | .entry b =>
    [some (place [.opened, .secure] b.kind),
     some (place ([.completed, .customerCancelled, .workstationCancelled, .timedOut, .keypadUnmasked, .blockFault] ++
      allCauses.map EntryOutcome.ended) b.outcome),
     b.endKey.map (num 1),
     b.detail.map fun d => match d with
      | .timer t => place [.firstKey, .interKey, .total, .blockWait] t
      | .unmask w => place [.armingLimit, .openScan] w
      | .block w => place [.overlong, .length, .refused] w,
     b.digits.map fun l => l.map (BitVec.ofNat 8), some (num 1 b.count), some (num 1 b.ignored), b.block, b.blockBytes.map (num 1)]
  | .capture b =>
    [some (place ([.completed, .armExpired, .incomplete, .workstationCancelled] ++ allCauses.map CaptureOutcome.ended) b.outcome),
     some (num 1 ((if b.mask.t1 then 1 else 0) + (if b.mask.t2 then 2 else 0) + (if b.mask.t3 then 4 else 0))),
     some (b.tracks.flatMap trackEntry)]
  | .chip (.start o atr) =>
    [some [0],
     some (place ([.ready, .mute, .parity, .contactFault, .atrLength, .timedOut, .stopped, .cardRemoved, .powerLost] ++
      allCauses.map StartOutcome.ended) o), atr]
  | .chip (.exchange n st response) =>
    [some [1], none, none, some (num 2 n),
     some (place ([.ok, .mute, .parity, .contactFault, .overrun, .timedOut, .stopped, .cardRemoved, .powerLost] ++
      allCauses.map ExchangeStatus.ended) st), some response]
  | .chip (.sessionEnd r n) =>
    [some [2], none, none, none, none, none,
     some (place ([.stopped, .contactFault, .exchangeTimeout, .cardRemoved, .powerLost] ++ allCauses.map EndReason.ended) r), some (num 2 n)]
  | .loop b =>
    [some (place [.passed, .failed, .stopped, .empty, .aborted] b.outcome),
     some (num 1 4 ++ (b.setup.pattern.toList.flatMap fun w => num 2 w.toNat) ++ num 2 b.setup.passLimit ++ yesNo b.setup.continuous ++
      yesNo b.setup.stopOnError),
     b.entryFrame.map fun f => num 4 f.toNat, some (num 4 b.endFrame.toNat), some (b.records.flatMap loopEntry)]
  | .line st why =>
    [some (place [.idle, .run, .test] st), some (place [.started, .stopped, .driverFault, .testEntered, .testEnded] why)]
  | .powerUp kind revision first straps =>
    [some (place [.power, .restart] kind), some (num 1 revision), some (yesNo first), some (num 3 straps.linkRate), some (yesNo straps.flow),
     some (num 2 straps.lineRate.kbps)]
  | .drop address st why restart hello =>
    [some (num 1 address), some (place [.free, .parked, .waiting, .attached, .mismatch, .lost, .looping] st),
     some (place [.attached, .mismatch, .restarted, .lost, .scheduled, .unscheduled] why), some (yesNo restart),
     hello.map fun h => num 1 h.kindCode, hello.map fun h => yesNo h.features.display, hello.map fun h => num 1 h.features.lamps]
  | .position ptr named why after =>
    let pointer (c : Option CtxId) : List Byte := match c with
      | none => [255]
      | some c => num 1 c.val
    [some (place [.reader, .keypad] ptr), some (num 1 named.val), some (place [.released, .kindChanged] why), some (pointer after.reader),
     some (pointer after.keypad)]
  | .fault cls stamp detail count first =>
    [some (classByte cls), stamp.map fun s => num 4 s.toNat, detail.map detailByte, some (num 2 count), some (yesNo first)]
  | .card before after why lp =>
    let state (z : CardState) : List Byte := place [.unknown, .noCard, .swiping, .inserted, .latched] z
    let reported (z : Reported) : List Byte := place [.on, .off, .unknown] z
    [some (state before), some (state after), some (place [.changed, .lost] why), lp.map fun x => reported x.1, lp.map fun x => reported x.2]
  | .swiped now seen discarded =>
    [none, none, some [2], none, none, some (place [CardState.unknown, .noCard, .swiping, .inserted, .latched] now),
     some ((if seen.t1 then [1] else []) ++ (if seen.t2 then [2] else []) ++ (if seen.t3 then [3] else [])), some (num 1 discarded)]
  | .key form k =>
    [some (place [.opened, .masked] form), some (match k with
      | .key n => num 1 n.val
      | .digit => [255])]

/-- The body of a record: 0x03, 0, record kind, level, send number, presence byte, the common fields present, body items (R138, R169). -/
def recordBody (r : Rec) (sendNumber : BitVec 16) : List Byte :=
  let presence := (if r.pos.isSome then 1 else 0) + (if r.ctx.isSome then 2 else 0) + (if r.line.isSome then 4 else 0)
  [0x03, 0x00] ++
  place [.entryResult, .captureResult, .chipResult, .loopResult, .line, .powerUp, .drop, .position, .fault, .card, .key] r.body.kind ++
  num 1 r.level ++ num 2 sendNumber.toNat ++ num 1 presence ++
  (r.pos.map fun i => num 1 (i.val + 1)).getD [] ++ (r.ctx.map fun c => num 1 c.val).getD [] ++
  (r.line.map fun l => num 1 (lineCode l)).getD [] ++ itemsBytes (numbered (bodyFields r.body))

/-- The body of a reply: ACCEPTED with its items, or REFUSED with the refusal code and the field code (R165, R169). -/
def replyBody (r : Reply) : List Byte :=
  match r.answer with
  | .accepted fields => [0x01, r.tag, r.kind] ++ itemsBytes (numbered fields)
  | .refused code field => [0x02, r.tag, r.kind] ++
    num 1 (1 + [.unknownKind, .badLength, .badField, .wrongState, .busy, .notBound, .notAttached, .noResultRoom, .controlFull].idxOf code) ++
    num 1 field

/-! ### What stays as it was -/

abbrev SameLines (p q : Part) : Prop := ∀ l, q.line l = p.line l

/-- A line without the mark that its slot in progress carries a SET_FORM of the entry now arming. -/
def sansArming (x : Line) : Line := { x with inSlot := x.inSlot.map fun r => { r with forEntry := false } }

/-- The lines are the same but for that mark (log 24). -/
abbrev SameLinesButArming (p q : Part) : Prop := ∀ l, sansArming (q.line l) = sansArming (p.line l)

abbrev SameContexts (p q : Part) : Prop := ∀ c, q.ctx c = p.ctx c

abbrev SameContextsBut (c : CtxId) (p q : Part) : Prop := ∀ d, d ≠ c → q.ctx d = p.ctx d

abbrev SamePositions (p q : Part) : Prop := ∀ i, q.position i = p.position i

/-- The Event Queue and the Fault Record are those that offering these notices in turn leaves (R141, R142). -/
abbrev Offered (rs : List Rec) (p q : Part) : Prop := q.queue = (p.offerAll rs).queue ∧ q.faults = (p.offerAll rs).faults

/-- The Event Queue and the Fault Record are those that taking these reservations in turn leaves (R139). -/
abbrev Reserved (rs : List Reservation) (p q : Part) : Prop := q.queue = (p.reserveAll rs).queue ∧ q.faults = (p.reserveAll rs).faults

/-- A queue in which reservation r has become a result record at the level of its kind, the newest record of the queue (R140). -/
def converted (q : EventQueue) (r : Reservation) (pos : Option PosId) (ctx : Option CtxId) (line : Option LineId) (body : Body) :
    EventQueue :=
  { q with
    reservations := q.reservations.erase r
    records := q.records ++ [{ level := q.levels.get body.kind.index, pos := pos, ctx := ctx, line := line, body := body }] }

/-- Detections taken in turn: the Fault Record after them, and the FAULT notices they make, in order (R148, R150). -/
def recordAll : FaultRecord → List Detection → FaultRecord × List Rec
  | f, [] => (f, [])
  | f, d :: ds =>
    ((recordAll (f.take d).1 ds).1, ((f.take d).2.map (faultNotice d)).toList ++ (recordAll (f.take d).1 ds).2)

/-- The Event Queue and the Fault Record at the end of an event that takes these detections and closes with these notices: the FAULT notices
are offered before the closing ones (R57, R150). -/
abbrev EventEnds (ds : List Detection) (tail : List Rec) (p q : Part) : Prop :=
  Offered ((recordAll p.faults ds).2 ++ tail) { p with faults := (recordAll p.faults ds).1 } q

/-- The same of an event that first takes the detections `early`, then leaves the queue of results as `results`, offers the notices `cards`, and
goes on with the detections `late` (R55, R57, R150): results, these notices, FAULT notices in the order of detection, closing notices. -/
abbrev EventRuns (early : List Detection) (results : EventQueue) (cards : List Rec) (late : List Detection) (tail : List Rec)
    (p q : Part) : Prop :=
  let p1 : Part := ({ p with queue := results, faults := (recordAll p.faults early).1 } : Part).offerAll cards
  Offered ((recordAll p.faults early).2 ++ (recordAll p1.faults late).2 ++ tail) { p1 with faults := (recordAll p1.faults late).1 } q

/-! ### Requests that name lines, schedules and keypads -/

/-- "Line A, line B or both" names this line: 0 names A, 1 names B, 2 names both (R15, R163). -/
abbrev Named (lines : Nat) (l : LineId) : Prop := lines = lineCode l ∨ lines = 2

/-- The number an entry of a schedule, or a pointer, travels as: the context, or 255 for EMPTY and NONE (R163). -/
def pointerCode : Option CtxId → Nat
  | none => 255
  | some c => c.val

/-- A keypad context with its scan count computed anew: N = ceil(D·R·k / L), brought into 1..255 (R14). A context with no debounce time
is no keypad and keeps what it has. -/
def rescanned (x : Context) (rate : BitRate) (len k : Nat) : Context :=
  match x.profile.bind (·.d) with
  | some d => { x with keypad := x.keypad.map fun y => { y with n := max 1 (min 255 ((d * rate.kbps * k + len - 1) / len)) } }
  | none => x

/-- The count of frames of a timer of T ms on a line: none for T = 0, else ceil(T·R / L) (R13). -/
def timerFrames (x : Line) (ms : Nat) : Option Nat := if ms = 0 then none else some ((ms * x.rate.kbps + x.frameLen - 1) / x.frameLen)

/-- The context may be claimed for an operation by now (R84, R105, R119): it is ATTACHED on line l with no holder, and the line is RUN, with or
without a stop pending, with no loop test accepted and not yet ended. -/
abbrev Claimable (p : Part) (c : CtxId) (l : LineId) : Prop :=
  (p.ctx c).attach = .attached ∧ (p.ctx c).lineId = some l ∧ (p.line l).state = .run ∧ (p.line l).loop.state = .noTest ∧
  (p.ctx c).holder = none

/-- The Event Queue can reserve n places: free places and queued notices together number at least n (R139). -/
abbrev Room (p : Part) (n : Nat) : Prop := n ≤ (32 - p.queue.used) + (p.queue.records.filter Rec.isNotice).length

/-- The character a text puts at place n of a display, counted from 0: a code outside 0x20..0x7E shows as 0x3F, and spaces follow the text (R67). -/
def shown (t : List Byte) (n : Nat) : Byte :=
  match t[n]? with
  | none => 0x20
  | some b => if 0x20 ≤ b.toNat ∧ b.toNat ≤ 0x7E then b else 0x3F

/-- A timeout of a request: left out it is 0, and above 300,000 ms it is 300,000 (R83, R105). -/
def timeoutTaken (t : Option Nat) : Nat := min 300000 (t.getD 0)

/-- A capture rule that R40 takes: start code 0..127 or NONE, at most two end codes 0..127, count 0..112, at one of tracks 1 to 3 (log 40). -/
abbrev RuleGood (r : RuleField) : Prop :=
  (r.start ≤ 127 ∨ r.start = 255) ∧ r.ends.length ≤ 2 ∧ (∀ n ∈ r.ends, n ≤ 127) ∧ r.count ≤ 112 ∧ 1 ≤ r.track ∧ r.track ≤ 3

/-- A context's line, drop address and kind under the identity fields that a request gives (R40). -/
abbrev IdentityFields (line : Option LineId) (address : Option Nat) (kind : Option DropKind) : ProfileFields :=
  { line := line.map lineCode, address := address, kind := kind.map DropKind.code, q := none, d := none, rules := none, chipTimeout := none }

/-! ### Frames and slots -/

/-- No timer of line l stands at 0 with its expiry still to be taken (R13, log 5). -/
abbrev NoExpiryDue (p : Part) (l : LineId) : Prop :=
  ∀ c, (p.ctx c).lineId = some l →
    (∀ e, (p.ctx c).entry = some e → ∀ t, e.timer t ≠ some 0) ∧
    (∀ u, (p.ctx c).capture = some u → (u.state = .armed → u.armTimer ≠ some 0) ∧ (u.state = .capturing → u.limitTimer ≠ some 0)) ∧
    ∀ h, (p.ctx c).chip = some h → (h.session = .starting → h.atrWait ≠ some 0) ∧ (h.session = .awaiting → h.respTimer ≠ some 0)

/-- The slots from the next one up to slot n of the frame in progress are all quiet, so that the frame stands before slot n (R2, R4, log 6). -/
abbrev QuietUpTo (x : Line) (n : Nat) : Prop := ∀ j, x.nextSlot ≤ j → j < n → ∀ c, x.active[j]? ≠ some (some c)

/-- Slot i may start: the line sends frames, no slot is in progress, and the frame in progress stands before slot i (R2, R12). -/
abbrev SlotNext (p : Part) (l : LineId) (i : Nat) : Prop :=
  (p.line l).state ≠ .idle ∧ (p.line l).inSlot = none ∧ (p.line l).nextSlot ≤ i ∧ i < (p.line l).slots ∧ QuietUpTo (p.line l) i ∧
  NoExpiryDue p l

/-- The frame in progress has been sent to its last slot, and no slot is in progress (R2, R16). -/
abbrev FrameSent (p : Part) (l : LineId) : Prop :=
  (p.line l).inSlot = none ∧ QuietUpTo (p.line l) (p.line l).slots ∧ NoExpiryDue p l

/-- A mark comes at the end of a frame with no stop pending (R2, R10): the frame has been sent, or, unpadded, its last slot ends with the mark and
its completion is still to be taken (log 36). -/
abbrev MarkNext (p : Part) (l : LineId) : Prop :=
  (p.line l).state ≠ .idle ∧ (p.line l).stopPending = false ∧
  (FrameSent p l ∨
    NoExpiryDue p l ∧ (p.line l).nextSlot = (p.line l).slots ∧ (p.line l).frameLen ≤ 16 + 32 * (p.line l).slots ∧
    ∃ run, (p.line l).inSlot = some run ∧ run.index + 1 = (p.line l).slots)

/-- The slot call of a drop address: the address in bits 7..4, its complement below (R3). -/
def callByte (address : Nat) : Byte := .ofNat 8 (16 * address + (15 - address))

/-- The slot calls of a frame under a schedule: each slot by the drop address of the context its entry names, and by address 0 for an EMPTY one
(R3). -/
def frameCalls (p : Part) (active : Schedule) : List Byte :=
  active.map fun e => match e with
    | none => 0x0F
    | some c => match (p.ctx c).profile with
      | some pr => callByte pr.address
      | none => 0x0F

/-- Every profile has a drop address of 1 to 15 (R39, R40). -/
abbrev AddressesFit (p : Part) : Prop := ∀ c pr, (p.ctx c).profile = some pr → 1 ≤ pr.address ∧ pr.address ≤ 15

/-- Nothing began in the answer window (R11). -/
def Silent : Upstream → Prop
  | .nothing => True
  | .unit start _ _ => 4 ≤ start

/-- A unit began in the answer window, and it stopped short or its check is bad (R11). -/
def Damaged : Upstream → Prop
  | .nothing => False
  | .unit start nbits w => start < 4 ∧ (nbits < 24 ∨ ∀ kind payload, w ≠ unitWord kind payload)

/-- The holds of a context at a slot completion: 4 for the control the slot carried, and otherwise one less (R32, R33). -/
def heldBy (u : DownUnit) (x : Context) : Context :=
  let latch : Bool := u = .control .latch ∨ u = .control .unlatch
  let power : Bool := u = .control .powerOn ∨ u = .control .powerOff
  let form : Bool := u = .control (.setForm .opened) ∨ u = .control (.setForm .masked)
  { x with
    formHold := if form then 4 else x.formHold - 1
    latchHold := if latch then 4 else x.latchHold - 1
    powerHold := if power then 4 else x.powerHold - 1 }

/-- What the slot completion does to the command stream (R36, R124): after a command unit the stream stands at the next one, and after CHIP_END the
exchange is in AWAITING with the response timer of the profile. That the command and the number of its units sent stay in AWAITING is the model's choice
(DESIGN CHOICE, log 47). -/
def streamed (line : Line) (pr : Profile) (u : DownUnit) (x : Context) : Context :=
  { x with chip := x.chip.map fun h =>
      if h.session = .sending then
        match u with
        | .chipData _ _ => { h with unitsSent := h.unitsSent + 1 }
        | .chipEnd _ =>
          { h with session := .awaiting, unitsSent := h.unitsSent + 1, respTimer := timerFrames line (pr.chipTimeout.getD 5000) }
        | _ => h
      else h }

/-- The slot in progress on line l is slot i, of a context profiled on this line, and no timer of the line is due. -/
abbrev SlotEnds (s : State) (l : LineId) (i : Nat) (run : SlotRun) (pr : Profile) : Prop :=
  (s.part.line l).inSlot = some run ∧ run.index = i ∧ NoExpiryDue s.part l ∧ (s.part.ctx run.ctx).profile = some pr ∧ pr.line = l

/-- The slot in progress on line l is slot i of an ATTACHED context of this line, and no timer of the line is due. -/
abbrev Hears (s : State) (l : LineId) (i : Nat) (run : SlotRun) (pr : Profile) : Prop :=
  SlotEnds s l i run pr ∧ (s.part.ctx run.ctx).attach = .attached

/-- An ATTACHED context at a slot completion, before its unit is taken: it is no longer new, and its holds are stepped (R32, R33, R49). -/
def stepped (u : DownUnit) (x : Context) : Context := { heldBy u x with fresh := false }

/-- The same with a received unit, which on a line in RUN sets the miss count to 0 (R51). -/
def heard (ln : Line) (u : DownUnit) (x : Context) : Context := { stepped u x with miss := if ln.state = .run then 0 else x.miss }

/-- No SECURE entry of the context counts the slots it has to mask in (R87). -/
abbrev NotArming (x : Context) : Prop := ∀ e, x.entry = some e → e.state ≠ .arming

/-- A received unit of this kind code and payload does not fit an ATTACHED context of this kind, and is discarded with STREAM_PROTOCOL
(R53, R54, R112, R132). HELLO is apart (R49, R50). -/
def Misfit (x : Context) (kind : DropKind) (code : Nat) (w : Payload) : Prop :=
  let closing := ∃ e, x.entry = some e ∧ e.state = .closing
  let state := w.toNat / 8192
  let track := w.toNat / 16384
  match kind with
  | .keypad => (4 ≤ code ∧ code ≤ 9) ∨ 12 ≤ code ∨ ((code = 10 ∨ code = 11) ∧ ¬ closing ∧ x.lateBlock = false)
  | .readerStripe => code = 2 ∨ code = 3 ∨ 8 ≤ code ∨ (code = 4 ∧ 2 ≤ state) ∨ (code = 5 ∧ track = 0) ∨
      (code = 6 ∧ (track = 0 ∨ w.toNat / 4096 % 4 = 3))
  | .readerHybrid => code = 2 ∨ code = 3 ∨ 10 ≤ code ∨ (code = 4 ∧ state ≠ 0 ∧ state ≠ 2 ∧ state ≠ 3) ∨ (code = 5 ∧ track = 0) ∨
      (code = 6 ∧ (track = 0 ∨ w.toNat / 4096 % 4 = 3)) ∨
      ((code = 8 ∨ code = 9) ∧ ∃ h, x.chip = some h ∧
        ((h.session = .off ∧ h.discardLate = false) ∨ h.session = .ready ∨ h.session = .sending))

/-- A received unit that is discarded quietly and changes nothing: IDLE; a block unit after its entry has ended (R54); a chip unit before the
card has power, or a late CHIP_DATA (R121, R132). -/
def Quiet (x : Context) (kind : DropKind) (code : Nat) : Prop :=
  code = 0 ∨ (kind = .keypad ∧ (code = 10 ∨ code = 11) ∧ (¬ ∃ e, x.entry = some e ∧ e.state = .closing) ∧ x.lateBlock = true) ∨
  (kind = .readerHybrid ∧ ∃ h, x.chip = some h ∧
    (((code = 8 ∨ code = 9) ∧ h.session = .starting ∧ h.powerSeen = false) ∨
      (code = 8 ∧ h.session = .off ∧ h.discardLate = true)))

/-! ### Scans (R73 to R78) -/

/-- The raw state of the virtual keys a scan reports: keys 0 to 15 of a SCAN_OPEN; keys 10 to 15, then DIGIT, of a SCAN_MASKED, where MULTI
counts as DIGIT down (R71, R73). -/
def rawKeys (form : ScanForm) (w : Payload) : List Bool :=
  match form with
  | .opened => (List.range 16).map w.getLsbD
  | .masked => [w.getLsbD 10, w.getLsbD 11, w.getLsbD 12, w.getLsbD 13, w.getLsbD 14, w.getLsbD 15, w.getLsbD 0 || w.getLsbD 1]

/-- The virtual key at a place of that list. -/
def virtualKey (form : ScanForm) (j : Nat) : VKey :=
  match form with
  | .opened => .key (Fin.ofNat 16 j)
  | .masked => if j < 6 then .key (Fin.ofNat 16 (10 + j)) else .digit

/-- The keys a scan of this form starts from: those the context holds, or, at a change of form, every key UP with run 0 (R74). -/
def keysUnder (form : ScanForm) (k : Keypad) : List KeyState :=
  if k.reported = form then k.keys
  else List.replicate (match form with | .opened => 16 | .masked => 7) { down := false, run := 0 }

/-- One key in one scan (R76): a raw state equal to its state clears its run; one that differs adds to the run, and at N it is the new state. -/
def debounced (n : Nat) (k : KeyState) (raw : Bool) : KeyState :=
  if raw = k.down then { k with run := 0 }
  else if n ≤ k.run + 1 then { down := raw, run := 0 }
  else { k with run := k.run + 1 }

/-- Every key of a scan. -/
def scanned (form : ScanForm) (k : Keypad) (w : Payload) : List KeyState :=
  List.zipWith (debounced k.n) (keysUnder form k) (rawKeys form w)

/-- The key at place j went DOWN in the scan while no other is DOWN, and MULTI is clear in MASKED form: its press is delivered (R78). -/
abbrev Pressed (form : ScanForm) (k : Keypad) (w : Payload) (j : Nat) : Prop :=
  (∃ a, (keysUnder form k)[j]? = some a ∧ a.down = false) ∧ (∃ b, (scanned form k w)[j]? = some b ∧ b.down = true) ∧
  ((scanned form k w).filter (·.down)).length = 1 ∧ ¬ (form = .masked ∧ w.getLsbD 1 = true)

/-! ### Endings that a change of attachment or of the line causes (R57) -/

/-- The queue after a chip session, if any, has ended (R122, R128): a start makes its result and releases the session-end reservation; a session
makes the result of its exchange in flight, if any, and then its own. -/
def endedSession (c : CtxId) (line : Option LineId) (h : Chip) (o : StartOutcome) (st : ExchangeStatus) (r : EndReason) (q : EventQueue) :
    EventQueue :=
  let chip (q : EventQueue) (r : Reservation) (b : ChipBody) := converted q r h.owner (some c) line (.chip b)
  match h.session with
  | .off => q
  | .starting => { chip q (.chipStart c) (.start o none) with reservations := (q.reservations.erase (.chipStart c)).erase (.chipEnd c) }
  | .ready => chip q (.chipEnd c) (.sessionEnd r h.exchanges)
  | _ => chip (chip q (.exchange c) (.exchange h.exchanges st h.response)) (.chipEnd c) (.sessionEnd r h.exchanges)

/-- The entry of a track in the result of a capture that ends with outcome o: the status is the first line of R113's table that holds, the
ended-by reason that of the track, none (OPEN) for one that has not ended, and a track of NO_DATA has no characters (R113, R115). -/
def trackShown (o : CaptureOutcome) (t : TrackRec) : TrackEntry :=
  let noStart : Bool := match t.rule.start with
    | some _ => !t.startFound
    | none => !t.taken
  let noData : Bool := noStart || decide (t.status = some .noData ∨ (o ≠ .completed ∧ t.status = none))
  let status : TrackStatus :=
    if noData then .noData else if t.endedBy = some .truncated then .truncated else if t.status = some .lrcBad then .lrcBad
    else if t.parity = true then .parity else .ok
  { track := t.track, status := status, endedBy := t.endedBy, chars := if noData then none else some t.buffer }

/-- The body of the result of a capture that ends with outcome o: the mask it was armed with and an entry for each of its tracks (R115). -/
def captureShown (u : Capture) (o : CaptureOutcome) : CaptureBody :=
  { outcome := o, mask := u.mask, tracks := u.tracks.map (trackShown o) }

/-- The queue after the operation in flight on context c, if any, has ended with this cause (R57, R99, R114, R131): an entry or a
capture makes its result, a chip session its results. -/
def endedOps (c : CtxId) (x : Context) (why : Cause) (q : EventQueue) : EventQueue :=
  let line := x.lineId
  match x.entry, x.capture, x.chip with
  | some e, _, _ => converted q (.entry c) (some e.owner) (some c) line (.entry
      { kind := e.kind, outcome := .ended why, endKey := none, detail := none, digits := if e.kind = .opened then some e.digits else none
        count := if e.kind = .opened then e.digits.length else e.count, ignored := e.ignored, block := none, blockBytes := none })
  | none, some u, _ => converted q (.capture c) (some u.owner) (some c) line (.capture (captureShown u (.ended why)))
  | none, none, some h => endedSession c line h (.ended why) (.ended why) (.ended why) q
  | none, none, none => q

/-- The queue after every context of a list has had its operation end with this cause, in turn. -/
def endedAll (p : Part) (why : Cause) (cs : List CtxId) (q : EventQueue) : EventQueue :=
  cs.foldl (fun q c => endedOps c (p.ctx c) why q) q

/-- A chip session brought to OFF by a change of attachment or of the line: latch and power not wanted, both flags clear (R122, R128, R131, R118). -/
def sessionOff (h : Chip) : Chip :=
  if h.session = .off then h else
  { h with
    session := .off, owner := none, wantedLatch := false, wantedPower := false, discardLate := false, powerSeen := false, atr := []
    atrWait := none, command := [], unitsSent := 0, response := [], overrun := false, respTimer := none }

/-- A context whose operation, if any, has ended with such a cause: no entry, no capture, the session OFF, no holder (R57). -/
def withoutOps (x : Context) : Context :=
  { x with
    holder := none
    keypad := x.keypad.map fun k => if k.entry.isSome then { k with wanted := .opened, entry := none } else k
    reader := x.reader.map fun r =>
      if r.capture.isSome then { r with capture := none, seen := { t1 := false, t2 := false, t3 := false }, discarded := 0 } else r
    chip := x.chip.map sessionOff }

/-- A context that goes from its state to `next` by a change of attachment other than a restart. From ATTACHED its operation has ended, its
control queue is empty, holds and cursor are 0, the late-block flag is clear, a reader's card state is UNKNOWN and no latch or power is
wanted (R30, R54, R57, R116, R118); from any other state nothing else of it changes. -/
def leftFor (next : Attach) (x : Context) : Context :=
  if x.attach = .attached then
    { withoutOps x with
      attach := next, fresh := false, lateBlock := false, controls := [], formHold := 0, latchHold := 0, powerHold := 0, cursor := 0
      reader := (withoutOps x).reader.map fun r => { r with card := .unknown }
      chip := (withoutOps x).chip.map fun h => { h with wantedLatch := false, wantedPower := false } }
  else { x with attach := next }

/-- A context whose drop attaches or restarts (R30, R48, R50, R72, R104, R117, R118): no operation, nothing queued, every key UP in OPEN form, card
state UNKNOWN with an empty tally, the session record as profiled. Attachment, miss count and features are left to the rule. -/
def anew (x : Context) : Context :=
  { x with
    holder := none, lateBlock := false, fresh := false, controls := [], formHold := 0, latchHold := 0, powerHold := 0, cursor := 0
    keypad := x.keypad.map fun k =>
      { k with reported := .opened, wanted := .opened, entry := none, keys := List.replicate 16 { down := false, run := 0 } }
    reader := x.reader.map fun _ =>
      { card := .unknown, capture := none, seen := { t1 := false, t2 := false, t3 := false }, discarded := 0 }
    chip := x.chip.map fun _ =>
      { reportedLatch := .unknown, reportedPower := .unknown, session := .off, owner := none, wantedLatch := false, wantedPower := false
        discardLate := false, powerSeen := false, atr := [], atrWait := none, exchanges := 0, command := [], unitsSent := 0
        response := [], overrun := false, respTimer := none } }

/-! ### The events of a frame mark (R10, R13, R25, R155, R158, R160) -/

/-- A context with every running timer of it one frame down (R13). -/
def ticked (x : Context) : Context :=
  let down (t : Option Nat) := t.map fun n => n - 1
  { x with
    keypad := x.keypad.map fun k => { k with entry := k.entry.map fun e =>
      { e with firstKey := down e.firstKey, interKey := down e.interKey, total := down e.total, blockWait := down e.blockWait } }
    reader := x.reader.map fun r => { r with capture := r.capture.map fun u =>
      { u with armTimer := down u.armTimer, limitTimer := down u.limitTimer } }
    chip := x.chip.map fun h => { h with atrWait := down h.atrWait, respTimer := down h.respTimer } }

/-- The mark counts: the frame counter of line l goes up by 1, wrapping, and the timers of its contexts go down by 1 (R10, R13). -/
abbrev Counted (l : LineId) (p q : Part) : Prop :=
  q.line l = { p.line l with frame := (p.line l).frame + 1, nextSlot := 0 } ∧ (∀ m, m ≠ l → q.line m = p.line m) ∧
  (∀ c, q.ctx c = if (p.ctx c).lineId = some l then ticked (p.ctx c) else p.ctx c) ∧ SamePositions p q ∧ q.queue = p.queue ∧
  q.faults = p.faults ∧ q.link = p.link

/-- The command of an expiry, and its context. -/
def expiryCommand : Expiry → Instr × CtxId
  | .entry c t => (.entryTimerExpiry c t, c)
  | .arm c => (.armTimerExpiry c, c)
  | .captureLimit c => (.captureLimitExpiry c, c)
  | .atrWait c => (.atrWaitExpiry c, c)
  | .response c => (.responseTimeout c, c)

/-- Expiries of line l taken in turn, each as its command takes it (R27, log 4). -/
def Expired (l : LineId) : List Expiry → Part → Part → Prop
  | [], p, q => q = p
  | x :: xs, p, q => ∃ p', Expired l xs p' q ∧
      if (p.ctx (expiryCommand x).2).lineId = some l
      then exec (expiryCommand x).1 { part := p, pending := [] } = .next { part := p', pending := [] } else p' = p

/-- A DROP notice at a swap (R58). -/
def swapNotice (p : Part) (l : LineId) (c : CtxId) (st : Attach) (cause : DropCause) : Rec :=
  { level := 0, pos := none, ctx := some c, line := some l
    body := .drop (((p.ctx c).profile.map (·.address)).getD 0) st cause false none }

/-- The Schedule Store's event at a mark makes q of p (R25, R14, R26, R57, R58). With a schedule pending it becomes active, with N computed anew where k
changes to 1 or more. A context that loses its last slot is PARKED with its operation ended UNSCHEDULED, its loop record, if any, closed; one
that gains its first slot goes from PARKED to WAITING. The results come first, then the DROP notices, both in ascending context number. -/
def Swapped (l : LineId) (p q : Part) : Prop :=
  let ln := p.line l
  match ln.waiting with
  | none => q = p
  | some new =>
    let loses (c : CtxId) : Bool := (p.ctx c).lineId = some l ∧ 0 < ln.active.count (some c) ∧ new.count (some c) = 0 ∧ (p.ctx c).attach ≠ .parked
    let gains (c : CtxId) : Bool := (p.ctx c).lineId = some l ∧ ln.active.count (some c) = 0 ∧ 0 < new.count (some c) ∧ (p.ctx c).attach = .parked
    let counted (c : CtxId) : Context :=
      if new.count (some c) ≠ ln.active.count (some c) ∧ 0 < new.count (some c)
      then rescanned (p.ctx c) ln.rate ln.frameLen (new.count (some c)) else p.ctx c
    let closed (r : LoopRecord) : LoopRecord :=
      if loses r.ctx ∧ (p.ctx r.ctx).attach = .looping then { r with finish := .unscheduled } else r
    sansArming (q.line l) = sansArming { ln with
      active := new, waiting := none
      loop := { ln.loop with records := ln.loop.records.map closed } } ∧
    (∀ m, m ≠ l → q.line m = p.line m) ∧
    (∀ c, q.ctx c =
      if (p.ctx c).lineId ≠ some l then p.ctx c
      else if loses c then leftFor .parked (p.ctx c)
      else if gains c then { counted c with attach := .waiting } else counted c) ∧
    SamePositions p q ∧ q.link = p.link ∧
    Offered ((allCtx.filter fun c => loses c || gains c).map fun c =>
        if loses c then swapNotice p l c .parked .unscheduled else swapNotice p l c .waiting .scheduled)
      { p with queue := endedAll p .unscheduled (allCtx.filter loses) p.queue } q

/-- A LINE notice (R21). -/
def lineRecord (l : LineId) (st : LineState) (why : LineReason) : Rec :=
  { level := 0, pos := none, ctx := none, line := some l, body := .line st why }

/-- The LOOP_RESULT body of a test of this setup that ends with this outcome (R160). -/
def testBody (x : Line) (set : LoopSetup) (o : LoopOutcome) : LoopBody :=
  { outcome := o, setup := set, entryFrame := x.loop.entryFrame, endFrame := x.frame, records := x.loop.records }

/-- A Loop Tester whose test has ended with these results (R153, R160): the setup and the records are gone, the error flag stays. -/
def testOver (t : LoopTester) (b : LoopBody) : LoopTester :=
  { t with state := .noTest, setup := none, entryFrame := none, records := [], lastResults := some b }

/-- A test with this setup ends at the mark with this outcome, or goes on (R158, in the order of its list). -/
def testCheck (t : LoopTester) (set : LoopSetup) : Option LoopOutcome :=
  let verdict (good : LoopOutcome) : Option LoopOutcome := some (if t.errorFlag then .failed else good)
  if t.state = .stopRequested then verdict .stopped
  else if t.records = [] ∨ (set.passLimit = 0 ∧ set.continuous = false) then some .empty
  else if set.stopOnError = true ∧ t.errorFlag = true then some .failed
  else if (∀ r ∈ t.records, r.finish ≠ .running) then verdict .passed
  else none

/-- The Loop Tester's event at a mark makes q of p. A test ACCEPTED enters (R155, R56): the line is TEST, its ATTACHED contexts of the participant
set are LOOPING with fresh loop records in ascending number. A test that runs is checked (R158), and where it ends (R160) its LOOP_RESULT is made
and kept, its contexts go from LOOPING to WAITING, and the line is RUN. A LINE notice tells of the entry and of the end. -/
def Tested (l : LineId) (p q : Part) : Prop :=
  let ln := p.line l
  let others : Prop := (∀ m, m ≠ l → q.line m = p.line m) ∧ SamePositions p q ∧ q.link = p.link
  (ln.loop.state = .noTest → q = p) ∧
  ∀ set, ln.loop.setup = some set →
    let takes (c : CtxId) : Bool := (p.ctx c).lineId = some l ∧ (p.ctx c).attach = .attached ∧ ∀ cs ∈ set.participants, c ∈ cs
    let fresh (c : CtxId) : LoopRecord :=
      { ctx := c, address := ((p.ctx c).profile.map (·.address)).getD 0, slot := 0, passes := 0, finish := .running, error := none }
    (ln.loop.state = .accepted →
      q.line l = { ln with
        state := .test
        loop := { ln.loop with
          state := .inTest, entryFrame := some ln.frame, records := (allCtx.filter takes).map fresh } } ∧
      (∀ c, q.ctx c = if takes c then leftFor .looping (p.ctx c) else p.ctx c) ∧ others ∧
      Offered [lineRecord l .test .testEntered] p q) ∧
    (ln.loop.state = .inTest ∨ ln.loop.state = .stopRequested → match testCheck ln.loop set with
      | none => q = p
      | some o =>
        q.line l = { ln with state := .run, loop := testOver ln.loop (testBody ln set o) } ∧
        (∀ c, q.ctx c = if (p.ctx c).lineId = some l ∧ (p.ctx c).attach = .looping then { p.ctx c with attach := .waiting } else p.ctx c) ∧
        others ∧
        Offered [lineRecord l .run .testEnded]
          { p with queue := converted p.queue (.loop l) none none (some l) (.loop (testBody ln set o)) } q)

/-- The Fault Record after a power-up (R146). -/
def PowerUpFaults (f : FaultRecord) : Prop :=
  f.first = none ∧ f.log = [] ∧ f.style = .shift ∧
  ∀ c : FaultClass, f.classes.get c.index =
    { detect := true, report := c ≠ .unitDamaged ∧ c ≠ .eventDiscard, count := 0, later := false }

/-! ### Conditions of every state -/

/-- Queued records and reservations never exceed 32 (R135). -/
abbrev QueueBound (s : State) : Prop := s.part.queue.records.length + s.part.queue.reservations.length ≤ 32

/-- The Fault Record (R146, R148, R149, R151): the later-fault set is empty while the first-fault record is absent, LINE_DRIVE is always
detected, the log holds at most 10 entries of repeat counts 1..255, and every count is at most 65,535. -/
def FaultsSound (s : State) : Prop :=
  (s.part.faults.first = none → ∀ c : FaultClass, (s.part.faults.classes.get c.index).later = false) ∧
  (s.part.faults.classes.get FaultClass.lineDrive.index).detect = true ∧
  s.part.faults.log.length ≤ 10 ∧
  (∀ e ∈ s.part.faults.log, 1 ≤ e.repeats ∧ e.repeats ≤ 255) ∧
  ∀ c : FaultClass, (s.part.faults.classes.get c.index).count ≤ 65535

/-- A line (R1, R5, R6, R16, R18, R22): its setup is in range, L and P follow from it, every schedule has S entries, and in IDLE no stop and
no schedule is pending. -/
def LineSound (x : Line) : Prop :=
  2 ≤ x.slots ∧ x.slots ≤ 16 ∧ x.pmin ≤ 20000 ∧ x.pmin % 100 = 0 ∧
  x.frameLen = max (16 + 32 * x.slots) (x.pmin * x.rate.kbps / 1000) ∧ x.period = x.frameLen * 1000 / x.rate.kbps ∧
  x.active.length = x.slots ∧ (∀ w, x.waiting = some w → w.length = x.slots) ∧
  (x.state = .idle → x.stopPending = false ∧ x.waiting = none)

def LinesSound (s : State) : Prop := ∀ l, LineSound (s.part.line l)

/-- A record that holds no digit of a PIN: the result of a SECURE entry has no digits, and a KEY notice in MASKED form names no digit key
(R80, R101). -/
def hidesDigits (r : Rec) : Bool :=
  match r.body with
  | .entry b => b.kind == .opened || b.digits.isNone
  | .key .masked (.key n) => 10 ≤ n.val
  | _ => true

/-- No digit value of a SECURE entry is held anywhere, and a digit count never exceeds its max (R82, R88, R101): in the entry records, in the
queue, and in the message being sent. -/
def SecureSound (s : State) : Prop :=
  (∀ c e, (s.part.ctx c).entry = some e → (e.kind = .secure → e.digits = []) ∧ e.digitCount ≤ e.max) ∧
  (∀ r ∈ s.part.queue.records, hidesDigits r = true) ∧
  ∀ t r n, s.part.link.tx = some t → t.what = .record r n → hidesDigits r = true

/-- A context is FREE exactly when it has no profile, it has the working state of its kind and no other (R39), and a profiled context of a line in
IDLE is PARKED (R18, R45). -/
def AttachSound (s : State) : Prop :=
  ∀ c, ((s.part.ctx c).attach = .free ↔ (s.part.ctx c).profile = none) ∧
    ((s.part.ctx c).keypad.isSome = true ↔ (s.part.ctx c).kind = some .keypad) ∧
    ((s.part.ctx c).reader.isSome = true ↔ (s.part.ctx c).kind = some .readerStripe ∨ (s.part.ctx c).kind = some .readerHybrid) ∧
    ((s.part.ctx c).chip.isSome = true ↔ (s.part.ctx c).kind = some .readerHybrid) ∧
    ∀ pr, (s.part.ctx c).profile = some pr → (s.part.line pr.line).state = .idle → (s.part.ctx c).attach = .parked

/-- A keypad pointer names a KEYPAD context and a reader pointer a context of a reader kind (R59). -/
def PointersSound (s : State) : Prop :=
  ∀ i c, ((s.part.position i).keypad = some c → (s.part.ctx c).kind = some .keypad) ∧
    ((s.part.position i).reader = some c → (s.part.ctx c).kind = some .readerStripe ∨ (s.part.ctx c).kind = some .readerHybrid)

/-- Operations, holders and reservations (R62, R63, R139, R140): each operation in flight on a context has its one reservation, or two for a start
and a session, and there is no other; a context has a holder exactly while it has an operation, it has one operation at most, the holder is the
operation's owner, and it is ATTACHED; a line with a loop test accepted or running has its one reservation, is not IDLE, and no context of it has a
holder. -/
def OperationsSound (s : State) : Prop :=
  (∀ c, let x := s.part.ctx c
    let held := s.part.queue.reservations
    held.count (.entry c) = x.entry.isSome.toNat ∧ held.count (.capture c) = x.capture.isSome.toNat ∧
    held.count (.chipStart c) = (decide (x.session = .starting)).toNat ∧ held.count (.chipEnd c) = (decide (x.session ≠ .off)).toNat ∧
    held.count (.exchange c) = (decide (x.session = .sending ∨ x.session = .awaiting)).toNat ∧
    (x.holder = none ↔ x.entry = none ∧ x.capture = none ∧ x.session = .off) ∧
    (x.entry.isSome = true → x.capture = none ∧ x.session = .off) ∧ (x.capture.isSome = true → x.session = .off) ∧
    (∀ e, x.entry = some e → x.holder = some e.owner) ∧ (∀ u, x.capture = some u → x.holder = some u.owner) ∧
    (∀ h, x.chip = some h → h.session ≠ .off → x.holder = h.owner) ∧ (x.holder ≠ none → x.attach = .attached)) ∧
  ∀ l, s.part.queue.reservations.count (.loop l) = (decide ((s.part.line l).loop.state ≠ .noTest)).toNat ∧
    ((s.part.line l).loop.state ≠ .noTest → (s.part.line l).state ≠ .idle ∧
      ∀ c, (s.part.ctx c).lineId = some l → (s.part.ctx c).holder = none)

/-- Profiles and images (R39 to R41, R59): drop addresses 1..15, no two contexts at one line and drop address, the behaviour fields of the kind in
their ranges and no other, and an image in the shape of the kind. -/
def ProfilesSound (s : State) : Prop :=
  AddressesFit s.part ∧
  (∀ c d pc pd, c ≠ d → (s.part.ctx c).profile = some pc → (s.part.ctx d).profile = some pd → ¬ (pc.line = pd.line ∧ pc.address = pd.address)) ∧
  ∀ c pr, (s.part.ctx c).profile = some pr →
    (2 ≤ pr.q ∧ pr.q ≤ 255) ∧ (pr.d.isSome = true ↔ pr.kind = .keypad) ∧ (∀ n ∈ pr.d, 1 ≤ n ∧ n ≤ 100) ∧
    (pr.rules.isSome = true ↔ pr.kind ≠ .keypad) ∧
    (∀ rl ∈ pr.rules, ∀ t ∈ [rl.t1, rl.t2, rl.t3], (∀ b ∈ t.start, b.toNat ≤ 127) ∧ t.ends.length ≤ 2 ∧ (∀ b ∈ t.ends, b.toNat ≤ 127) ∧
      t.count ≤ 112) ∧
    (pr.chipTimeout.isSome = true ↔ pr.kind = .readerHybrid) ∧ (∀ n ∈ pr.chipTimeout, 100 ≤ n ∧ n ≤ 60000) ∧
    (pr.kind = .keypad → ∃ chars lamps, (s.part.ctx c).image = .keypad chars lamps) ∧
    (pr.kind ≠ .keypad → ∃ bezel, (s.part.ctx c).image = .reader bezel)

/-- A schedule, active or pending, names only contexts profiled on its own line (R22, R28). -/
def SchedulesSound (s : State) : Prop :=
  ∀ l c, some c ∈ (s.part.line l).active ∨ (∃ w, (s.part.line l).waiting = some w ∧ some c ∈ w) → (s.part.ctx c).lineId = some l

/-- Attachment goes with slots (R25, R28, R45): a context that is neither FREE nor PARKED is on a line in RUN or TEST with a slot in the active
schedule, and a PARKED one on such a line has none. -/
def ServedSound (s : State) : Prop :=
  ∀ c, ((s.part.ctx c).attach ≠ .free → (s.part.ctx c).attach ≠ .parked →
      ∃ l, (s.part.ctx c).lineId = some l ∧ (s.part.line l).state ≠ .idle ∧ some c ∈ (s.part.line l).active) ∧
    ∀ l, (s.part.ctx c).attach = .parked → (s.part.ctx c).lineId = some l → (s.part.line l).state ≠ .idle → some c ∉ (s.part.line l).active

/-- A position holds a context only if one of its pointers names it (R62). -/
def HoldersNamed (s : State) : Prop :=
  ∀ c i, (s.part.ctx c).holder = some i → (s.part.position i).reader = some c ∨ (s.part.position i).keypad = some c

/-- Every buffer, count and queue of a context is within its size (R14, R30, R72, R82, R104, R117, R118). -/
def BuffersSound (s : State) : Prop :=
  ∀ c, let x := s.part.ctx c
    x.controls.length ≤ 8 ∧ x.formHold ≤ 4 ∧ x.latchHold ≤ 4 ∧ x.powerHold ≤ 4 ∧ x.cursor ≤ 8 ∧
    (∀ k, x.keypad = some k → 1 ≤ k.n ∧ k.n ≤ 255 ∧ k.keys.length = (match k.reported with
      | .opened => 16
      | .masked => 7)) ∧
    (∀ e, x.entry = some e → e.min ≤ e.max ∧ e.max ≤ 32 ∧ e.ignored ≤ 255 ∧ e.block.length ≤ 16) ∧
    (∀ r, x.reader = some r → r.discarded ≤ 255) ∧
    (∀ u, x.capture = some u → ∀ t ∈ u.tracks, t.buffer.length ≤ 112 ∧ (t.state ≠ .ended → t.buffer.length < 112)) ∧
    ∀ h, x.chip = some h → h.atr.length ≤ 33 ∧ h.response.length ≤ 258 ∧ h.command.length ≤ 261 ∧ h.exchanges ≤ 65535

/-- Every block but the Fault Record has the values of a reset with these straps (R1, R22, R30, R39, R59, R135, R136, R153, R161, R164); the
pins the part does not drive keep their level. -/
def ResetValues (pins : StrapPins) (old new : Part) : Prop :=
  (∀ l, new.line l =
    { rate := if pins.strap2 then .r1000 else .r500, slots := 8, pmin := 0, frameLen := 272,
      period := if pins.strap2 then 272 else 544, state := .idle, stopPending := false, frame := 0,
      driverTripped := (old.line l).driverTripped, active := List.replicate 8 none, waiting := none, calls := [], nextSlot := 0
      inSlot := none
      loop := { state := .noTest, setup := none, errorFlag := false, entryFrame := none, records := [], lastResults := none } }) ∧
  (∀ c, new.ctx c =
    { attach := .free, profile := none, miss := 0, holder := none, features := none, lateBlock := false, fresh := false, controls := []
      formHold := 0, latchHold := 0, powerHold := 0, cursor := 0, keypad := none, reader := none, chip := none, image := .blank }) ∧
  (∀ i, new.position i = { reader := none, keypad := none }) ∧
  new.queue = { records := [], reservations := [], levels := #v[4, 4, 4, 3, 5, 5, 3, 3, 2, 2, 1], discards := #v[0, 0, 0, 0, 0],
                sendNumber := 0 } ∧
  new.link.errors = #v[0, 0, 0, 0] ∧ new.link.rts = false ∧ new.link.rx = [] ∧ new.link.inHand = false ∧ new.link.reply = none ∧
  new.link.held = none ∧ new.link.tx = none ∧ new.link.restarting = false ∧ new.link.cts = old.link.cts ∧
  new.link.straps.linkRate = #v[57600, 115200, 230400, 460800].get pins.strap0 ∧ new.link.straps.flow = pins.strap1 ∧
  new.link.straps.lineRate = if pins.strap2 then .r1000 else .r500

end Sys2Proof.Safety
end

