-- ==== Sys2Proof/Certificates/Slice0/Obligations.lean ====
section
/-! DEFINITION. The statements for the provers. A statement about a request is about the state in which the link takes it at once (`Ready`); what
the link does with a request otherwise is stated by itself. A request statement gives the whole next state: the reply, the part but for
the link, and every piece of the part that stays as it was. -/

section

open Sys2Proof Sys2Proof.Machine Sys2Proof.Safety

/-! ### The command queue -/

/-- A step takes the command at the front of the queue and runs it on the state with the queue's rest; with no command waiting, by the model's
choice (log 1), it leaves the state as it is. -/
def Obligations.StepRunsTheFrontCommand : Prop :=
  (∀ (s : State) (c : Instr) (rest : List Instr), s.pending = c :: rest → step s = exec c { s with pending := rest }) ∧
  ∀ s : State, s.pending = [] → step s = .next s

/-- No command stops the part, and none touches the commands that wait. -/
def Obligations.EveryCommandCompletes : Prop :=
  ∀ (i : Instr) (s : State), ∃ p : Part, exec i s = .next { s with part := p }

/-! ### Resets -/

/-- The state right after a supply power-up, for the strap levels and pin levels that log 7 chooses (the manual leaves them to the board):
every block at the values its table gives. -/
def Obligations.ResetState : Prop :=
  ResetValues { strap0 := 0, strap1 := false, strap2 := false } State.reset.part State.reset.part ∧
  PowerUpFaults State.reset.part.faults ∧ State.reset.part.link.phase = .startup ∧ State.reset.part.link.resetKind = .power ∧
  (∀ l, (State.reset.part.line l).driverTripped = false) ∧ State.reset.part.link.cts = false ∧ State.reset.pending = []

/-- A power-up reset, from any state: every block takes its power-up values with the straps read, the Fault Record included; by the supply the
start-up wait begins, unless RESET# is low, and while RESET# is low the part is held in reset. That the assertion of RESET# takes the straps already
is the model's (log 31); they are read again at its release, where the start-up wait begins, every block at its reset values. In any other phase
a release has no effect (log 3). At the end of the start-up wait the receiver hunts, RTS is set as R165 lays down, and POWER_UP is offered with the
reset kind, revision 1, the presence of a first fault and the straps taken. -/
def Obligations.ResetsTakeTheTableValues : Prop :=
  (∀ (s : State) (cause : ResetCause) (pins : StrapPins), ∃ p,
    exec (.powerUpReset cause pins) s = .next { s with part := p } ∧ ResetValues pins s.part p ∧ PowerUpFaults p.faults ∧
    p.link.resetKind = .power ∧ p.link.phase = (if cause = .supply ∧ s.part.link.phase ≠ .held then .startup else .held)) ∧
  (∀ (s : State) (pins : StrapPins),
    (s.part.link.phase = .held → ∃ p, exec (.resetRelease pins) s = .next { s with part := p } ∧ ResetValues pins s.part p ∧
      p.faults = s.part.faults ∧ p.link.resetKind = .power ∧ p.link.phase = .startup) ∧
    (s.part.link.phase ≠ .held → exec (.resetRelease pins) s = .next s)) ∧
  ∀ s : State, s.part.link.phase = .startup → ∃ p, exec .startupWaitEnd s = .next { s with part := p } ∧
    p.link = { s.part.link with
      phase := .running, rx := []
      rts := !s.part.link.restarting && !(s.part.link.straps.flow && s.part.link.inHand && s.part.link.held.isSome) } ∧
    SameLines s.part p ∧ SameContexts s.part p ∧ SamePositions s.part p ∧
    Offered [{ level := 0, pos := none, ctx := none, line := none
               body := .powerUp s.part.link.resetKind 1 s.part.faults.first.isSome s.part.link.straps }] s.part p

/-- RESTART (R168): it is accepted with no items, RTS is negated, a pending request is discarded, and the rest of the part is as it was. It takes
effect at the sending of its reply's last byte or 100 ms after the acceptance, whichever comes first: every block takes its reset values, the Fault
Record is kept whole, and the start-up wait begins with reset kind RESTART. That the reply has no items is the model's choice (log 62). -/
def Obligations.RestartInTwoSteps : Prop :=
  (∀ (s : State) (tag : Byte), s.part.link.phase = .running → s.part.link.restarting = false → s.part.link.inHand = false →
    exec (.restart tag) s = .next { s with part := { s.part with link := { s.part.link with
      restarting := true, held := none, rts := false, inHand := true
      reply := some { tag := tag, kind := 0x11, answer := .accepted [] } } } }) ∧
  ∀ (s : State) (pins : StrapPins), s.part.link.restarting = true →
    ∃ p, ResetValues pins s.part p ∧ p.faults = s.part.faults ∧ p.link.resetKind = .restart ∧ p.link.phase = .startup ∧
      exec (.restartTimeout pins) s = .next { s with part := p } ∧
      ∀ r t, s.part.link.tx = some t → t.what = .reply r → MayFinish s.part.link → exec (.messageSent pins) s = .next { s with part := p }

/-- In reset, in the start-up wait (R162) and after a RESTART was accepted (R168), every message, every byte and every gap is ignored without fault.
R168 says it of later messages; that after the acceptance every byte and every gap is ignored, those of a message begun before it too, is the model's
reading (log 30). -/
def Obligations.DeafLinkIgnoresAll : Prop :=
  ∀ s : State, s.part.link.phase ≠ .running ∨ s.part.link.restarting = true →
    (∀ (tag : Byte) (r : Request), exec (command tag r) s = .next s) ∧
    (∀ bytes : List Byte, exec (.linkMessageReceived bytes) s = .next s) ∧ exec .linkGapTimeout s = .next s

/-! ### Requests and replies -/

/-- Every request taken at once is answered with its tag and its kind byte, in the same event; a refused one leaves the whole part as it was
but for the reply, and neither kind of answer touches the link otherwise. A request whose first field is out of its range (lines, a position, a
context, a record kind, or the line of LINE SETUP, LOAD SCHEDULE or READ SCHEDULE) is refused BAD_FIELD, as the first check of each request's own
rule (R7, R15, R23, R29, R40, R44, R60, R66, R84, R97, R105, R107, R119, R123, R126, R127, R137, R153, R154, R159); for the lines of LINE START and
LINE STOP, for which the manual names no refusal, that is the model's choice (log 19). -/
def Obligations.EveryRequestIsAnswered : Prop :=
  ∀ (s : State) (tag : Byte) (r : Request), Ready s → r ≠ .restart →
    (∃ (p : Part) (a : Answer), exec (command tag r) s = .next (Replied s p tag (requestKind r) a) ∧
      ∀ code field, a = .refused code field → p = s.part) ∧
    (FirstFieldBad r → exec (command tag r) s = .next (Replied s s.part tag (requestKind r) (.refused .badField 1)))

/-- A request arriving while one is in hand becomes the pending request, and nothing else of the part changes but RTS, which with flow control
on is negated until the link can hold a further request. One arriving while another is pending is an OVERFLOW: it is discarded without reply, the
OVERFLOW count goes up, and LINK_FRAME is detected with that detail and no line, context or stamp. The same of a whole good message that arrives as
bytes, whatever its reading: it waits unread, to be answered when it is taken. -/
def Obligations.SecondRequestWaitsThirdOverflows : Prop :=
  (∀ (s : State) (tag : Byte) (r : Request), s.part.link.phase = .running → s.part.link.restarting = false →
    s.part.link.inHand = true →
    (s.part.link.held = none →
      exec (command tag r) s = .next { s with part := { s.part with link := { s.part.link with
        held := some { kind := requestKind r, tag := tag, read := .good r }, rts := !s.part.link.straps.flow } } }) ∧
    (s.part.link.held.isSome = true → ∃ p, exec (command tag r) s = .next { s with part := p } ∧
      p.link = { s.part.link with errors := s.part.link.errors.set 3 (min 65535 (s.part.link.errors[3] + 1)) } ∧
      SameLines s.part p ∧ SameContexts s.part p ∧ SamePositions s.part p ∧
      EventEnds [{ cls := .linkFrame, line := none, ctx := none, stamp := none, detail := some (.link .overflow) }] [] s.part p)) ∧
  ∀ (s : State) (body : List Byte), s.part.link.phase = .running → s.part.link.restarting = false → s.part.link.inHand = true →
    s.part.link.rx = [] → 2 ≤ body.length → body.length ≤ 1200 →
    (s.part.link.held = none →
      exec (.linkMessageReceived (wireMessage body)) s = .next { s with part := { s.part with link := { s.part.link with
        held := some (readMessage body), rts := !s.part.link.straps.flow } } }) ∧
    (s.part.link.held.isSome = true → ∃ p, exec (.linkMessageReceived (wireMessage body)) s = .next { s with part := p } ∧
      p.link = { s.part.link with errors := s.part.link.errors.set 3 (min 65535 (s.part.link.errors[3] + 1)) } ∧
      SameLines s.part p ∧ SameContexts s.part p ∧ SamePositions s.part p ∧
      EventEnds [{ cls := .linkFrame, line := none, ctx := none, stamp := none, detail := some (.link .overflow) }] [] s.part p)

/-! ### The link -/

/-- A whole good message in one row, arriving while the link hunts: the start byte, the length, a body of 2 to 1,200 bytes, the CRC over
length and body. With nothing in hand its request is read from the body and taken at once, its reply made in the same event, and a refused one changes
nothing else. Of a body that is kind, tag and items, the first failure decides (R165): a kind that is no request is UNKNOWN_KIND; bytes that are
no row of items, or the first item whose length does not suit its field, BAD_LENGTH; then the first item of a code that the kind has not or that came
before, BAD_FIELD; then the first field left out that must be there, BAD_FIELD. A good body is the request that `Carries` reads from its items, field
by field. What lengths suit a field is in part the model's (logs 18, 43), as are the forms of the parts of SET INDICATORS (log 17), of
a capture rule (log 57) and of a class setting (log 60), and the numbering of OPEN ENTRY's fields (log 62). -/
def Obligations.GoodMessageIsTaken : Prop :=
  (∀ (s : State) (body : List Byte), Ready s → s.part.link.rx = [] → 2 ≤ body.length → body.length ≤ 1200 →
    let m := readMessage body
    exec (.linkMessageReceived (wireMessage body)) s =
      match m.read with
      | .bad code field => .next (Replied s s.part m.tag m.kind (.refused code field))
      | .good r => exec (command m.tag r) s) ∧
  ∀ (s : State) (kind tag : Byte) (rest : List Byte), Ready s → s.part.link.rx = [] → rest.length ≤ 1198 →
    let refused (code : RefusalCode) (field : Nat) : Prop :=
      exec (.linkMessageReceived (wireMessage (kind :: tag :: rest))) s = .next (Replied s s.part tag kind (.refused code field))
    (requestFields kind.toNat = none → refused .unknownKind 0) ∧
    ∀ fields, requestFields kind.toNat = some fields →
      ((∀ items, rest ≠ itemsBytes items) → refused .badLength 0) ∧
      ∀ items, rest = itemsBytes items →
        (∀ before i after, items = before ++ i :: after → (∀ x ∈ before, ¬ ItemBad fields x) → ItemBad fields i →
          refused .badLength i.1.toNat) ∧
        ((∀ x ∈ items, ¬ ItemBad fields x) →
          let strange (before : List (Byte × List Byte)) (i : Byte × List Byte) : Prop :=
            (¬ ∃ f, HasField fields i.1.toNat f) ∨ ∃ x ∈ before, x.1 = i.1
          (∀ before i after, items = before ++ i :: after → (∀ b x a, before = b ++ x :: a → ¬ strange b x) → strange before i →
            refused .badField i.1.toNat) ∧
          ((∀ b x a, items = b ++ x :: a → ¬ strange b x) →
            let missing (code : Nat) : Prop := (∃ f, HasField fields code (true, f)) ∧ ∀ x ∈ items, x.1.toNat ≠ code
            (∀ code, missing code → (∀ n, n < code → ¬ missing n) → refused .badField code) ∧
            ((∀ code, ¬ missing code) → ∃ r, requestKind r = kind ∧ Carries items r ∧
              exec (.linkMessageReceived (wireMessage (kind :: tag :: rest))) s = exec (command tag r) s)))

/-- Link errors: a whole message whose CRC bytes are not the CRC of its length and body is a CHECK error, a length outside 2..1,200 a LENGTH error at
its second byte, and a gap inside a message a GAP error. The message is discarded without reply, the count of its kind goes up, LINK_FRAME is
detected with that detail, and the receiver hunts. Outside a message a gap has no effect. -/
def Obligations.LinkErrorsDiscardTheMessage : Prop :=
  ∀ s : State, s.part.link.phase = .running → s.part.link.restarting = false →
    (∀ (body : List Byte) (b1 b2 : Byte), s.part.link.rx = [] → 2 ≤ body.length → body.length ≤ 1200 →
      0xC5 :: (num 2 body.length ++ body ++ [b1, b2]) ≠ wireMessage body → ∃ p,
      exec (.linkMessageReceived (0xC5 :: (num 2 body.length ++ body ++ [b1, b2]))) s = .next { s with part := p } ∧
      p.link = { s.part.link with errors := s.part.link.errors.set 0 (min 65535 (s.part.link.errors[0] + 1)) } ∧
      SameLines s.part p ∧ SameContexts s.part p ∧ SamePositions s.part p ∧
      EventEnds [{ cls := .linkFrame, line := none, ctx := none, stamp := none, detail := some (.link .check) }] [] s.part p) ∧
    (∀ b1 b2 : Byte, s.part.link.rx = [] → ¬ (2 ≤ b1.toNat + 256 * b2.toNat ∧ b1.toNat + 256 * b2.toNat ≤ 1200) → ∃ p,
      exec (.linkMessageReceived [0xC5, b1, b2]) s = .next { s with part := p } ∧
      p.link = { s.part.link with errors := s.part.link.errors.set 1 (min 65535 (s.part.link.errors[1] + 1)) } ∧
      SameLines s.part p ∧ SameContexts s.part p ∧ SamePositions s.part p ∧
      EventEnds [{ cls := .linkFrame, line := none, ctx := none, stamp := none, detail := some (.link .length) }] [] s.part p) ∧
    (s.part.link.rx = [] → exec .linkGapTimeout s = .next s) ∧
    (s.part.link.rx ≠ [] → ∃ p, exec .linkGapTimeout s = .next { s with part := p } ∧
      p.link = { s.part.link with rx := [], errors := s.part.link.errors.set 2 (min 65535 (s.part.link.errors[2] + 1)) } ∧
      SameLines s.part p ∧ SameContexts s.part p ∧ SamePositions s.part p ∧
      EventEnds [{ cls := .linkFrame, line := none, ctx := none, stamp := none, detail := some (.link .gap) }] [] s.part p)

/-- MESSAGE_SEND_START, with the transmitter free to start: a waiting reply goes first; else the queued record of the highest level, and of
those the oldest, leaves the queue with the send number, which goes up; with neither, nothing changes. Of the queue nothing else changes. After an
accepted RESTART its reply goes and no record starts. In reset and in the start-up wait, while another message is being sent, or with flow
control on while CTS is negated, none starts. The bytes sent are spelled in `wireMessage`, `replyBody` and `recordBody`, with the body of every kind of
record in `bodyFields`; of their layout, logs 14 to 16, 45, 50, 54, 56, 59 and 61 to 63 name what is the model's reading. -/
def Obligations.ReplyThenHighestRecord : Prop :=
  (∀ s : State, s.part.link.phase ≠ .running ∨ (s.part.link.straps.flow = true ∧ s.part.link.cts = false) ∨ s.part.link.tx.isSome = true →
    exec .messageSendStart s = .next s) ∧
  ∀ s : State, s.part.link.phase = .running → s.part.link.tx = none → (s.part.link.straps.flow = true → s.part.link.cts = true) →
    (∀ r, s.part.link.reply = some r → exec .messageSendStart s = .next { s with part := { s.part with link :=
      { s.part.link with reply := none, tx := some { what := .reply r, bytes := wireMessage (replyBody r), started := 1 } } } }) ∧
    (s.part.link.restarting = true → s.part.link.reply = none → exec .messageSendStart s = .next s) ∧
    (s.part.link.restarting = false → s.part.link.reply = none → ∀ before r after, s.part.queue.records = before ++ r :: after →
      (∀ x ∈ before, x.level < r.level) → (∀ x ∈ after, x.level ≤ r.level) →
      let n := s.part.queue.sendNumber
      exec .messageSendStart s = .next { s with part := { s.part with
        queue := { s.part.queue with records := before ++ after, sendNumber := n + 1 }
        link := { s.part.link with tx := some { what := .record r n, bytes := wireMessage (recordBody r n), started := 1 } } } }) ∧
    (s.part.link.reply = none → s.part.queue.records = [] → exec .messageSendStart s = .next s)

/-- MESSAGE_SENT: the transmitter is free. After a record nothing else changes. After a reply no request is in hand, and the pending request, if
any, is taken in the same event on the state as it then stands; one whose reading is a refusal is answered with it and changes nothing else. While CTS
holds bytes of the message with flow control on, the message does not end, and with no message in transmission the command has no effect (log 3). -/
def Obligations.ReplySentTakesThePending : Prop :=
  (∀ (s : State) (pins : StrapPins) (t : Tx), s.part.link.phase = .running → s.part.link.restarting = false → s.part.link.tx = some t →
    MayFinish s.part.link →
    (∀ r n, t.what = .record r n → exec (.messageSent pins) s =
      .next { s with part := { s.part with link := { s.part.link with tx := none } } }) ∧
    (∀ r, t.what = .reply r → s.part.link.held = none → exec (.messageSent pins) s =
      .next { s with part := { s.part with link := { s.part.link with tx := none, inHand := false, rts := true } } }) ∧
    (∀ r tag q, t.what = .reply r → s.part.link.held = some { kind := requestKind q, tag := tag, read := .good q } →
      exec (.messageSent pins) s =
        exec (command tag q) { s with part := { s.part with link := { s.part.link with tx := none, inHand := false, held := none } } }) ∧
    (∀ r kind tag code field, t.what = .reply r → s.part.link.held = some { kind := kind, tag := tag, read := .bad code field } →
      exec (.messageSent pins) s = .next { s with part := { s.part with link := { s.part.link with
        tx := none, held := none, inHand := true, rts := true
        reply := some { tag := tag, kind := kind, answer := .refused code field } } } })) ∧
  ∀ (s : State) (pins : StrapPins), s.part.link.tx = none ∨ ¬ MayFinish s.part.link → exec (.messageSent pins) s = .next s

/-- The level of CTS is what the pin says. With flow control on its negation holds those bytes of the message in transmission that had not been started:
the number started by then is kept; that it comes with the negation, never goes down and stays within the message's length is the model's (log 9). A
driver fault input is not tripped once its monitor senses no overcurrent. Nothing else changes. -/
def Obligations.PinLevels : Prop :=
  ∀ s : State,
    (exec (.ctsChange .asserted) s = .next { s with part := { s.part with link := { s.part.link with cts := true } } }) ∧
    (∀ n, exec (.ctsChange (.negated n)) s =
      .next { s with part := { s.part with link := { s.part.link with
        cts := false
        tx := if s.part.link.straps.flow = true ∧ s.part.link.cts = true
          then s.part.link.tx.map fun t => { t with started := max t.started (min n t.bytes.length) } else s.part.link.tx } } }) ∧
    (exec (.driverFaultInputCleared .a) s =
      .next { s with part := { s.part with lineA := { s.part.lineA with driverTripped := false } } }) ∧
    (exec (.driverFaultInputCleared .b) s =
      .next { s with part := { s.part with lineB := { s.part.lineB with driverTripped := false } } })

/-! ### The Event Queue -/

/-- A notice of a kind at level 0 is not offered. Otherwise it enters a free place at the level of its kind; in a full queue it takes the
place of the oldest notice of the lowest level if that is lower than its own; else it is discarded. A notice lost is counted at its level, and
EVENT_DISCARD is detected with that level. -/
def Obligations.NoticeAdmission : Prop :=
  ∀ (p : Part) (r : Rec), r.isNotice = true →
    let level := p.queue.levels.get r.body.kind.index
    let r' : Rec := { r with level := level }
    (level = 0 → p.offer r = p) ∧
    (level ≠ 0 → p.queue.used < 32 → p.offer r = { p with queue := { p.queue with records := p.queue.records ++ [r'] } }) ∧
    (level ≠ 0 → 32 ≤ p.queue.used →
      (∀ before old after, p.queue.records = before ++ old :: after → old.isNotice = true → old.level < level →
        (∀ x ∈ before, x.isNotice = true → old.level < x.level) → (∀ x ∈ after, x.isNotice = true → old.level ≤ x.level) →
        p.offer r = ({ p with queue := { p.queue with records := before ++ after ++ [r'] } } : Part).loseNotice old.level) ∧
      ((∀ x ∈ p.queue.records, x.isNotice = true → level ≤ x.level) → p.offer r = p.loseNotice level))

/-- A lost notice adds 1 to the discard count of its level, up to 65,535, and EVENT_DISCARD is detected with the level as detail and no line,
context or stamp. When that is reported, the FAULT notice enters a free place or is discarded and counted, with no further detection. -/
def Obligations.LostNoticeIsCounted : Prop :=
  ∀ (p : Part) (level : Nat) (h : 1 ≤ level ∧ level ≤ 5),
    let d : Detection := { cls := .eventDiscard, line := none, ctx := none, stamp := none, detail := some (.level level) }
    let count (q : EventQueue) (l : Nat) (hl : 1 ≤ l ∧ l ≤ 5) : EventQueue :=
      { q with discards := q.discards.set (l - 1) (min 65535 (q.discards[l - 1] + 1)) }
    (p.loseNotice level).faults = (p.faults.take d).1 ∧
    ((p.faults.take d).2 = none → (p.loseNotice level).queue = count p.queue level h) ∧
    ∀ body, (p.faults.take d).2 = some body → ∀ faultLevel, p.queue.levels.get RecordKind.fault.index = faultLevel →
      (faultLevel = 0 → (p.loseNotice level).queue = count p.queue level h) ∧
      (faultLevel ≠ 0 → p.queue.used < 32 → (p.loseNotice level).queue =
        { count p.queue level h with
          records := p.queue.records ++ [{ level := faultLevel, pos := none, ctx := none, line := none, body := body }] }) ∧
      ∀ hf : 1 ≤ faultLevel ∧ faultLevel ≤ 5, 32 ≤ p.queue.used →
        (p.loseNotice level).queue = count (count p.queue level h) faultLevel hf

/-- A reservation takes a free place, or the place of the oldest notice of the lowest level queued, which is then lost; a queue full of results
and reservations gives no room. -/
def Obligations.ReservationTakesAPlace : Prop :=
  ∀ (p : Part) (r : Reservation),
    (p.queue.used < 32 → p.reserve r = { p with queue := { p.queue with reservations := p.queue.reservations ++ [r] } }) ∧
    (32 ≤ p.queue.used →
      (∀ before old after, p.queue.records = before ++ old :: after → old.isNotice = true →
        (∀ x ∈ before, x.isNotice = true → old.level < x.level) → (∀ x ∈ after, x.isNotice = true → old.level ≤ x.level) →
        p.reserve r = ({ p with queue := { p.queue with records := before ++ after, reservations := p.queue.reservations ++ [r] } }
          : Part).loseNotice old.level) ∧
      ((∀ x ∈ p.queue.records, x.isNotice = false) → p.reserve r = p)) ∧
    (∀ n, p.queue.canReserve n = true ↔ n ≤ (32 - p.queue.used) + (p.queue.records.filter Rec.isNotice).length)

/-- SET LEVELS: POWER_UP keeps 5, a result kind given 0 takes 1, and any other level is taken as given; the reply carries the kind and the level
taken. A kind or a level out of range is refused BAD_FIELD. Nothing else changes, and a notice kind at level 0 is then not queued, not counted
and no fault. -/
def Obligations.SetLevels : Prop :=
  ∀ (s : State) (tag : Byte) (kind level : Nat), Ready s →
    (kind < 11 ∧ level ≤ 5 → ∀ k : Fin 11, k.val = kind →
      let taken := if kind = 5 then 5 else if kind < 4 ∧ level = 0 then 1 else level
      let p : Part := { s.part with queue := { s.part.queue with levels := s.part.queue.levels.set k.val taken } }
      exec (.setLevels tag kind level) s = .next (Replied s p tag 0x24 (.accepted [some (num 1 kind), some (num 1 taken)])) ∧
      (taken = 0 → ∀ r : Rec, r.body.kind.index = k → p.offer r = p)) ∧
    (¬ (kind < 11 ∧ level ≤ 5) → ∃ field, exec (.setLevels tag kind level) s = .next (Replied s s.part tag 0x24 (.refused .badField field)))

/-! ### The Fault Record -/

/-- A detection (R148): dropped at once when its class is not detected; else counted, made the first-fault record or its class put into the
later-fault set, logged, and a FAULT notice made when the class is reported, with the count after it and the first flag. The log (R149) under its
style: a detection equal to the newest entry in class, line and context is a repeat of it, up to 255; another is the newest entry, in SHIFT at the
cost of the oldest of ten, in KEEP_FIRST only while there are fewer than ten; OFF logs nothing and compares nothing. -/
def Obligations.DetectionIsTaken : Prop :=
  (∀ (f : FaultRecord) (d : Detection),
    let row := f.classes.get d.cls.index
    (row.detect = false → f.take d = (f, none)) ∧
    (row.detect = true →
      (f.take d).1.classes = f.classes.set d.cls.index.val
        { row with count := min 65535 (row.count + 1), later := row.later || f.first.isSome } d.cls.index.isLt ∧
      (f.take d).1.first = some (f.first.getD d) ∧ (f.take d).1.style = f.style ∧
      (f.take d).2 = (if row.report then
        some (.fault d.cls d.stamp d.detail (min 65535 (row.count + 1)) f.first.isNone) else none))) ∧
  ∀ (f : FaultRecord) (d : Detection), (f.classes.get d.cls.index).detect = true →
    let log' := (f.take d).1.log
    let entry : LogEntry := { detection := d, repeats := 1 }
    (f.style = .off → log' = f.log) ∧
    (f.style ≠ .off → ∀ before e, f.log = before ++ [e] →
      (e.detection.cls = d.cls ∧ e.detection.line = d.line ∧ e.detection.ctx = d.ctx →
        log' = before ++ [{ e with repeats := min 255 (e.repeats + 1) }]) ∧
      (¬ (e.detection.cls = d.cls ∧ e.detection.line = d.line ∧ e.detection.ctx = d.ctx) →
        (f.log.length < 10 → log' = f.log ++ [entry]) ∧
        (10 ≤ f.log.length → (f.style = .shift → log' = f.log.tail ++ [entry]) ∧ (f.style = .keepFirst → log' = f.log)))) ∧
    (f.style ≠ .off → f.log = [] → log' = [entry])

/-- FAULT SETUP applies every item it carries and keeps the counts, the first-fault record, the later-fault set and the log; the reply carries the
settings of the ten classes and the style. With no item, a class, value or style out of range, a setting that gives no value, or detection of
LINE_DRIVE turned off, it is refused BAD_FIELD and changes nothing. By the model's reading the items apply in order, so that a class named twice takes
the last value (log 20), an empty list is no item (log 30), on and off travel as a flag, 1 and 0 (log 48), and the settings of the reply are one item of
ten pairs (log 60). -/
def Obligations.FaultSetup : Prop :=
  ∀ (s : State) (tag : Byte) (settings : Option (List ClassSetting)) (style : Option Nat), Ready s →
    let list := settings.getD []
    let good := (list ≠ [] ∨ style.isSome = true) ∧ (∀ n ∈ style, n ≤ 2) ∧
      ∀ x ∈ list, x.cls < 10 ∧ (x.detect.isSome ∨ x.report.isSome) ∧ (∀ n ∈ x.detect, n ≤ 1) ∧ (∀ n ∈ x.report, n ≤ 1) ∧
        ¬ (x.cls = 6 ∧ x.detect = some 0)
    let given (i : Nat) (read : ClassSetting → Option Nat) (old : Bool) : Bool :=
      list.foldl (fun b x => if x.cls = i then ((read x).map (· == 1)).getD b else b) old
    (good → ∃ f : FaultRecord,
      exec (.faultSetup tag settings style) s = .next (Replied s { s.part with faults := f } tag 0x25 (.accepted
        [some (f.classes.toList.flatMap fun r => flag r.detect ++ flag r.report), some (num 1 f.style.code)])) ∧
      f.first = s.part.faults.first ∧ f.log = s.part.faults.log ∧ f.style.code = style.getD s.part.faults.style.code ∧
      ∀ i : Fin 10, f.classes.get i =
        { s.part.faults.classes.get i with
          detect := given i.val (·.detect) (s.part.faults.classes.get i).detect
          report := given i.val (·.report) (s.part.faults.classes.get i).report }) ∧
    (¬ good → ∃ field, exec (.faultSetup tag settings style) s = .next (Replied s s.part tag 0x25 (.refused .badField field)))

/-- CLEAR FAULTS: the first-fault record is absent, the later-fault set and the log are empty, every class count is 0, and the settings and the
style are kept; the reply carries the first-fault record and the later-fault set as they stood. By the model's reading the set travels as a list in
ascending number (log 16), a detail is numbered within its class (log 15), and the first-fault record is one item (log 60). -/
def Obligations.ClearFaults : Prop :=
  ∀ (s : State) (tag : Byte), Ready s → ∃ f : FaultRecord,
    exec (.clearFaults tag) s = .next (Replied s { s.part with faults := f } tag 0x27 (.accepted
      [s.part.faults.first.map Detection.entry,
       some ((allClasses.filter fun c => (s.part.faults.classes.get c.index).later).flatMap fun c => num 1 c.index.val)])) ∧
    f.first = none ∧ f.log = [] ∧ f.style = s.part.faults.style ∧
    ∀ i : Fin 10, f.classes.get i = { s.part.faults.classes.get i with count := 0, later := false }

/-- READ FAULTS, STATUS, READ SCHEDULE and READ LOOP RESULTS change nothing, and their replies show the state as it stands. By the model's reading each
bullet of R167 is one item of the STATUS reply (log 14), READ SCHEDULE's slot counts are entries of context number and k (log 39), the settings of READ
FAULTS are flags (log 48), and its later-fault set is a list in ascending number (log 16), with details numbered within their class (log 15); its
first-fault record, its counts and its settings are an item each (log 60); and READ LOOP RESULTS is one item, for each named line a presence byte and the
results (logs 58, 63). -/
def Obligations.ReportsShowTheState : Prop :=
  ∀ (s : State) (tag : Byte), Ready s →
    let f := s.part.faults
    exec (.readFaults tag) s = .next (Replied s s.part tag 0x26 (.accepted
      [f.first.map Detection.entry, some ((allClasses.filter fun c => (f.classes.get c.index).later).flatMap fun c => num 1 c.index.val),
       some (f.log.flatMap fun e => e.detection.entry ++ num 1 e.repeats), some (f.classes.toList.flatMap fun r => num 2 r.count),
       some (f.classes.toList.flatMap fun r => flag r.detect ++ flag r.report), some (num 1 f.style.code)])) ∧
    exec (.status tag) s = .next (Replied s s.part tag 0x10 (.accepted
      [some ([s.part.lineA, s.part.lineB].flatMap fun x =>
        num 1 x.state.code ++ num 4 x.frame.toNat ++ num 2 x.frameLen ++ num 2 x.period),
       some (allCtx.flatMap fun c => let x := s.part.ctx c
        num 1 x.attach.code ++ holderByte x.holder ++ present (x.reader.map fun r => num 1 r.card.code) ++
        present (x.chip.map fun h => num 1 h.session.code) ++ present (x.keypad.map fun k => num 1 k.n)),
       some (allPos.flatMap fun i => num 1 (pointerCode (s.part.position i).reader) ++ num 1 (pointerCode (s.part.position i).keypad)),
       some (num 1 s.part.queue.records.length ++ num 1 s.part.queue.reservations.length ++
        s.part.queue.discards.toList.flatMap (num 2 ·)),
       some (s.part.link.errors.toList.flatMap (num 2 ·))])) ∧
    (∀ l : LineId, let x := s.part.line l
      exec (.readSchedule tag (lineCode l)) s = .next (Replied s s.part tag 0x16 (.accepted
        [some (num 1 x.slots), some (x.active.flatMap fun e => num 1 (pointerCode e)),
         some ((allCtx.filter fun c => 0 < x.active.count (some c)).flatMap fun c => num 1 c.val ++ num 1 (x.active.count (some c))),
         some (flag x.waiting.isSome), x.waiting.map fun w => w.flatMap fun e => num 1 (pointerCode e)]))) ∧
    (∀ lines ≤ 2, exec (.readLoopResults tag lines) s = .next (Replied s s.part tag 0x2A (.accepted
      [some (([LineId.a, .b].filter fun l => Named lines l).flatMap fun l => present ((s.part.line l).loop.lastResults.map LoopBody.entry))])))

/-! ### The lines and their schedules -/

/-- LINE SETUP is checked field by field, the line, then R, then S, and the first field found wrong is the one refused; then the line must be
IDLE. A refused one leaves the whole part as it was. -/
def Obligations.LineSetupChecks : Prop :=
  ∀ (s : State) (tag : Byte) (line rate slots pmin : Nat), Ready s →
    let goodRate := rate = 250 ∨ rate = 500 ∨ rate = 1000 ∨ rate = 2000
    let refused (code : RefusalCode) (field : Nat) := exec (.lineSetup tag line rate slots pmin) s =
      .next (Replied s s.part tag 0x12 (.refused code field))
    (1 < line → refused .badField 1) ∧
    (line ≤ 1 ∧ ¬ goodRate → refused .badField 2) ∧
    (line ≤ 1 ∧ goodRate ∧ ¬ (2 ≤ slots ∧ slots ≤ 16) → refused .badField 3) ∧
    ∀ l, lineCode l = line → goodRate ∧ 2 ≤ slots ∧ slots ≤ 16 →
      ((s.part.line l).state ≠ .idle → refused .wrongState 0) ∧
      ((s.part.line l).state = .idle → ∃ p items,
        exec (.lineSetup tag line rate slots pmin) s = .next (Replied s p tag 0x12 (.accepted items)))

/-- An accepted LINE SETUP: Pmin is clamped to 20,000 and rounded up to a multiple of 100, L = max(16 + 32·S, Pmin·R/1000), P = L·1000/R; the reply
carries the values taken. A change of S re-makes the active schedule as S EMPTY entries; N is computed anew for each keypad of the line that has a
slot. Frame counter, attachment, images and all else stay. By the model's choice each value of the reply is an item (log 62). -/
def Obligations.LineSetupTaken : Prop :=
  ∀ (s : State) (tag : Byte) (l : LineId) (r : BitRate) (slots pmin : Nat), Ready s → 2 ≤ slots → slots ≤ 16 →
    (s.part.line l).state = .idle →
    let x := s.part.line l
    let pm := min 20000 ((pmin + 99) / 100 * 100)
    let len := max (16 + 32 * slots) (pm * r.kbps / 1000)
    let per := len * 1000 / r.kbps
    let active := if slots = x.slots then x.active else List.replicate slots none
    ∃ p, exec (.lineSetup tag (lineCode l) r.kbps slots pmin) s = .next (Replied s p tag 0x12 (.accepted
        [some (num 2 r.kbps), some (num 1 slots), some (num 2 pm), some (num 2 len), some (num 2 per)])) ∧
      p.line l = { x with rate := r, slots := slots, pmin := pm, frameLen := len, period := per, active := active } ∧
      (∀ m, m ≠ l → p.line m = s.part.line m) ∧
      (∀ c, p.ctx c = if (s.part.ctx c).lineId = some l ∧ 0 < active.count (some c)
        then rescanned (s.part.ctx c) r len (active.count (some c)) else s.part.ctx c) ∧
      SamePositions s.part p ∧ p.queue = s.part.queue ∧ p.faults = s.part.faults

/-- LINE START: every named line enters RUN at frame 0 with no stop pending, the slot calls of its first frame taken from its active schedule, its
contexts with a slot go to WAITING, and a LINE notice is offered for each named line, line A first. If a named line is not IDLE it is refused
WRONG_STATE and starts none. LINE STOP is accepted in any state: a named line that is RUN or TEST gets its stop pending, and nothing else changes;
for a line in IDLE, or with a stop pending, it has no effect. By the model's choice the two replies have no item (log 62). -/
def Obligations.LineStartAndStop : Prop :=
  (∀ (s : State) (tag : Byte) (lines : Nat), Ready s → lines ≤ 2 → AddressesFit s.part →
    ((∀ l, Named lines l → (s.part.line l).state = .idle) → ∃ p,
      exec (.lineStart tag lines) s = .next (Replied s p tag 0x13 (.accepted [])) ∧
      (∀ l, p.line l = if Named lines l
        then { s.part.line l with
          state := .run, frame := 0, stopPending := false, calls := frameCalls s.part (s.part.line l).active, nextSlot := 0, inSlot := none }
        else s.part.line l) ∧
      (∀ c, p.ctx c = match (s.part.ctx c).lineId with
        | some l => if Named lines l ∧ 0 < (s.part.line l).active.count (some c) then { s.part.ctx c with attach := .waiting }
          else s.part.ctx c
        | none => s.part.ctx c) ∧
      SamePositions s.part p ∧
      Offered (([LineId.a, .b].filter fun l => Named lines l).map fun l =>
        { level := 0, pos := none, ctx := none, line := some l, body := .line .run .started }) s.part p) ∧
    ((∃ l, Named lines l ∧ (s.part.line l).state ≠ .idle) →
      exec (.lineStart tag lines) s = .next (Replied s s.part tag 0x13 (.refused .wrongState 0)))) ∧
  ∀ (s : State) (tag : Byte) (lines : Nat), Ready s → lines ≤ 2 → ∃ p,
    exec (.lineStop tag lines) s = .next (Replied s p tag 0x14 (.accepted [])) ∧
    (∀ l, p.line l = if Named lines l ∧ (s.part.line l).state ≠ .idle then { s.part.line l with stopPending := true } else s.part.line l) ∧
    SameContexts s.part p ∧ SamePositions s.part p ∧ p.queue = s.part.queue ∧ p.faults = s.part.faults

/-- LOAD SCHEDULE with S entries, each EMPTY or a context profiled on the line. In IDLE the list is active at once (ACTIVE), and N is computed anew
for each keypad whose k it changes to 1 or more; otherwise it is the pending schedule (PENDING), over an earlier one, and no k changes. A line that is
neither A nor B is refused BAD_FIELD, then a wrong number of entries BAD_LENGTH, then an entry that is neither EMPTY nor a context BAD_FIELD, then a
context not profiled on the line BAD_FIELD; a refused one changes nothing. That the last three name the list (field 2) is the model's (log 21). -/
def Obligations.LoadScheduleTaken : Prop :=
  (∀ (s : State) (tag : Byte) (l : LineId) (entries : Schedule), Ready s → entries.length = (s.part.line l).slots →
    (∀ c, some c ∈ entries → (s.part.ctx c).lineId = some l) →
    let x := s.part.line l
    ∃ p, (∀ m, m ≠ l → p.line m = s.part.line m) ∧ SamePositions s.part p ∧ p.queue = s.part.queue ∧ p.faults = s.part.faults ∧
      (x.state = .idle →
        exec (.loadSchedule tag (lineCode l) (entries.map pointerCode)) s =
          .next (Replied s p tag 0x15 (.accepted [some (num 1 (lineCode l)), some (num 1 0)])) ∧
        p.line l = { x with active := entries } ∧
        ∀ c, p.ctx c = if (s.part.ctx c).lineId = some l ∧ entries.count (some c) ≠ x.active.count (some c) ∧ 0 < entries.count (some c)
          then rescanned (s.part.ctx c) x.rate x.frameLen (entries.count (some c)) else s.part.ctx c) ∧
      (x.state ≠ .idle →
        exec (.loadSchedule tag (lineCode l) (entries.map pointerCode)) s =
          .next (Replied s p tag 0x15 (.accepted [some (num 1 (lineCode l)), some (num 1 1)])) ∧
        p.line l = { x with waiting := some entries } ∧ SameContexts s.part p)) ∧
  ∀ (s : State) (tag : Byte) (line : Nat) (list : List Nat), Ready s →
    let refused (code : RefusalCode) (field : Nat) : Prop :=
      exec (.loadSchedule tag line list) s = .next (Replied s s.part tag 0x15 (.refused code field))
    (1 < line → refused .badField 1) ∧
    ∀ l, lineCode l = line →
      (list.length ≠ (s.part.line l).slots → refused .badLength 2) ∧
      (list.length = (s.part.line l).slots →
        (∃ n ∈ list, 16 ≤ n ∧ n ≠ 255) ∨ (∃ c : CtxId, c.val ∈ list ∧ (s.part.ctx c).lineId ≠ some l) → refused .badField 2)

/-! ### Drop contexts -/

/-- DROP PROFILE of a FREE context with line, drop address and kind, and any behaviour fields of the kind (R40 to R42): the context is PARKED with
the reset working state and the blank image of its kind, its behaviour fields as given and brought into range, or at their defaults; N is computed
with k taken as 1 while k is 0. Nothing else of the part changes. By the model's choice of two rules for one track the later counts (log 20), a rule of
a track outside 1 to 3 is refused and an empty rules field is a field given (log 40), and the reply has an item for each field (log 49), a rule in it
beginning with its track (log 57). -/
def Obligations.FirstProfile : Prop :=
  ∀ (s : State) (tag : Byte) (c : CtxId) (l : LineId) (a : Nat) (kind : DropKind) (q d t : Option Nat)
    (given : Option (List RuleField)) (rules : List (Nat × TrackRule)), Ready s →
    (s.part.ctx c).attach = .free → (s.part.ctx c).profile = none → 1 ≤ a → a ≤ 15 →
    (∀ o pr, o ≠ c → (s.part.ctx o).profile = some pr → ¬ (pr.line = l ∧ pr.address = a)) →
    (d.isSome → kind = .keypad) → (given.isSome → kind ≠ .keypad) → (t.isSome → kind = .readerHybrid) →
    readRuleList (given.getD []) = some rules →
    let x := s.part.line l
    let dTaken := max 1 (min 100 (d.getD 20))
    let n := max 1 (min 255 ((dTaken * x.rate.kbps * max 1 (x.active.count (some c)) + x.frameLen - 1) / x.frameLen))
    let std : Rules :=
      { t1 := { start := some 0x25, ends := [0x3F], count := 0 }, t2 := { start := some 0x3B, ends := [0x3F], count := 0 }
        t3 := { start := some 0x3B, ends := [0x3F], count := 0 } }
    let pr : Profile :=
      { line := l, address := a, kind := kind, q := max 2 (min 255 (q.getD 8))
        d := if kind = .keypad then some dTaken else none
        rules := if kind = .keypad then none else some (rules.foldl (fun r y => r.put y.1 y.2) std)
        chipTimeout := if kind = .readerHybrid then some (max 100 (min 60000 (t.getD 5000))) else none }
    let keys : Keypad :=
      { reported := .opened, keys := List.replicate 16 { down := false, run := 0 }, n := n, wanted := .opened, entry := none }
    let card : Reader := { card := .unknown, capture := none, seen := { t1 := false, t2 := false, t3 := false }, discarded := 0 }
    let chip : Chip :=
      { reportedLatch := .unknown, reportedPower := .unknown, session := .off, owner := none, wantedLatch := false, wantedPower := false
        discardLate := false, powerSeen := false, atr := [], atrWait := none, exchanges := 0, command := [], unitsSent := 0
        response := [], overrun := false, respTimer := none }
    let fields : ProfileFields :=
      { line := some (lineCode l), address := some a, kind := some kind.code, q := q, d := d, rules := given, chipTimeout := t }
    ∃ p, exec (.dropProfile tag c.val fields) s = .next (Replied s p tag 0x1E (.accepted
          [some (num 1 c.val), some (num 1 (lineCode l)), some (num 1 a), some (num 1 kind.code), some (num 1 1), some (num 1 pr.q),
           pr.d.map (num 1 ·), pr.rules.map Rules.entries, pr.chipTimeout.map (num 2 ·),
           if kind = .keypad then some (num 1 n) else none])) ∧
      p.ctx c =
        { attach := .parked, profile := some pr, miss := 0, holder := none, features := none, lateBlock := false, fresh := false
          controls := [], formHold := 0, latchHold := 0, powerHold := 0, cursor := 0
          keypad := if kind = .keypad then some keys else none
          reader := if kind = .keypad then none else some card
          chip := if kind = .readerHybrid then some chip else none
          image := if kind = .keypad then .keypad (Vector.replicate 16 0x20) (Vector.replicate 4 .off) else .reader .off } ∧
      SameContextsBut c s.part p ∧ SameLines s.part p ∧ SamePositions s.part p ∧ p.queue = s.part.queue ∧ p.faults = s.part.faults

/-- DROP PROFILE of behaviour fields, with any identity field given at its present value (R43), in every attachment state: the fields given are
brought into range and stored, the miss count follows the new Q, and a keypad has its N computed anew. Attachment, holder, operations, image and
everything else stay; the reply carries what R41 lists. By the model's choice of two rules for one track the later counts (log 20), a rule of a track
outside 1 to 3 is refused, and an empty rules field is a field given (log 40), and the reply has an item for each field (log 49), a rule in it beginning
with its track (log 57). -/
def Obligations.BehaviourProfile : Prop :=
  ∀ (s : State) (tag : Byte) (c : CtxId) (old : Profile) (line address kind q d t : Option Nat) (given : Option (List RuleField))
    (rules : List (Nat × TrackRule)), Ready s → (s.part.ctx c).attach ≠ .free → (s.part.ctx c).profile = some old → 1 ≤ old.address → old.address ≤ 15 →
    (∀ o pr, o ≠ c → (s.part.ctx o).profile = some pr → ¬ (pr.line = old.line ∧ pr.address = old.address)) →
    (∀ n ∈ line, n = lineCode old.line) → (∀ n ∈ address, n = old.address) → (∀ n ∈ kind, n = old.kind.code) →
    (old.d.isSome ↔ old.kind = .keypad) → (old.rules.isSome ↔ old.kind ≠ .keypad) → (old.chipTimeout.isSome ↔ old.kind = .readerHybrid) →
    (d.isSome → old.kind = .keypad) → (given.isSome → old.kind ≠ .keypad) → (t.isSome → old.kind = .readerHybrid) →
    readRuleList (given.getD []) = some rules →
    let x := s.part.ctx c
    let q' := (q.map fun n => max 2 (min 255 n)).getD old.q
    let pr : Profile := { old with
      q := q', d := (d.map fun n => max 1 (min 100 n)).or old.d
      rules := old.rules.map fun r => rules.foldl (fun r y => r.put y.1 y.2) r
      chipTimeout := (t.map fun n => max 100 (min 60000 n)).or old.chipTimeout }
    let y : Context := { x with
      profile := some pr
      miss := if x.attach = .attached then (if q' ≤ x.miss then q' - 1 else x.miss) else if x.attach = .lost then q' else min x.miss q' }
    let ln := s.part.line old.line
    let fields : ProfileFields :=
      { line := line, address := address, kind := kind, q := q, d := d, rules := given, chipTimeout := t }
    ∃ p, exec (.dropProfile tag c.val fields) s = .next (Replied s p tag 0x1E (.accepted
        [some (num 1 c.val), some (num 1 (lineCode old.line)), some (num 1 old.address), some (num 1 old.kind.code), some (num 1 x.attach.code),
         some (num 1 q'), pr.d.map (num 1 ·), pr.rules.map Rules.entries, pr.chipTimeout.map (num 2 ·),
         (p.ctx c).keypad.map fun k => num 1 k.n])) ∧
      p.ctx c = rescanned y ln.rate ln.frameLen (max 1 (ln.active.count (some c))) ∧
      SameContextsBut c s.part p ∧ SameLines s.part p ∧ SamePositions s.part p ∧ p.queue = s.part.queue ∧ p.faults = s.part.faults

/-- DROP PROFILE: the refusals of R40, each in a request that passes the checks before it, and the change of identity fields of a PARKED context (R42,
R28, R61, R69), with behaviour fields or without. A changed line takes the context out of the schedules of the line it leaves; a changed address keeps
them. With the kind kept, only the profile and what follows from it change (the miss count within Q, N of a keypad). A changed kind starts the
whole working state, the features and the image anew, with the behaviour fields given or their defaults, and every pointer of the wrong kind that names
the context becomes none with a POSITION notice, in order of position number. A line and address that another context has refuse a PARKED context's
change and a FREE context's first profile. By the model's choice the miss count stays at a change of kind (log 27), a rules field is read as logs 20 and 40
say, such a clash names the address, field 3 (log 21), and the reply has an item for each field (log 49), a rule in it beginning with its track (log 57). -/
def Obligations.IdentityChange : Prop :=
  (∀ (s : State) (tag : Byte) (c : CtxId), Ready s →
    let blank : ProfileFields :=
      { line := none, address := none, kind := none, q := none, d := none, rules := none, chipTimeout := none }
    let refused (f : ProfileFields) (code : RefusalCode) (field : Nat) : Prop :=
      exec (.dropProfile tag c.val f) s = .next (Replied s s.part tag 0x1E (.refused code field))
    (∀ n, 1 < n → refused { blank with line := some n } .badField 2) ∧
    (∀ n, n = 0 ∨ 15 < n → refused { blank with address := some n } .badField 3) ∧
    (∀ n, 2 < n → refused { blank with kind := some n } .badField 4) ∧
    (∀ rules, (∃ r ∈ rules, ¬ RuleGood r) → refused { blank with rules := some rules } .badField 7) ∧
    ((s.part.ctx c).profile = none → ∀ (l : LineId) (a : Nat) (k : DropKind), 1 ≤ a → a ≤ 15 →
      refused (IdentityFields none (some a) (some k)) .badField 2 ∧ refused (IdentityFields (some l) none (some k)) .badField 3 ∧
      refused (IdentityFields (some l) (some a) none) .badField 4 ∧
      ((s.part.ctx c).attach = .free → (∃ o pr, o ≠ c ∧ (s.part.ctx o).profile = some pr ∧ pr.line = l ∧ pr.address = a) →
        refused (IdentityFields (some l) (some a) (some k)) .badField 3)) ∧
    ∀ old, (s.part.ctx c).profile = some old →
      (∀ n, old.kind ≠ .keypad → refused { blank with d := some n } .badField 6) ∧
      (∀ rules, (∀ r ∈ rules, RuleGood r) → old.kind = .keypad → refused { blank with rules := some rules } .badField 7) ∧
      (∀ n, old.kind ≠ .readerHybrid → refused { blank with chipTimeout := some n } .badField 8) ∧
      ∀ (line : Option LineId) (address : Option Nat) (kind : Option DropKind), (∀ a ∈ address, 1 ≤ a ∧ a ≤ 15) →
        let l := line.getD old.line
        let a := address.getD old.address
        let k := kind.getD old.kind
        ((s.part.ctx c).attach ≠ .free → (s.part.ctx c).attach ≠ .parked → ¬ (l = old.line ∧ a = old.address ∧ k = old.kind) →
          refused (IdentityFields line address kind) .wrongState 0) ∧
        ((s.part.ctx c).attach = .parked → (∃ o pr, o ≠ c ∧ (s.part.ctx o).profile = some pr ∧ pr.line = l ∧ pr.address = a) →
          refused (IdentityFields line address kind) .badField 3)) ∧
  ∀ (s : State) (tag : Byte) (c : CtxId) (old : Profile) (line : Option LineId) (address : Option Nat) (kind' : Option DropKind)
    (q d t : Option Nat) (given : Option (List RuleField)) (rules : List (Nat × TrackRule)), Ready s →
    (s.part.ctx c).attach = .parked → (s.part.ctx c).profile = some old →
    let l := line.getD old.line
    let a := address.getD old.address
    let kind := kind'.getD old.kind
    (∀ n ∈ address, 1 ≤ n ∧ n ≤ 15) →
    (∀ o pr, o ≠ c → (s.part.ctx o).profile = some pr → ¬ (pr.line = l ∧ pr.address = a)) →
    (d.isSome → kind = .keypad) → (given.isSome → kind ≠ .keypad) → (t.isSome → kind = .readerHybrid) →
    readRuleList (given.getD []) = some rules →
    let x := s.part.ctx c
    let keep := kind = old.kind
    let std : Rules :=
      { t1 := { start := some 0x25, ends := [0x3F], count := 0 }, t2 := { start := some 0x3B, ends := [0x3F], count := 0 }
        t3 := { start := some 0x3B, ends := [0x3F], count := 0 } }
    let pr : Profile :=
      { line := l, address := a, kind := kind
        q := (q.map fun n => max 2 (min 255 n)).getD (if keep then old.q else 8)
        d := if kind = .keypad then some ((d.map fun n => max 1 (min 100 n)).getD (if keep then old.d.getD 20 else 20)) else none
        rules := if kind = .keypad then none
          else some (rules.foldl (fun r y => r.put y.1 y.2) (if keep then old.rules.getD std else std))
        chipTimeout := if kind = .readerHybrid
          then some ((t.map fun n => max 100 (min 60000 n)).getD (if keep then old.chipTimeout.getD 5000 else 5000)) else none }
    let keys : Keypad :=
      { reported := .opened, keys := List.replicate 16 { down := false, run := 0 }, n := 1, wanted := .opened, entry := none }
    let card : Reader := { card := .unknown, capture := none, seen := { t1 := false, t2 := false, t3 := false }, discarded := 0 }
    let chip : Chip :=
      { reportedLatch := .unknown, reportedPower := .unknown, session := .off, owner := none, wantedLatch := false, wantedPower := false
        discardLate := false, powerSeen := false, atr := [], atrWait := none, exchanges := 0, command := [], unitsSent := 0
        response := [], overrun := false, respTimer := none }
    let y : Context :=
      if keep then { x with profile := some pr, miss := min x.miss pr.q }
      else
        { attach := .parked, profile := some pr, miss := min x.miss pr.q, holder := none, features := none, lateBlock := false, fresh := false
          controls := [], formHold := 0, latchHold := 0, powerHold := 0, cursor := 0
          keypad := if kind = .keypad then some keys else none
          reader := if kind = .keypad then none else some card
          chip := if kind = .readerHybrid then some chip else none
          image := if kind = .keypad then .keypad (Vector.replicate 16 0x20) (Vector.replicate 4 .off) else .reader .off }
    let ln := s.part.line l
    let empty (w : Schedule) : Schedule := w.map fun e => if e = some c then none else e
    let wrong (z : Position) : Bool := decide (kind ≠ old.kind) && (if kind = .keypad then z.reader == some c else z.keypad == some c)
    let cleared (z : Position) : Position :=
      if wrong z then (if kind = .keypad then { z with reader := none } else { z with keypad := none }) else z
    let pointer : PointerKind := if kind = .keypad then .reader else .keypad
    let fields : ProfileFields :=
      { line := line.map lineCode, address := address, kind := kind'.map DropKind.code, q := q, d := d, rules := given, chipTimeout := t }
    ∃ p, exec (.dropProfile tag c.val fields) s = .next (Replied s p tag 0x1E (.accepted
        [some (num 1 c.val), some (num 1 (lineCode l)), some (num 1 a), some (num 1 kind.code), some (num 1 1), some (num 1 pr.q),
         pr.d.map (num 1 ·), pr.rules.map Rules.entries, pr.chipTimeout.map (num 2 ·), (p.ctx c).keypad.map fun k => num 1 k.n])) ∧
      p.ctx c = rescanned y ln.rate ln.frameLen (max 1 (ln.active.count (some c))) ∧
      (∀ m, p.line m = if m = old.line ∧ l ≠ old.line
        then { s.part.line m with active := empty (s.part.line m).active, waiting := (s.part.line m).waiting.map empty } else s.part.line m) ∧
      (∀ i, p.position i = cleared (s.part.position i)) ∧
      Offered ((allPos.filter fun i => wrong (s.part.position i)).map fun i =>
        { level := 0, pos := some i, ctx := none, line := none
          body := .position pointer c .kindChanged (cleared (s.part.position i)) }) s.part p ∧
      SameContextsBut c s.part p

/-- DROP RELEASE (R44, R28, R61): in PARKED the context becomes FREE with nothing of it left, every schedule entry that names it becomes EMPTY, and
every pointer that names it none, with a POSITION notice for each; in FREE it has no effect; in any other state it is refused WRONG_STATE. By the
model's choice its reply has no item (log 62). -/
def Obligations.DropRelease : Prop :=
  ∀ (s : State) (tag : Byte) (c : CtxId), Ready s →
    let empty (w : Schedule) : Schedule := w.map fun e => if e = some c then none else e
    let noReader (x : Position) : Position := { x with reader := if x.reader = some c then none else x.reader }
    let cleared (x : Position) : Position := { noReader x with keypad := if x.keypad = some c then none else x.keypad }
    let notice (i : PosId) (ptr : PointerKind) (after : Position) : Rec :=
      { level := 0, pos := some i, ctx := none, line := none, body := .position ptr c .released after }
    (∀ pr, (s.part.ctx c).attach = .parked → (s.part.ctx c).profile = some pr → ∃ p,
      exec (.dropRelease tag c.val) s = .next (Replied s p tag 0x1F (.accepted [])) ∧
      p.ctx c =
        { attach := .free, profile := none, miss := 0, holder := none, features := none, lateBlock := false, fresh := false, controls := []
          formHold := 0, latchHold := 0, powerHold := 0, cursor := 0, keypad := none, reader := none, chip := none, image := .blank } ∧
      p.line pr.line = { s.part.line pr.line with
        active := empty (s.part.line pr.line).active, waiting := (s.part.line pr.line).waiting.map empty } ∧
      (∀ m, m ≠ pr.line → p.line m = s.part.line m) ∧ SameContextsBut c s.part p ∧
      (∀ i, p.position i = cleared (s.part.position i)) ∧
      Offered (allPos.flatMap fun i =>
        (if (s.part.position i).reader = some c then [notice i .reader (noReader (s.part.position i))] else []) ++
        (if (s.part.position i).keypad = some c then [notice i .keypad (cleared (s.part.position i))] else [])) s.part p) ∧
    ((s.part.ctx c).attach = .free → (s.part.ctx c).profile = none →
      exec (.dropRelease tag c.val) s = .next (Replied s s.part tag 0x1F (.accepted []))) ∧
    ((s.part.ctx c).attach ≠ .free → (s.part.ctx c).attach ≠ .parked →
      exec (.dropRelease tag c.val) s = .next (Replied s s.part tag 0x1F (.refused .wrongState 0)))

/-! ### Positions and indicators -/

/-- BIND POSITION checks its fields, then that each pointer given names a context of its kind, then that the position holds nothing through either
pointer; the first failure decides. Accepted, it sets the pointers given and nothing else, with no notice; refused, it changes nothing. The first
clause is about the numbers a request may carry: a position outside 1..8, no pointer given, or a pointer that is neither NONE nor a context. By the
model's choice the reply sends the position and the two pointers as three items (log 55), and a refusal names the pointer field at fault (log 21). -/
def Obligations.BindPosition : Prop :=
  (∀ (s : State) (tag : Byte) (pos : Nat) (reader keypad : Option Nat), Ready s →
    ¬ (1 ≤ pos ∧ pos ≤ 8) ∨ (reader = none ∧ keypad = none) ∨ (∃ n, (reader = some n ∨ keypad = some n) ∧ 16 ≤ n ∧ n ≠ 255) →
    ∃ field, exec (.bindPosition tag pos reader keypad) s = .next (Replied s s.part tag 0x17 (.refused .badField field))) ∧
  ∀ (s : State) (tag : Byte) (i : PosId) (reader keypad : Option (Option CtxId)), Ready s →
    let x := s.part.position i
    let kindOf (c : CtxId) := (s.part.ctx c).kind
    let goodReader := ∀ c, reader = some (some c) → kindOf c = some .readerStripe ∨ kindOf c = some .readerHybrid
    let goodKeypad := ∀ c, keypad = some (some c) → kindOf c = some .keypad
    let holds := ∃ c, (x.reader = some c ∨ x.keypad = some c) ∧ (s.part.ctx c).holder = some i
    let command : Instr := .bindPosition tag (i.val + 1) (reader.map pointerCode) (keypad.map pointerCode)
    let refused (code : RefusalCode) (field : Nat) := exec command s = .next (Replied s s.part tag 0x17 (.refused code field))
    ((reader.isSome ∨ keypad.isSome) →
      (¬ goodReader → refused .badField 2) ∧ (goodReader ∧ ¬ goodKeypad → refused .badField 3) ∧
      (goodReader ∧ goodKeypad ∧ holds → refused .busy 0) ∧
      (goodReader ∧ goodKeypad ∧ ¬ holds →
        let y : Position := { reader := reader.getD x.reader, keypad := keypad.getD x.keypad }
        ∃ p, exec command s = .next (Replied s p tag 0x17 (.accepted
            [some (num 1 (i.val + 1)), some (num 1 (pointerCode y.reader)), some (num 1 (pointerCode y.keypad))])) ∧
          p.position i = y ∧ (∀ j, j ≠ i → p.position j = s.part.position j) ∧
          SameLines s.part p ∧ SameContexts s.part p ∧ p.queue = s.part.queue ∧ p.faults = s.part.faults))

/-- SET INDICATORS of the keypad part, the target with no holder or held by this position, and room for a beep (R66 to R68): the text replaces the 16
characters, a character outside 0x20..0x7E as 0x3F and spaces to the end; lamps given take their states; a changed image sets the refresh cursor to
piece 0; a beep, brought into 1..255, joins the control queue of an ATTACHED target and is dropped otherwise. The reader part alone does the same with
its bezel lamp. Nothing else changes. A request with no part or a bad lamp is refused BAD_FIELD; one of a single part with its pointer none NOT_BOUND,
its target held by another position BUSY, its beep not fitting CONTROL_FULL; the first failure decides and nothing changes.
By the model's choice the refusal of a request with no part has field code 0 (log 21), and the reply is one item with an entry of the part, its absent
bytes marked by presence bytes (log 17). -/
def Obligations.KeypadIndicators : Prop :=
  (∀ (s : State) (tag : Byte) (i : PosId) (c : CtxId) (k : KeypadPart) (chars : Vector Byte 16) (lamps : Vector Lamp 4), Ready s →
    (s.part.position i).keypad = some c → (s.part.ctx c).image = .keypad chars lamps →
    (∀ n, k.lamp1 = some n ∨ k.lamp2 = some n ∨ k.lamp3 = some n ∨ k.lamp4 = some n → n ≤ 2) →
    ((s.part.ctx c).holder = none ∨ (s.part.ctx c).holder = some i) →
    (k.beep.isSome → (s.part.ctx c).attach = .attached → (s.part.ctx c).controls.length ≤ 5) →
    let x := s.part.ctx c
    let lamp (n : Option Nat) (old : Lamp) : Lamp := match n with
      | some 0 => .off
      | some 1 => .on
      | some 2 => .blink
      | _ => old
    let lamps' : Vector Lamp 4 := #v[lamp k.lamp1 lamps[0], lamp k.lamp2 lamps[1], lamp k.lamp3 lamps[2], lamp k.lamp4 lamps[3]]
    ∃ p, ∃ chars' : Vector Byte 16,
      (∀ n : Fin 16, chars'.get n = match k.text with
        | none => chars.get n
        | some t => shown t n.val) ∧
      let changed := chars' ≠ chars ∨ lamps' ≠ lamps
      let tens := k.beep.map fun n => max 1 (min 255 n)
      exec (.setIndicators tag (i.val + 1) (some k) none) s = .next (Replied s p tag 0x19 (.accepted
        [some (num 1 c.val ++ flag (decide changed) ++ present (tens.map (num 1 ·)) ++
          present (tens.map fun _ => num 1 (if x.attach = .attached then 0 else 1)))])) ∧
      p.ctx c = { x with
        image := .keypad chars' lamps', cursor := if changed then 0 else x.cursor
        controls := if x.attach = .attached then x.controls ++ (tens.map Control.beep).toList else x.controls } ∧
      SameContextsBut c s.part p ∧ SameLines s.part p ∧ SamePositions s.part p ∧ p.queue = s.part.queue ∧ p.faults = s.part.faults) ∧
  (∀ (s : State) (tag : Byte) (i : PosId) (c : CtxId) (r : ReaderPart) (bezel : Lamp), Ready s →
    (s.part.position i).reader = some c → (s.part.ctx c).image = .reader bezel → (∀ n ∈ r.bezel, n ≤ 2) →
    ((s.part.ctx c).holder = none ∨ (s.part.ctx c).holder = some i) →
    (r.beep.isSome → (s.part.ctx c).attach = .attached → (s.part.ctx c).controls.length ≤ 5) →
    let x := s.part.ctx c
    let bezel' : Lamp := if r.bezel = some 0 then .off else if r.bezel = some 1 then .on else if r.bezel = some 2 then .blink else bezel
    let tens := r.beep.map fun n => max 1 (min 255 n)
    ∃ p, exec (.setIndicators tag (i.val + 1) none (some r)) s = .next (Replied s p tag 0x19 (.accepted
        [some (num 1 c.val ++ flag (decide (bezel' ≠ bezel)) ++ present (tens.map (num 1 ·)) ++
          present (tens.map fun _ => num 1 (if x.attach = .attached then 0 else 1)))])) ∧
      p.ctx c = { x with
        image := .reader bezel', cursor := if bezel' ≠ bezel then 0 else x.cursor
        controls := if x.attach = .attached then x.controls ++ (tens.map Control.beep).toList else x.controls } ∧
      SameContextsBut c s.part p ∧ SameLines s.part p ∧ SamePositions s.part p ∧ p.queue = s.part.queue ∧ p.faults = s.part.faults) ∧
  ∀ (s : State) (tag : Byte) (i : PosId) (k : Option KeypadPart) (r : Option ReaderPart), Ready s →
    let refused (code : RefusalCode) (field : Nat) : Prop :=
      exec (.setIndicators tag (i.val + 1) k r) s = .next (Replied s s.part tag 0x19 (.refused code field))
    let badKeypad : Prop := ∃ z n, k = some z ∧ (z.lamp1 = some n ∨ z.lamp2 = some n ∨ z.lamp3 = some n ∨ z.lamp4 = some n) ∧ 2 < n
    let badReader : Prop := ∃ z n, r = some z ∧ z.bezel = some n ∧ 2 < n
    let stops (pointer : Option CtxId) (beep : Option Nat) : Prop :=
      (pointer = none → refused .notBound 0) ∧
      ∀ c, pointer = some c →
        let held : Prop := (s.part.ctx c).holder ≠ none ∧ (s.part.ctx c).holder ≠ some i
        (held → refused .busy 0) ∧
        (¬ held → beep.isSome = true → (s.part.ctx c).attach = .attached → 6 ≤ (s.part.ctx c).controls.length → refused .controlFull 0)
    (k = none → r = none → refused .badField 0) ∧ (badKeypad → refused .badField 2) ∧ (¬ badKeypad → badReader → refused .badField 3) ∧
    (¬ badKeypad → ¬ badReader → (∀ z, k = some z → r = none → stops (s.part.position i).keypad z.beep) ∧
      ∀ z, k = none → r = some z → stops (s.part.position i).reader z.beep)

/-- SET INDICATORS of both parts is checked for both before either is written (R66): with a pointer none it is refused NOT_BOUND, with either target held
by another position BUSY, with a beep for an ATTACHED target that has 6 or more places of its control queue in use CONTROL_FULL; then neither image
changes and no beep is queued. Otherwise both images are written and both beeps taken, and nothing else changes. The reply has the entry of the
keypad, then that of the reader, in one item (logs 14, 17). -/
def Obligations.BothIndicatorsOrNone : Prop :=
  ∀ (s : State) (tag : Byte) (i : PosId) (k : KeypadPart) (r : ReaderPart), Ready s →
    (∀ n, k.lamp1 = some n ∨ k.lamp2 = some n ∨ k.lamp3 = some n ∨ k.lamp4 = some n ∨ r.bezel = some n → n ≤ 2) →
    let command : Instr := .setIndicators tag (i.val + 1) (some k) (some r)
    let refused (code : RefusalCode) := exec command s = .next (Replied s s.part tag 0x19 (.refused code 0))
    let held (c : CtxId) := (s.part.ctx c).holder ≠ none ∧ (s.part.ctx c).holder ≠ some i
    let full (c : CtxId) (beep : Option Nat) := beep.isSome ∧ (s.part.ctx c).attach = .attached ∧ 6 ≤ (s.part.ctx c).controls.length
    ((s.part.position i).keypad = none ∨ (s.part.position i).reader = none → refused .notBound) ∧
    ∀ kc rc, (s.part.position i).keypad = some kc → (s.part.position i).reader = some rc →
      (held kc ∨ held rc → refused .busy) ∧
      (¬ held kc → ¬ held rc → full kc k.beep ∨ full rc r.beep → refused .controlFull) ∧
      (¬ held kc → ¬ held rc → ¬ full kc k.beep → ¬ full rc r.beep → kc ≠ rc → ∀ (chars : Vector Byte 16) (lamps : Vector Lamp 4) (bezel : Lamp),
        (s.part.ctx kc).image = .keypad chars lamps → (s.part.ctx rc).image = .reader bezel →
        let lamp (n : Option Nat) (old : Lamp) : Lamp := match n with
          | some 0 => .off
          | some 1 => .on
          | some 2 => .blink
          | _ => old
        let lamps' : Vector Lamp 4 := #v[lamp k.lamp1 lamps[0], lamp k.lamp2 lamps[1], lamp k.lamp3 lamps[2], lamp k.lamp4 lamps[3]]
        let bezel' := lamp r.bezel bezel
        let taken (beep : Option Nat) : Option Nat := beep.map fun n => max 1 (min 255 n)
        let joined (c : CtxId) (beep : Option Nat) : List Control :=
          if (s.part.ctx c).attach = .attached then (s.part.ctx c).controls ++ ((taken beep).map Control.beep).toList else (s.part.ctx c).controls
        let entry (c : CtxId) (changed : Bool) (beep : Option Nat) : List Byte :=
          num 1 c.val ++ flag changed ++ present ((taken beep).map (num 1 ·)) ++
            present (beep.map fun _ => num 1 (if (s.part.ctx c).attach = .attached then 0 else 1))
        ∃ p, ∃ chars' : Vector Byte 16,
          (∀ n : Fin 16, chars'.get n = match k.text with
            | none => chars.get n
            | some t => shown t n.val) ∧
          let changed := chars' ≠ chars ∨ lamps' ≠ lamps
          exec command s = .next (Replied s p tag 0x19 (.accepted
            [some (entry kc (decide changed) k.beep ++ entry rc (decide (bezel' ≠ bezel)) r.beep)])) ∧
          p.ctx kc = { s.part.ctx kc with
            image := .keypad chars' lamps', cursor := if changed then 0 else (s.part.ctx kc).cursor, controls := joined kc k.beep } ∧
          p.ctx rc = { s.part.ctx rc with
            image := .reader bezel', cursor := if bezel' ≠ bezel then 0 else (s.part.ctx rc).cursor, controls := joined rc r.beep } ∧
          (∀ c, c ≠ kc → c ≠ rc → p.ctx c = s.part.ctx c) ∧ SameLines s.part p ∧ SamePositions s.part p ∧ p.queue = s.part.queue ∧
          p.faults = s.part.faults)

/-! ### Keypad entries -/

/-- OPEN ENTRY is checked in order, whatever else it carries: its fields by R83 (the kind OPEN or SECURE; min and max 0..32 for OPEN, 4..12 for SECURE,
min at most max; a terminator set given not empty and drawn from ENTER, F1 and F2; an echo flag given 0 or 1), BAD_FIELD; then NOT_BOUND,
NOT_ATTACHED, WRONG_STATE, BUSY, NO_RESULT_ROOM. The first failure decides and nothing changes. The terminators travel as key numbers 10, 14
and 15 (log 16), and a flag out of range is BAD_FIELD (log 18), both the model's reading. -/
def Obligations.OpenEntryChecks : Prop :=
  ∀ (s : State) (tag : Byte) (i : PosId) (f : EntryFields), Ready s →
    let size (n : Nat) : Prop := (f.kind = 0 ∧ n ≤ 32) ∨ (f.kind = 1 ∧ 4 ≤ n ∧ n ≤ 12)
    let good : Prop := f.kind ≤ 1 ∧ size f.min ∧ size f.max ∧ f.min ≤ f.max ∧
      (∀ ks, f.terms = some ks → ks ≠ [] ∧ ∀ k ∈ ks, k = 10 ∨ k = 14 ∨ k = 15) ∧ ∀ n, f.echo = some n → n ≤ 1
    let answers (code : RefusalCode) (field : Nat) : Prop :=
      exec (.openEntry tag (i.val + 1) f) s = .next (Replied s s.part tag 0x1A (.refused code field))
    let refused (code : RefusalCode) : Prop := answers code 0
    (¬ good → ∃ field, 2 ≤ field ∧ answers .badField field) ∧
    (good →
      ((s.part.position i).keypad = none → refused .notBound) ∧
      ∀ c l, (s.part.position i).keypad = some c → (s.part.ctx c).lineId = some l →
        let x := s.part.ctx c
        let open_ := (s.part.line l).state = .run ∧ (s.part.line l).loop.state = .noTest
        (x.attach ≠ .attached → refused .notAttached) ∧
        (x.attach = .attached → ¬ open_ → refused .wrongState) ∧
        (x.attach = .attached → open_ → x.holder ≠ none → refused .busy) ∧
        (Claimable s.part c l → ¬ Room s.part 1 → refused .noResultRoom))

/-- An accepted OPEN ENTRY (R82, R83, R85, R87): one place is reserved, the position is the holder, the prompt is written to the display, the record is
made with its timers, and a SECURE entry arms with the keypad wanted MASKED, its arming count 0 if the keypad reports MASKED (R87) and not counting
otherwise. Nothing else changes. The terminators
travel as key numbers 10, 14 and 15 (log 16), one named twice counts once (log 43), the three timeouts of the reply are one item (log 14), and a timer
not started yet shows its n there (log 44), and min and max are an item each (log 62), all five the model's reading. -/
def Obligations.OpenEntryTaken : Prop :=
  ∀ (s : State) (tag : Byte) (i : PosId) (c : CtxId) (l : LineId) (kp : Keypad) (chars : Vector Byte 16) (lamps : Vector Lamp 4)
    (secure : Bool) (min max : Nat) (terms : Option (List Nat)) (t1 t2 t3 echo : Option Nat) (prompt : Option (List Byte)), Ready s →
    (s.part.position i).keypad = some c → Claimable s.part c l → Room s.part 1 → (s.part.ctx c).keypad = some kp →
    (s.part.ctx c).image = .keypad chars lamps → min ≤ max → (if secure then 4 ≤ min ∧ max ≤ 12 else max ≤ 32) →
    (∀ ks, terms = some ks → ks ≠ [] ∧ ∀ k ∈ ks, k = 10 ∨ k = 14 ∨ k = 15) → (∀ n ∈ echo, n ≤ 1) →
    let x := s.part.ctx c
    let line := s.part.line l
    let set : TermSet := match terms with
      | none => { enter := true, f1 := false, f2 := false }
      | some ks => { enter := ks.contains 10, f1 := ks.contains 14, f2 := ks.contains 15 }
    let e : Entry :=
      { kind := if secure then .secure else .opened, owner := i, min := min, max := max, terms := set, echo := echo = some 1
        state := if secure then .arming else .collecting, digits := [], count := 0, ignored := 0
        arming := if secure ∧ kp.reported = .masked then some 0 else none, firstMs := timeoutTaken t1, interMs := timeoutTaken t2
        firstKey := if secure then none else timerFrames line (timeoutTaken t1), interKey := none
        total := timerFrames line (timeoutTaken t3), blockWait := none, block := [], endKey := none }
    let fields : EntryFields :=
      { kind := if secure then 1 else 0, min := min, max := max, terms := terms, firstKey := t1, interKey := t2, total := t3
        echo := echo, prompt := prompt }
    let times (t : Option Nat) := num 3 (timeoutTaken t) ++ num 3 ((timerFrames line (timeoutTaken t)).getD 0)
    ∃ p, ∃ chars' : Vector Byte 16, (∀ n : Fin 16, chars'.get n = match prompt with
        | none => chars.get n
        | some t => shown t n.val) ∧
      exec (.openEntry tag (i.val + 1) fields) s = .next (Replied s p tag 0x1A (.accepted
        [some (num 1 (i.val + 1)), some (num 1 c.val), some (num 1 (if secure then 1 else 0)), some (num 1 min), some (num 1 max),
         some ((if set.enter then num 1 10 else []) ++ (if set.f1 then num 1 14 else []) ++ (if set.f2 then num 1 15 else [])),
         some (times t1 ++ times t2 ++ times t3)])) ∧
      p.ctx c = { x with
        holder := some i, image := .keypad chars' lamps, cursor := if chars' ≠ chars then 0 else x.cursor
        keypad := some { kp with wanted := if secure then .masked else .opened, entry := some e } } ∧
      SameContextsBut c s.part p ∧ SameLines s.part p ∧ SamePositions s.part p ∧ Reserved [.entry c] s.part p

/-- CANCEL ENTRY and DISARM READER by the holder end the operation WORKSTATION_CANCELLED: its result is made from its reservation, the holder is
released and the record removed; a SECURE entry in CLOSING has its unsent FINISH_BLOCK withdrawn or ABANDON_BLOCK queued, and the late-block flag
set; a capture empties the tally, and its result gives each track the status of R113 (`captureShown`): NO_DATA for one whose status was not received.
With the pointer none they are refused NOT_BOUND; CANCEL ENTRY by another than the holder WRONG_STATE; DISARM READER with no capture WRONG_STATE, and by
another than the holder BUSY. A refused one changes nothing. Of several unsent FINISH_BLOCKs the newest is withdrawn, by the model's deduction (log 25). -/
def Obligations.WorkstationCancels : Prop :=
  (∀ (s : State) (tag : Byte) (i : PosId), Ready s →
    ((s.part.position i).keypad = none →
      exec (.cancelEntry tag (i.val + 1)) s = .next (Replied s s.part tag 0x1B (.refused .notBound 0))) ∧
    ((s.part.position i).reader = none →
      exec (.disarmReader tag (i.val + 1)) s = .next (Replied s s.part tag 0x1D (.refused .notBound 0)))) ∧
  ∀ (s : State) (tag : Byte) (i : PosId) (c : CtxId), Ready s → OperationsSound s →
    let x := s.part.ctx c
    ((s.part.position i).keypad = some c → x.holder ≠ some i →
      exec (.cancelEntry tag (i.val + 1)) s = .next (Replied s s.part tag 0x1B (.refused .wrongState 0))) ∧
    (∀ kp e, (s.part.position i).keypad = some c → x.holder = some i → x.keypad = some kp → kp.entry = some e → ∃ p,
      exec (.cancelEntry tag (i.val + 1)) s = .next (Replied s p tag 0x1B (.accepted
        [some (num 1 (i.val + 1)), some (num 1 c.val), some (num 1 e.state.code)])) ∧
      p.ctx c = { x with
        holder := none, keypad := some { kp with wanted := .opened, entry := none }
        controls := if e.state = .closing then
          (if .finishBlock ∈ x.controls then removeLast (· == .finishBlock) x.controls else joinControl .abandonBlock x.controls)
          else x.controls
        lateBlock := x.lateBlock || decide (e.state = .closing) } ∧
      p.queue = converted s.part.queue (.entry c) (some i) (some c) x.lineId (.entry
        { kind := e.kind, outcome := .workstationCancelled, endKey := none, detail := none
          digits := if e.kind = .opened then some e.digits else none
          count := if e.kind = .opened then e.digits.length else e.count
          ignored := e.ignored, block := none, blockBytes := none }) ∧
      SameContextsBut c s.part p ∧ SameLinesButArming s.part p ∧ SamePositions s.part p ∧ p.faults = s.part.faults) ∧
    ((s.part.position i).reader = some c → x.capture = none →
      exec (.disarmReader tag (i.val + 1)) s = .next (Replied s s.part tag 0x1D (.refused .wrongState 0))) ∧
    (∀ r u, (s.part.position i).reader = some c → x.reader = some r → r.capture = some u →
      (x.holder ≠ some i → exec (.disarmReader tag (i.val + 1)) s = .next (Replied s s.part tag 0x1D (.refused .busy 0))) ∧
      (x.holder = some i → ∃ p,
        exec (.disarmReader tag (i.val + 1)) s = .next (Replied s p tag 0x1D (.accepted
          [some (num 1 (i.val + 1)), some (num 1 c.val), some (num 1 u.state.code)])) ∧
        p.ctx c = { x with
          holder := none
          reader := some { r with capture := none, seen := { t1 := false, t2 := false, t3 := false }, discarded := 0 } } ∧
        p.queue = converted s.part.queue (.capture c) (some i) (some c) x.lineId (.capture (captureShown u .workstationCancelled)) ∧
        SameContextsBut c s.part p ∧ SameLines s.part p ∧ SamePositions s.part p ∧ p.faults = s.part.faults))

/-- A key taken by an entry in COLLECTING (R88 to R91): a digit key of an OPEN entry below max is appended, DIGIT counts for a SECURE entry below max,
BACK removes the last digit, CLEAR empties them, and each stops the first-key timer and restarts the inter-key timer; a digit at max, a digit of
the other kind and BACK at no digits add 1 to the ignored count, up to 255, and change nothing else. -/
def Obligations.KeysInCollecting : Prop :=
  ∀ (p : Part) (c : CtxId) (kp : Keypad) (e : Entry) (l : LineId), (p.ctx c).keypad = some kp → (p.ctx c).lineId = some l →
    let put (e' : Entry) : Part := p.setCtx c { p.ctx c with keypad := some { kp with entry := some e' } }
    let took (e' : Entry) : Entry := { e' with firstKey := none, interKey := timerFrames (p.line l) e.interMs }
    let ignored : Entry := { e with ignored := min 255 (e.ignored + 1) }
    (∀ n : Fin 16, n.val < 10 → p.takePress c e (.key n) =
      put (if e.kind = .opened ∧ e.digits.length < e.max then took { e with digits := e.digits ++ [n.val] } else ignored)) ∧
    p.takePress c e .digit = put (if e.kind = .secure ∧ e.count < e.max then took { e with count := e.count + 1 } else ignored) ∧
    p.takePress c e (.key 12) = put (match e.kind with
      | .opened => if e.digits = [] then ignored else took { e with digits := e.digits.dropLast }
      | .secure => if e.count = 0 then ignored else took { e with count := e.count - 1 }) ∧
    p.takePress c e (.key 11) = put (took { e with digits := [], count := 0 })

/-- The keys that end an entry (R90, R94): CANCEL ends it CUSTOMER_CANCELLED at any digit count; a terminator of its set with min digits or more
completes an OPEN entry, and moves a SECURE one to CLOSING with FINISH_BLOCK queued, its key timers stopped and the block-wait started; a terminator
below min, or a key outside the set, is ignored. How FINISH_BLOCK and ABANDON_BLOCK join a control queue (R34): at its tail, whatever the count; with
all 8 places in use the newest BEEP, or the oldest control if no BEEP is queued, is first removed. How an unsent FINISH_BLOCK leaves it: R98
removes that of the entry, which of several is by the model's deduction the newest (log 25). -/
def Obligations.KeysThatEndAnEntry : Prop :=
  (∀ (p : Part) (c : CtxId) (kp : Keypad) (e : Entry) (l : LineId), (p.ctx c).keypad = some { kp with entry := some e } →
    (p.ctx c).lineId = some l → e.state = .collecting → .entry c ∈ p.queue.reservations →
    let digits := if e.kind = .opened then e.digits.length else e.count
    let body (o : EntryOutcome) (key : Nat) : EntryBody :=
      { kind := e.kind, outcome := o, endKey := some key, detail := none, digits := if e.kind = .opened then some e.digits else none
        count := digits, ignored := e.ignored, block := none, blockBytes := none }
    let ends (q : Part) (o : EntryOutcome) (key : Nat) : Prop :=
      q.queue = converted p.queue (.entry c) (some e.owner) (some c) (some l) (.entry (body o key)) ∧
      q.ctx c = { p.ctx c with holder := none, keypad := some { kp with wanted := .opened, entry := none } } ∧
      SameContextsBut c p q ∧ SameLinesButArming p q ∧ SamePositions p q ∧ q.faults = p.faults
    ends (p.takePress c e (.key 13)) .customerCancelled 13 ∧
    ∀ key : Fin 16, key = 10 ∨ key = 14 ∨ key = 15 →
      let q := p.takePress c e (.key key)
      let inSet := (key = 10 ∧ e.terms.enter) ∨ (key = 14 ∧ e.terms.f1) ∨ (key = 15 ∧ e.terms.f2)
      (¬ inSet ∨ digits < e.min → q = p.setCtx c { p.ctx c with
        keypad := some { kp with entry := some { e with ignored := min 255 (e.ignored + 1) } } }) ∧
      (inSet → e.min ≤ digits → e.kind = .opened → ends q .completed key.val) ∧
      (inSet → e.min ≤ digits → e.kind = .secure →
        let e' : Entry :=
          { e with state := .closing, endKey := some key.val, firstKey := none, interKey := none, block := []
                   blockWait := timerFrames (p.line l) 1000 }
        q = p.setCtx c { p.ctx c with
          keypad := some { kp with entry := some e' }, lateBlock := false, controls := joinControl .finishBlock (p.ctx c).controls })) ∧
  ∀ (b : Control) (queue : List Control),
    (queue.length < 8 → joinControl b queue = queue ++ [b]) ∧
    (8 ≤ queue.length →
      (∀ before n after, queue = before ++ .beep n :: after → (∀ m, Control.beep m ∉ after) → joinControl b queue = before ++ after ++ [b]) ∧
      ((∀ m, Control.beep m ∉ queue) → ∀ oldest rest, queue = oldest :: rest → joinControl b queue = rest ++ [b])) ∧
    ∀ before after, queue = before ++ .finishBlock :: after → .finishBlock ∉ after → removeLast (· == .finishBlock) queue = before ++ after

/-! ### Stripe captures -/

/-- ARM READER (R105, R106): checked in order, with the first failure deciding; accepted, it reserves one place, makes the position the holder, empties
the tally, and arms a capture of the tracks of the mask with the rules of the profile, each track seeking its start code if its rule has one.
Nothing else changes. The track mask is bits, bit i for track i + 1 (log 16), and the timeout and its n are two items of the reply (log 46), both
the model's reading. -/
def Obligations.ArmReader : Prop :=
  ∀ (s : State) (tag : Byte) (i : PosId) (mask : Nat) (timeout : Option Nat), Ready s →
    let refused (code : RefusalCode) (field : Nat) :=
      exec (.armReader tag (i.val + 1) mask timeout) s = .next (Replied s s.part tag 0x1C (.refused code field))
    (mask = 0 ∨ 7 < mask → refused .badField 2) ∧
    (1 ≤ mask → mask ≤ 7 →
      ((s.part.position i).reader = none → refused .notBound 0) ∧
      ∀ c l r rules, (s.part.position i).reader = some c → (s.part.ctx c).lineId = some l → (s.part.ctx c).reader = some r →
        (s.part.ctx c).profile.bind (·.rules) = some rules →
        let x := s.part.ctx c
        let line := s.part.line l
        let runs := line.state = .run ∧ line.loop.state = .noTest
        let set : TrackSet := { t1 := mask % 2 = 1, t2 := mask / 2 % 2 = 1, t3 := mask / 4 = 1 }
        let track (n : Nat) (rule : TrackRule) : TrackRec :=
          { track := n, rule := rule, state := if rule.start.isSome then .seeking else .collecting, endedBy := none
            startFound := false, taken := false, status := none, parity := false, buffer := [] }
        let timer := timerFrames line (timeoutTaken timeout)
        let u : Capture :=
          { state := .armed, owner := i, mask := set, armTimer := timer, limitTimer := none
            tracks := (if set.t1 then [track 1 rules.t1] else []) ++ (if set.t2 then [track 2 rules.t2] else []) ++
              (if set.t3 then [track 3 rules.t3] else []) }
        (x.attach ≠ .attached → refused .notAttached 0) ∧
        (x.attach = .attached → ¬ runs → refused .wrongState 0) ∧
        (x.attach = .attached → runs → x.holder ≠ none ∨ x.session ≠ .off → refused .busy 0) ∧
        (Claimable s.part c l → x.session = .off → ¬ Room s.part 1 → refused .noResultRoom 0) ∧
        (Claimable s.part c l → x.session = .off → Room s.part 1 → ∃ p,
          exec (.armReader tag (i.val + 1) mask timeout) s = .next (Replied s p tag 0x1C (.accepted
            [some (num 1 (i.val + 1)), some (num 1 c.val), some (num 1 mask), some (num 3 (timeoutTaken timeout)),
             some (num 3 (timer.getD 0))])) ∧
          p.ctx c = { x with
            holder := some i
            reader := some { r with capture := some u, seen := { t1 := false, t2 := false, t3 := false }, discarded := 0 } } ∧
          SameContextsBut c s.part p ∧ SameLines s.part p ∧ SamePositions s.part p ∧ Reserved [.capture c] s.part p))

/-! ### The Chip Channel -/

/-- CHIP START (R119, R120): its checks in order, with the first failure deciding and nothing changed: the reader pointer NOT_BOUND, the kind BAD_FIELD
(field 1, log 21), attachment NOT_ATTACHED, the line WRONG_STATE, the holder BUSY, the card WRONG_STATE, the room NO_RESULT_ROOM. With a card INSERTED
or LATCHED and contact power reported off it reserves two places, makes the position holder and owner, wants latch and power on, and enters STARTING
with the answer-to-reset wait of 1,000 ms running. -/
def Obligations.ChipStart : Prop :=
  (∀ (s : State) (tag : Byte) (i : PosId), Ready s →
    let refused (code : RefusalCode) (field : Nat) : Prop :=
      exec (.chipStart tag (i.val + 1)) s = .next (Replied s s.part tag 0x20 (.refused code field))
    ((s.part.position i).reader = none → refused .notBound 0) ∧
    ∀ c l, (s.part.position i).reader = some c → (s.part.ctx c).lineId = some l →
      let x := s.part.ctx c
      let runs : Prop := (s.part.line l).state = .run ∧ (s.part.line l).loop.state = .noTest
      (x.kind ≠ some .readerHybrid → refused .badField 1) ∧
      (x.kind = some .readerHybrid →
        (x.attach ≠ .attached → refused .notAttached 0) ∧ (x.attach = .attached → ¬ runs → refused .wrongState 0) ∧
        (x.attach = .attached → runs → x.holder ≠ none → refused .busy 0))) ∧
  ∀ (s : State) (tag : Byte) (i : PosId) (c : CtxId) (l : LineId) (r : Reader) (h : Chip), Ready s →
    (s.part.position i).reader = some c → Claimable s.part c l → (s.part.ctx c).kind = some .readerHybrid →
    (s.part.ctx c).reader = some r → (s.part.ctx c).chip = some h →
    let wait := timerFrames (s.part.line l) 1000
    let cardIn := (r.card = .inserted ∨ r.card = .latched) ∧ h.reportedPower = .off
    (¬ cardIn → exec (.chipStart tag (i.val + 1)) s = .next (Replied s s.part tag 0x20 (.refused .wrongState 0))) ∧
    (cardIn → ¬ Room s.part 2 → exec (.chipStart tag (i.val + 1)) s = .next (Replied s s.part tag 0x20 (.refused .noResultRoom 0))) ∧
    (cardIn → Room s.part 2 → ∃ p,
      exec (.chipStart tag (i.val + 1)) s = .next (Replied s p tag 0x20 (.accepted
        [some (num 1 (i.val + 1)), some (num 1 c.val), some (num 3 (wait.getD 0))])) ∧
      p.ctx c = { s.part.ctx c with
        holder := some i
        chip := some { h with session := .starting, owner := some i, wantedLatch := true, wantedPower := true, discardLate := false
                              powerSeen := false, atr := [], atrWait := wait, exchanges := 0 } } ∧
      SameContextsBut c s.part p ∧ SameLines s.part p ∧ SamePositions s.part p ∧ Reserved [.chipStart c, .chipEnd c] s.part p)

/-- CHIP EXCHANGE (R123): a command of 4 to 261 bytes in a READY session of the holder reserves one place, adds 1 to the exchange count, and enters
SENDING with the command buffered, no unit sent and the response empty; of any other length it is refused BAD_LENGTH, with the reader pointer none
NOT_BOUND, in any other session state, or at a stripe reader, WRONG_STATE, by another position BUSY. -/
def Obligations.ChipExchange : Prop :=
  ∀ (s : State) (tag : Byte) (i : PosId) (bytes : List Byte), Ready s →
    let n := bytes.length
    let refused (code : RefusalCode) (field : Nat) :=
      exec (.chipExchange tag (i.val + 1) bytes) s = .next (Replied s s.part tag 0x21 (.refused code field))
    (n < 4 ∨ 261 < n → refused .badLength 2) ∧
    (4 ≤ n → n ≤ 261 →
      ((s.part.position i).reader = none → refused .notBound 0) ∧
      (∀ c, (s.part.position i).reader = some c → (s.part.ctx c).chip = none → refused .wrongState 0) ∧
      ∀ c h, (s.part.position i).reader = some c → (s.part.ctx c).chip = some h →
      (h.session ≠ .ready → refused .wrongState 0) ∧
      (h.session = .ready → (s.part.ctx c).holder ≠ some i → refused .busy 0) ∧
      (h.session = .ready → (s.part.ctx c).holder = some i → ¬ Room s.part 1 → refused .noResultRoom 0) ∧
      (h.session = .ready → (s.part.ctx c).holder = some i → Room s.part 1 →
        let number := min 65535 (h.exchanges + 1)
        ∃ p, exec (.chipExchange tag (i.val + 1) bytes) s = .next (Replied s p tag 0x21 (.accepted
            [some (num 1 (i.val + 1)), some (num 1 c.val), some (num 2 number), some (num 2 n), some (num 1 (n / 2 + 1))])) ∧
          p.ctx c = { s.part.ctx c with
            chip := some { h with session := .sending, command := bytes, unitsSent := 0, response := [], overrun := false
                                  exchanges := number } } ∧
          SameContextsBut c s.part p ∧ SameLines s.part p ∧ SamePositions s.part p ∧ Reserved [.exchange c] s.part p))

/-- CHIP STOP by the holder (R126, R128): in STARTING the start fails STOPPED and the session-end reservation is released; otherwise an exchange in
flight ends STOPPED first, and the session ends STOPPED, with the discard-late flag set when an exchange was in flight; the session is OFF, latch and
power are not wanted, and the reader has no holder. With the reader pointer none it is refused NOT_BOUND, with the session OFF, or at a stripe
reader, WRONG_STATE, by another position BUSY. -/
def Obligations.ChipStop : Prop :=
  (∀ (s : State) (tag : Byte) (i : PosId), Ready s →
    ((s.part.position i).reader = none →
      exec (.chipStop tag (i.val + 1)) s = .next (Replied s s.part tag 0x22 (.refused .notBound 0))) ∧
    ∀ c, (s.part.position i).reader = some c → (s.part.ctx c).chip = none →
      exec (.chipStop tag (i.val + 1)) s = .next (Replied s s.part tag 0x22 (.refused .wrongState 0))) ∧
  ∀ (s : State) (tag : Byte) (i : PosId) (c : CtxId) (h : Chip), Ready s → OperationsSound s →
    (s.part.position i).reader = some c → (s.part.ctx c).chip = some h →
    let x := s.part.ctx c
    let q := s.part.queue
    let rec_ (q : EventQueue) (r : Reservation) (b : ChipBody) := converted q r (some i) (some c) x.lineId (.chip b)
    (h.session = .off → exec (.chipStop tag (i.val + 1)) s = .next (Replied s s.part tag 0x22 (.refused .wrongState 0))) ∧
    (h.session ≠ .off → x.holder ≠ some i →
      exec (.chipStop tag (i.val + 1)) s = .next (Replied s s.part tag 0x22 (.refused .busy 0))) ∧
    (h.session ≠ .off → x.holder = some i → ∃ p,
      exec (.chipStop tag (i.val + 1)) s = .next (Replied s p tag 0x22 (.accepted
        [some (num 1 (i.val + 1)), some (num 1 c.val), some (num 1 h.session.code)])) ∧
      p.ctx c = { x with
        holder := none
        chip := some { h with
          session := .off, owner := none, wantedLatch := false, wantedPower := false, atr := [], atrWait := none, command := []
          unitsSent := 0, response := [], overrun := false, respTimer := none
          discardLate := if h.session = .ready then h.discardLate else true } } ∧
      p.queue = (match h.session with
        | .starting => { rec_ q (.chipStart c) (.start .stopped none) with reservations := (q.reservations.erase (.chipStart c)).erase (.chipEnd c) }
        | .ready => rec_ q (.chipEnd c) (.sessionEnd .stopped h.exchanges)
        | _ => rec_ (rec_ q (.exchange c) (.exchange h.exchanges .stopped h.response)) (.chipEnd c) (.sessionEnd .stopped h.exchanges)) ∧
      SameContextsBut c s.part p ∧ SameLines s.part p ∧ SamePositions s.part p ∧ p.faults = s.part.faults)

/-- RELEASE CARD (R127): at an ATTACHED hybrid reader with its session OFF the wanted latch becomes off, and nothing else changes; the reply says whether
it was on. During a session it is refused BUSY, at a stripe reader BAD_FIELD, while not ATTACHED NOT_ATTACHED, and with the reader pointer none NOT_BOUND.
That a reader of the wrong kind names the position (field 1) is the model's (log 21). -/
def Obligations.ReleaseCard : Prop :=
  (∀ (s : State) (tag : Byte) (i : PosId), Ready s → (s.part.position i).reader = none →
    exec (.releaseCard tag (i.val + 1)) s = .next (Replied s s.part tag 0x23 (.refused .notBound 0))) ∧
  ∀ (s : State) (tag : Byte) (i : PosId) (c : CtxId), Ready s → (s.part.position i).reader = some c →
    let x := s.part.ctx c
    let refused (code : RefusalCode) (field : Nat) :=
      exec (.releaseCard tag (i.val + 1)) s = .next (Replied s s.part tag 0x23 (.refused code field))
    (x.kind ≠ some .readerHybrid → refused .badField 1) ∧
    (x.kind = some .readerHybrid → x.attach ≠ .attached → refused .notAttached 0) ∧
    (x.kind = some .readerHybrid → x.attach = .attached → ∀ h, x.chip = some h →
      (h.session ≠ .off → refused .busy 0) ∧
      (h.session = .off → ∃ p,
        exec (.releaseCard tag (i.val + 1)) s = .next (Replied s p tag 0x23 (.accepted
          [some (num 1 (i.val + 1)), some (num 1 c.val), some (flag h.wantedLatch)])) ∧
        p.ctx c = { x with chip := some { h with wantedLatch := false } } ∧
        SameContextsBut c s.part p ∧ SameLines s.part p ∧ SamePositions s.part p ∧ p.queue = s.part.queue ∧ p.faults = s.part.faults))

/-! ### The loop test -/

/-- LOOP START (R154): a pass limit above 4,095, a pattern that is not 4 payloads of 0..65,535, or a participant that is no context profiled on a named
line refuses it BAD_FIELD, as does a flag above 1; by the model's choice the flags come before the participants (log 18), and the first found wrong
names its field (log 21). With every named line RUN with no test and no context of it held, one place is reserved for each, and each line's test is
ACCEPTED with the setup taken, its participant set split by line, and the error flag clear; the last results stay. LOOP STOP (R159): every named line in
TEST has its test STOP_REQUESTED. A named line not so refuses either WRONG_STATE, a held context refuses a start BUSY. By the model's choice a participant
set counts each context once, in ascending number (log 51), and travels so in the reply (log 16), whose setup is five items (log 52). -/
def Obligations.LoopStartAndStop : Prop :=
  ∀ (s : State) (tag : Byte) (lines : Nat), Ready s → lines ≤ 2 →
    (∀ f : LoopFields,
      let refused (field : Nat) := exec (.loopStart tag lines f) s = .next (Replied s s.part tag 0x28 (.refused .badField field))
      let limit := ∀ n ∈ f.passLimit, n ≤ 4095
      let pattern := ∀ ws ∈ f.pattern, ws.length = 4 ∧ ∀ w ∈ ws, w ≤ 65535
      let continuous := ∀ n ∈ f.continuous, n ≤ 1
      let stop := ∀ n ∈ f.stopOnError, n ≤ 1
      let who := ∀ ns ∈ f.participants, ∀ n ∈ ns,
        ∃ c : CtxId, c.val = n ∧ ∃ l, Named lines l ∧ (s.part.ctx c).lineId = some l
      (¬ limit → refused 3) ∧ (limit → ¬ pattern → refused 2) ∧ (limit → pattern → ¬ continuous → refused 4) ∧
      (limit → pattern → continuous → ¬ stop → refused 5) ∧ (limit → pattern → continuous → stop → ¬ who → refused 6)) ∧
    (∀ (pattern : Option (Vector Payload 4)) (limit : Option Nat) (continuous stop : Option Bool) (who : Option (List CtxId)),
      (∀ n ∈ limit, n ≤ 4095) →
      (∀ cs, who = some cs → ∀ c ∈ cs, ∃ l, Named lines l ∧ (s.part.ctx c).lineId = some l) →
      let bit (b : Bool) : Nat := if b then 1 else 0
      let fields : LoopFields :=
        { pattern := pattern.map fun v => v.toList.map BitVec.toNat, passLimit := limit, continuous := continuous.map bit
          stopOnError := stop.map bit, participants := who.map fun cs => cs.map fun c => c.val }
      let v := pattern.getD #v[0x5AA5, 0x0FF0, 0xC33C, 0x9669]
      let set := who.map fun cs => allCtx.filter fun c => cs.contains c
      let setup (l : LineId) : LoopSetup :=
        { pattern := v, passLimit := limit.getD 1, continuous := continuous.getD false, stopOnError := stop.getD false
          participants := set.map fun cs => cs.filter fun c => (s.part.ctx c).lineId = some l }
      let named := [LineId.a, .b].filter fun l => Named lines l
      let refused (code : RefusalCode) := exec (.loopStart tag lines fields) s = .next (Replied s s.part tag 0x28 (.refused code 0))
      let fit := ∀ l, Named lines l → (s.part.line l).state = .run ∧ (s.part.line l).loop.state = .noTest
      let quiet := ∀ l, Named lines l → ∀ c, (s.part.ctx c).lineId = some l → (s.part.ctx c).holder = none
      (¬ fit → refused .wrongState) ∧ (fit → ¬ quiet → refused .busy) ∧
      (fit → quiet → ¬ Room s.part named.length → refused .noResultRoom) ∧
      (fit → quiet → Room s.part named.length → ∃ p,
        exec (.loopStart tag lines fields) s = .next (Replied s p tag 0x28 (.accepted
          [some (num 1 lines), some (v.toList.flatMap fun w => num 2 w.toNat), some (num 2 (limit.getD 1)),
           some (flag (continuous.getD false)), some (flag (stop.getD false)), set.map fun cs => cs.flatMap fun c => num 1 c.val])) ∧
        (∀ l, p.line l = if Named lines l then { s.part.line l with loop := { (s.part.line l).loop with
          state := .accepted, setup := some (setup l), errorFlag := false, entryFrame := none, records := [] } } else s.part.line l) ∧
        SameContexts s.part p ∧ SamePositions s.part p ∧ Reserved (named.map Reservation.loop) s.part p)) ∧
    (let testing (l : LineId) : Prop := (s.part.line l).state = .test ∧
        ((s.part.line l).loop.state = .inTest ∨ (s.part.line l).loop.state = .stopRequested);
      ((∃ l, Named lines l ∧ ¬ testing l) → exec (.loopStop tag lines) s = .next (Replied s s.part tag 0x29 (.refused .wrongState 0))) ∧
      ((∀ l, Named lines l → testing l) → ∃ p,
        exec (.loopStop tag lines) s = .next (Replied s p tag 0x29 (.accepted [some (num 1 lines)])) ∧
        (∀ l, p.line l = if Named lines l then
          { s.part.line l with loop := { (s.part.line l).loop with state := .stopRequested } } else s.part.line l) ∧
        SameContexts s.part p ∧ SamePositions s.part p ∧ p.queue = s.part.queue ∧ p.faults = s.part.faults))

/-! ### Timers -/

/-- Each timer that has reached 0 ends its operation (R93, R108, R109, R122, R125): an entry TIMED_OUT naming the timer, an armed capture ARM_EXPIRED,
a capture in progress INCOMPLETE, a start TIMED_OUT, an exchange TIMED_OUT with its session EXCHANGE_TIMEOUT, the card kept latched and late units to
be discarded. The result is made from its reservation, a capture's with the track statuses of R113 (`captureShown`), and the holder released. By the
model's choice an expiry that is not due has no effect (log 3), an expiry that is due is taken by its own command, before which no slot of the line
starts or ends and no mark or frame end comes (log 5), and of several unsent FINISH_BLOCKs the newest is withdrawn (log 25). -/
def Obligations.ExpiredTimersEndTheirOperations : Prop :=
  ∀ (s : State) (c : CtxId), OperationsSound s →
    let x := s.part.ctx c
    let q := s.part.queue
    let ends (i : Instr) (y : Context) (q' : EventQueue) : Prop := ∃ p, exec i s = .next { s with part := p } ∧ p.ctx c = y ∧
      p.queue = q' ∧ SameContextsBut c s.part p ∧ SameLinesButArming s.part p ∧ SamePositions s.part p ∧ p.faults = s.part.faults ∧
      p.link = s.part.link
    (∀ t kp e, x.keypad = some kp → kp.entry = some e →
      (e.timer t ≠ some 0 → exec (.entryTimerExpiry c t) s = .next s) ∧
      (e.timer t = some 0 → ends (.entryTimerExpiry c t)
        { x with
          holder := none, keypad := some { kp with wanted := .opened, entry := none }
          controls := if e.state = .closing then
            (if .finishBlock ∈ x.controls then removeLast (· == .finishBlock) x.controls else joinControl .abandonBlock x.controls)
            else x.controls
          lateBlock := x.lateBlock || decide (e.state = .closing) }
        (converted q (.entry c) (some e.owner) (some c) x.lineId (.entry
          { kind := e.kind, outcome := .timedOut, endKey := none, detail := some (.timer t)
            digits := if e.kind = .opened then some e.digits else none
            count := if e.kind = .opened then e.digits.length else e.count
            ignored := e.ignored, block := none, blockBytes := none })))) ∧
    (∀ r u, x.reader = some r → r.capture = some u →
      let done : Context := { x with
        holder := none
        reader := some { r with capture := none, seen := { t1 := false, t2 := false, t3 := false }, discarded := 0 } }
      (u.state = .armed → u.armTimer = some 0 → ends (.armTimerExpiry c) done
        (converted q (.capture c) (some u.owner) (some c) x.lineId (.capture (captureShown u .armExpired)))) ∧
      (u.state = .capturing → u.limitTimer = some 0 → ends (.captureLimitExpiry c) done
        (converted q (.capture c) (some u.owner) (some c) x.lineId (.capture (captureShown u .incomplete)))) ∧
      (u.armTimer ≠ some 0 → exec (.armTimerExpiry c) s = .next s) ∧
      (u.limitTimer ≠ some 0 → exec (.captureLimitExpiry c) s = .next s)) ∧
    (∀ h, x.chip = some h →
      let off : Chip := { h with
        session := .off, owner := none, wantedPower := false, atr := [], atrWait := none, command := [], unitsSent := 0, response := []
        overrun := false, respTimer := none, discardLate := true }
      (h.session = .starting → h.atrWait = some 0 → ends (.atrWaitExpiry c) { x with holder := none, chip := some { off with wantedLatch := false } }
        { converted q (.chipStart c) h.owner (some c) x.lineId (.chip (.start .timedOut none)) with
          reservations := (q.reservations.erase (.chipStart c)).erase (.chipEnd c) }) ∧
      (h.session = .awaiting → h.respTimer = some 0 → ends (.responseTimeout c) { x with holder := none, chip := some off }
        (converted (converted q (.exchange c) h.owner (some c) x.lineId (.chip (.exchange h.exchanges .timedOut h.response)))
          (.chipEnd c) h.owner (some c) x.lineId (.chip (.sessionEnd .exchangeTimeout h.exchanges)))) ∧
      (h.session ≠ .starting ∨ h.atrWait ≠ some 0 → exec (.atrWaitExpiry c) s = .next s) ∧
      (h.session ≠ .awaiting ∨ h.respTimer ≠ some 0 → exec (.responseTimeout c) s = .next s)) ∧
    ∀ l, ¬ NoExpiryDue s.part l → (∀ i, exec (.slotStart l i) s = .next s) ∧ (∀ i up, exec (.slotCompletion l i up) s = .next s) ∧
      (∀ first order, exec (.frameMark l first order) s = .next s) ∧ exec (.stoppedFrameEnd l) s = .next s

/-! ### Slots -/

/-- SLOT_START (R3, R4, R31 to R33, R35 to R38, R156): in the frame's order, which EMPTY slots pass of themselves (log 6), a slot that names a context
carries its call of the frame and one downstream unit, chosen by the first case that holds: the loop sequence in LOOPING; RESYNC in WAITING and LOST;
POLL in MISMATCH; in ATTACHED a form control that is due, then latch before power, then the oldest queued control, which leaves the queue, then the
next unit of a chip command, then the next piece of the refresh set, a lamp above the reported count shown OFF, after which the cursor moves on
(at the slot's start, log 11), and POLL with none. An EMPTY slot is quiet. The word sent is spelled in `downWord`, and the check of every word, up or
down, in `wireUnit` (R170). That a slot is marked as one of the loop sequence (log 23), and as carrying the SET_FORM of the entry now arming (log 24), is
the model's reading. -/
def Obligations.SlotStartChoosesTheUnit : Prop :=
  (∀ (kind : BitVec 4) (payload : Payload), unitWord kind payload = wireUnit kind payload) ∧
  ∀ (s : State) (l : LineId) (i : Nat), SlotNext s.part l i →
    let ln := s.part.line l
    let kept (p : Part) : Prop := (∀ m, m ≠ l → p.line m = s.part.line m) ∧ SamePositions s.part p ∧ p.queue = s.part.queue ∧
      p.faults = s.part.faults ∧ p.link = s.part.link
    (ln.active[i]? = some none → ∃ p, exec (.slotStart l i) s = .next { s with part := p } ∧ p.line l = { ln with nextSlot := i + 1 } ∧
      SameContexts s.part p ∧ kept p) ∧
    ∀ c, ln.active[i]? = some (some c) →
      let x := s.part.ctx c
      let agrees (r : Reported) (w : Bool) : Prop := (r = .on ∧ w = true) ∨ (r = .off ∧ w = false)
      let formDue (k : Keypad) : Prop := k.wanted ≠ k.reported ∧ x.formHold = 0
      let latchDue (h : Chip) : Prop := ¬ agrees h.reportedLatch h.wantedLatch ∧ x.latchHold = 0
      let powerDue (h : Chip) : Prop := agrees h.reportedLatch h.wantedLatch ∧ ¬ agrees h.reportedPower h.wantedPower ∧ x.powerHold = 0
      let noForm : Prop := ∀ k, x.keypad = some k → ¬ formDue k
      let noneDue : Prop := noForm ∧ ∀ h, x.chip = some h → ¬ latchDue h ∧ ¬ powerDue h
      let idle : Prop := noneDue ∧ x.controls = [] ∧ ∀ h, x.chip = some h → h.session ≠ .sending
      let inSet (kind : DropKind) (f : Features) (piece : Nat) : Prop :=
        if kind = .keypad then (piece ≤ 7 ∧ f.display = true) ∨ (piece = 8 ∧ 1 ≤ f.lamps) else piece = 0 ∧ 1 ≤ f.lamps
      ∃ p run, exec (.slotStart l i) s = .next { s with part := p } ∧ p.line l = { ln with nextSlot := i + 1, inSlot := some run } ∧
        SameContextsBut c s.part p ∧ kept p ∧
        run.index = i ∧ run.ctx = c ∧ (∀ b, ln.calls[i]? = some b → run.call = b) ∧ run.word = downWord run.unit ∧
        run.fromLoop = decide (x.attach = .looping) ∧
        (run.forEntry = true ↔ run.unit = .control (.setForm .masked) ∧ ∃ e, x.entry = some e ∧ e.state = .arming) ∧
        let sends (u : DownUnit) (y : Context) : Prop := run.unit = u ∧ p.ctx c = y
        (x.attach = .looping → ∀ set before r after, ln.loop.setup = some set → ln.loop.records = before ++ r :: after → r.ctx = c →
          (∀ y ∈ before, y.ctx ≠ c) → sends
            (if set.continuous = false ∧ set.passLimit = 0 then .poll
            else if r.slot = 0 then .control .loopEnter
            else if set.continuous = true ∨ r.slot ≤ 4 * set.passLimit
              then .loopPattern (set.pattern.get ⟨(r.slot - 1) % 4, Nat.mod_lt _ (by decide)⟩)
            else if r.slot = 4 * set.passLimit + 1 then .control .loopExit else .poll) x) ∧
        (x.attach = .waiting ∨ x.attach = .lost → sends .resync x) ∧
        (x.attach = .mismatch → sends .poll x) ∧
        (x.attach = .attached → ∀ k, x.keypad = some k → formDue k → sends (.control (.setForm k.wanted)) x) ∧
        (x.attach = .attached → noForm → ∀ h, x.chip = some h →
          (latchDue h → sends (.control (if h.wantedLatch then .latch else .unlatch)) x) ∧
          (powerDue h → sends (.control (if h.wantedPower then .powerOn else .powerOff)) x)) ∧
        (x.attach = .attached → noneDue → ∀ b rest, x.controls = b :: rest → sends (.control b) { x with controls := rest }) ∧
        (x.attach = .attached → noneDue → x.controls = [] → ∀ h, x.chip = some h → h.session = .sending →
          (∀ b1 b2, h.command[2 * h.unitsSent]? = some b1 → h.command[2 * h.unitsSent + 1]? = some b2 → sends (.chipData b1 b2) x) ∧
          (∀ b, h.command[2 * h.unitsSent]? = some b → h.command[2 * h.unitsSent + 1]? = none → sends (.chipEnd (some b)) x) ∧
          (h.command[2 * h.unitsSent]? = none → sends (.chipEnd none) x)) ∧
        (x.attach = .attached → idle → x.features = none → sends .poll x) ∧
        (x.attach = .attached → idle → ∀ kind f, x.kind = some kind → x.features = some f →
          ((∀ piece, ¬ inSet kind f piece) → sends .poll x) ∧
          (∀ bezel, kind ≠ .keypad → x.image = .reader bezel → inSet kind f 0 →
            sends (.refreshLamps bezel .off .off .off) { x with cursor := 0 }) ∧
          (∀ chars lamps, kind = .keypad → x.image = .keypad chars lamps → x.cursor ≤ 8 → ∀ piece : Fin 9, inSet kind f piece.val →
            (∀ j, inSet kind f j → if x.cursor ≤ piece.val then j < x.cursor ∨ piece.val ≤ j else j < x.cursor ∧ piece.val ≤ j) →
            let lamp (n : Nat) (z : Lamp) : Lamp := if n ≤ f.lamps then z else .off
            sends
              (if h : piece.val < 8
              then .refreshText (decide (piece.val = 0)) (chars.get ⟨2 * piece.val, by omega⟩) (chars.get ⟨2 * piece.val + 1, by omega⟩)
              else .refreshLamps (lamp 1 lamps[0]) (lamp 2 lamps[1]) (lamp 3 lamps[2]) (lamp 4 lamps[3]))
              { x with cursor := if piece.val = 8 then 0 else piece.val + 1 }))

/-- A silent or a damaged slot (R11, R51, R52, R55), whatever the slot carried. Of an ATTACHED context on a line in RUN it adds 1 to the miss count; on a
line in TEST the count is held. At Q the context is LOST: its operation, if any, ends DROP_LOST with its result, its control queue is empty and its
late-block flag clear, a reader's card state is UNKNOWN with its CARD notice, reported latch and power UNKNOWN in it too (log 26), DROP_LOST is recorded
with Q as detail, and a DROP notice comes last. In WAITING, LOST and MISMATCH nothing changes. A damaged one is first recorded as UNIT_DAMAGED with the
slot index. A completion that leaves a SECURE entry in ARMING also counts for it, which `ScanIsDebounced` states. A received unit other than HELLO in
WAITING, LOST and MISMATCH is discarded without fault (R46). A completion that reaches a context FREE or PARKED by then does nothing (log 12), nor does
one that reaches a LOOPING context after a unit that was none of the loop sequence, but for UNIT_DAMAGED (log 23). Where the slot carried a command unit
the stream moves on (`streamed`), the command kept in AWAITING by the model's choice (log 47). -/
def Obligations.SilentSlotMissesThenLoses : Prop :=
  (∀ (s : State) (l : LineId) (i start : Nat) (run : SlotRun) (pr : Profile) (kind : BitVec 4) (w : Payload), SlotEnds s l i run pr →
    OperationsSound s → start < 4 → kind ≠ 1 →
    (s.part.ctx run.ctx).attach = .waiting ∨ (s.part.ctx run.ctx).attach = .lost ∨ (s.part.ctx run.ctx).attach = .mismatch →
    exec (.slotCompletion l i (.unit start 24 (unitWord kind w))) s =
      .next { s with part := s.part.setLine l { s.part.line l with inSlot := none } }) ∧
  (∀ (s : State) (l : LineId) (i : Nat) (run : SlotRun) (up : Upstream), (s.part.line l).inSlot = some run → run.index = i →
    NoExpiryDue s.part l → OperationsSound s →
    let x := s.part.ctx run.ctx
    let ends (p : Part) : Prop := exec (.slotCompletion l i up) s = .next { s with part := p }
    let ended : Part := s.part.setLine l { s.part.line l with inSlot := none }
    (x.attach = .free ∨ x.attach = .parked → ends ended) ∧
    (x.attach = .looping → run.fromLoop = false → (¬ Damaged up → ends ended) ∧
      (Damaged up → x.lineId = some l → ∃ p, ends p ∧ SameLines ended p ∧ SameContexts ended p ∧ SamePositions ended p ∧ p.link = s.part.link ∧
        EventEnds [{ cls := .unitDamaged, line := some l, ctx := some run.ctx, stamp := some (s.part.line l).frame, detail := some (.slot i) }] []
          s.part p))) ∧
  ∀ (s : State) (l : LineId) (i : Nat) (run : SlotRun) (pr : Profile) (up : Upstream) (early : List Detection), SlotEnds s l i run pr →
    OperationsSound s →
    let c := run.ctx
    let x := s.part.ctx c
    let ln := s.part.line l
    let at_ (cls : FaultClass) (detail : Detail) : Detection :=
      { cls := cls, line := some l, ctx := some c, stamp := some ln.frame, detail := some detail }
    (Silent up ∧ early = []) ∨ (Damaged up ∧ early = [at_ .unitDamaged (.slot i)]) →
    let y := streamed ln pr run.unit (stepped run.unit x)
    let ends (z : Context) (p : Part) : Prop :=
      exec (.slotCompletion l i up) s = .next { s with part := p } ∧ p.ctx c = z ∧ p.line l = { ln with inSlot := none } ∧
      (∀ m, m ≠ l → p.line m = s.part.line m) ∧ SameContextsBut c s.part p ∧ SamePositions s.part p ∧ p.link = s.part.link
    (x.attach = .waiting ∨ x.attach = .lost ∨ x.attach = .mismatch → ∃ p, ends x p ∧ EventEnds early [] s.part p) ∧
    (x.attach = .attached →
      (NotArming x → ln.state = .test → ∃ p, ends y p ∧ EventEnds early [] s.part p) ∧
      (NotArming x → ln.state = .run → x.miss + 1 < pr.q → ∃ p, ends { y with miss := x.miss + 1 } p ∧ EventEnds early [] s.part p) ∧
      (ln.state = .run → pr.q ≤ x.miss + 1 → ∃ p,
        ends
          { leftFor .lost x with
            miss := x.miss + 1
            chip := (leftFor .lost x).chip.map fun h => { h with reportedLatch := .unknown, reportedPower := .unknown } } p ∧
        EventRuns early (endedOps c x .dropLost s.part.queue)
          (match x.reader with
          | some r => if r.card = .unknown then [] else
            [{ level := 0, pos := none, ctx := some c, line := some l
               body := .card r.card .unknown .lost (x.chip.map fun _ => (.unknown, .unknown)) }]
          | none => [])
          [at_ .dropLost (.threshold pr.q)]
          [{ level := 0, pos := none, ctx := some c, line := some l, body := .drop pr.address .lost .lost false none }] s.part p))

/-- A HELLO that arrives whole and good (R11, R47 to R50, R58). In WAITING, LOST and MISMATCH, of either origin: of the profile's kind it attaches the
context, with the features it carries and everything else of the drop anew, the image kept, and a DROP notice of cause ATTACHED; of another kind it
records DROP_KIND, and makes the context MISMATCH with a DROP notice if it was not. In ATTACHED a HELLO of origin START is a drop restart: the operation,
if any, ends DROP_RESTARTED with its result, everything of the drop is anew, DROP_RESTART is recorded, and the context stays ATTACHED, or, of another
kind, goes to MISMATCH with DROP_KIND, with one DROP notice. A HELLO of origin ANSWER is discarded at the first completion after the context attached,
and does not fit at any later one (while a SECURE entry is in ARMING: `ScanIsDebounced`). By the model's choice the display flag of a notice goes by the
kind reported (log 42), a restart sets the miss count to 0 on a line in TEST too (log 41), and a command unit that the slot carried moves the stream on
with the command kept in AWAITING (`streamed`, log 47). -/
def Obligations.HelloAttachesTheContext : Prop :=
  ∀ (s : State) (l : LineId) (i start : Nat) (run : SlotRun) (pr : Profile) (code : BitVec 3) (origin display : Bool) (lamps : BitVec 3)
    (low : BitVec 8), SlotEnds s l i run pr → start < 4 → OperationsSound s →
    let c := run.ctx
    let x := s.part.ctx c
    let ln := s.part.line l
    let payload : Payload := code ++ BitVec.ofBool origin ++ BitVec.ofBool display ++ lamps ++ low
    let up : Upstream := .unit start 24 (unitWord 1 payload)
    let f : Features := { display := display && decide (code = 1), lamps := min 4 lamps.toNat }
    let own : Nat := match pr.kind with
      | .keypad => 1
      | .readerStripe => 2
      | .readerHybrid => 3
    let notice (st : Attach) (why : DropCause) (restart : Bool) : Rec :=
      { level := 0, pos := none, ctx := some c, line := some l
        body := .drop pr.address st why restart (some { kindCode := code.toNat, features := f }) }
    let at_ (cls : FaultClass) (detail : Option Detail) : Detection :=
      { cls := cls, line := some l, ctx := some c, stamp := some ln.frame, detail := detail }
    let ends (z : Context) (p : Part) : Prop :=
      exec (.slotCompletion l i up) s = .next { s with part := p } ∧ p.ctx c = z ∧ p.line l = { ln with inSlot := none } ∧
      (∀ m, m ≠ l → p.line m = s.part.line m) ∧ SameContextsBut c s.part p ∧ SamePositions s.part p ∧ p.link = s.part.link
    (x.attach = .waiting ∨ x.attach = .lost ∨ x.attach = .mismatch →
      (code.toNat = own → ∃ p, ends { anew x with attach := .attached, miss := 0, features := some f, fresh := true } p ∧
        EventEnds [] [notice .attached .attached false] s.part p) ∧
      (code.toNat ≠ own → ∃ p, ends { x with attach := .mismatch } p ∧
        EventEnds [at_ .dropKind (some (.kindCode code.toNat))] (if x.attach = .mismatch then [] else [notice .mismatch .mismatch false])
          s.part p)) ∧
    (x.attach = .attached →
      (origin = true → code.toNat = own → ∃ p, ends { anew x with attach := .attached, miss := 0, features := some f } p ∧
        EventRuns [] (endedOps c x .dropRestarted s.part.queue) [] [at_ .dropRestart none] [notice .attached .restarted true] s.part p) ∧
      (origin = true → code.toNat ≠ own → ∃ p, ends { anew x with attach := .mismatch, miss := (heard ln run.unit x).miss } p ∧
        EventRuns [] (endedOps c x .dropRestarted s.part.queue) [] [at_ .dropRestart none, at_ .dropKind (some (.kindCode code.toNat))]
          [notice .mismatch .mismatch true] s.part p) ∧
      (origin = false → NotArming x → ∃ p, ends (streamed ln pr run.unit (heard ln run.unit x)) p ∧
        EventEnds (if x.fresh = true then [] else [at_ .streamProtocol (some (.unitCode 1))]) [] s.part p))

/-- A scan at an ATTACHED keypad (R54, R73 to R80, R86 to R87a): its form is taken, at a change with every key UP, and the late-block flag cleared. A scan
that no guard stops is debounced by N, and the lone key that went DOWN is pressed: with no holder a KEY notice tells of it; an entry in COLLECTING, or
one that this SCAN_MASKED has just armed, takes it, with a KEY notice under echo; in CLOSING it is dropped. A SCAN_OPEN in a SECURE entry is not read:
in COLLECTING and CLOSING it ends the entry KEYPAD_UNMASKED. Every completion that leaves it in ARMING (a SCAN_OPEN, IDLE, a unit that does not fit, a late
block unit, a HELLO of origin ANSWER, a silent or a damaged slot) starts or steps the arming count, and at 8 ends the entry KEYPAD_UNMASKED. That only the
completion of a slot that carried the SET_FORM of this entry starts the count is the model's reading (log 24), and that of several unsent FINISH_BLOCKs
the newest is withdrawn its deduction (log 25). -/
def Obligations.ScanIsDebounced : Prop :=
  ∀ (s : State) (l : LineId) (i start : Nat) (run : SlotRun) (pr : Profile) (kp : Keypad) (form : ScanForm) (w : Payload),
    Hears s l i run pr → start < 4 → OperationsSound s → AttachSound s → pr.kind = .keypad → (s.part.ctx run.ctx).keypad = some kp →
    let c := run.ctx
    let x := s.part.ctx c
    let ln := s.part.line l
    let unit (kind : BitVec 4) (payload : Payload) : Upstream := .unit start 24 (unitWord kind payload)
    let up : Upstream := unit (match form with | .opened => 2 | .masked => 3) w
    let y : Context := { heard ln run.unit x with lateBlock := false }
    let read (e : Option Entry) : Context := { y with keypad := some { kp with reported := form, keys := scanned form kp w, entry := e } }
    let unread : Context := { y with keypad := some { kp with reported := form, keys := keysUnder form kp } }
    let ended : Part := s.part.setLine l { ln with inSlot := none }
    let notice (pos : Option PosId) (j : Nat) : Rec :=
      { level := 0, pos := pos, ctx := some c, line := some l, body := .key form (virtualKey form j) }
    let at_ (cls : FaultClass) (detail : Detail) : Detection :=
      { cls := cls, line := some l, ctx := some c, stamp := some ln.frame, detail := some detail }
    let goes (u : Upstream) (p : Part) : Prop := exec (.slotCompletion l i u) s = .next { s with part := p }
    let settles (u : Upstream) (z : Context) (p : Part) : Prop := goes u p ∧ p.ctx c = z ∧ p.line l = { ln with inSlot := none } ∧
      (∀ m, m ≠ l → p.line m = s.part.line m) ∧ SameContextsBut c s.part p ∧ SamePositions s.part p ∧ p.link = s.part.link
    let unmasked (u : Upstream) (z : Context) (e : Entry) (why : Unmask) (early : List Detection) : Prop := ∃ p,
      settles u
        { z with
          holder := none, keypad := z.keypad.map fun k => { k with wanted := .opened, entry := none }
          lateBlock := z.lateBlock || decide (e.state = .closing)
          controls := if e.state = .closing then
            (if .finishBlock ∈ x.controls then removeLast (· == .finishBlock) x.controls else joinControl .abandonBlock x.controls)
            else x.controls } p ∧
      EventRuns early (converted s.part.queue (.entry c) (some e.owner) (some c) (some l) (.entry
          { kind := e.kind, outcome := .keypadUnmasked, endKey := none, detail := some (.unmask why), digits := none, count := e.count
            ignored := e.ignored, block := none, blockBytes := none })) []
        [at_ .keypadUnmasked (.unmask why)] [] s.part p
    let counts (u : Upstream) (z : Context) (e : Entry) (early : List Detection) : Prop :=
      let put (n : Nat) : Context := { z with keypad := z.keypad.map fun k => { k with entry := some { e with arming := some n } } }
      let counted (z' : Context) : Prop := ∃ p, settles u z' p ∧ EventEnds early [] s.part p
      (e.arming = none → counted (if run.forEntry = true then put 0 else z)) ∧
      ∀ n, e.arming = some n → (n < 7 → counted (put (n + 1))) ∧ (7 ≤ n → unmasked u z e .armingLimit early)
    (x.entry = none →
      (∀ j, Pressed form kp w j → goes up ((ended.setCtx c (read none)).offer (notice none j))) ∧
      ((∀ j, ¬ Pressed form kp w j) → goes up (ended.setCtx c (read none)))) ∧
    ∀ e, x.entry = some e →
      (e.kind = .opened ∨ form = .masked →
        let e' : Entry := if e.state = .arming ∧ e.kind = .secure
          then { e with state := .collecting, arming := none, firstKey := timerFrames ln e.firstMs } else e
        ((e'.state ≠ .collecting ∧ e'.state ≠ .arming) ∨ (e'.state = .collecting ∧ ∀ j, ¬ Pressed form kp w j) →
          goes up (ended.setCtx c (read (some e')))) ∧
        (e'.state = .collecting → ∀ j, Pressed form kp w j →
          let q := (ended.setCtx c (read (some e'))).takePress c e' (virtualKey form j)
          goes up (if e.echo = true then q.offer (notice (some e.owner) j) else q))) ∧
      (e.kind = .secure →
        (form = .opened → e.state ≠ .arming → unmasked up unread e .openScan []) ∧
        (form = .opened → e.state = .arming → counts up unread e []) ∧
        (e.state = .arming →
          let received := heard ln run.unit x
          let missed : Context := { stepped run.unit x with miss := if ln.state = .run then x.miss + 1 else x.miss }
          counts (unit 0 w) received e [] ∧
          (∀ kind : BitVec 4, kind ≠ 1 → Misfit x .keypad kind.toNat w →
            counts (unit kind w) received e [at_ .streamProtocol (.unitCode kind.toNat)]) ∧
          (x.lateBlock = true → counts (unit 10 w) received e [] ∧ counts (unit 11 w) received e []) ∧
          (∀ (code : BitVec 3) (display : Bool) (rest : BitVec 11),
            counts (unit 1 (code ++ BitVec.ofBool false ++ BitVec.ofBool display ++ rest)) received e
              (if x.fresh = true then [] else [at_ .streamProtocol (.unitCode 1)])) ∧
          ((ln.state = .run → x.miss + 1 < pr.q) → ∀ u,
            (Silent u → counts u missed e []) ∧ (Damaged u → counts u missed e [at_ .unitDamaged (.slot i)]))))

/-- Track units and the card at an ATTACHED reader (R108, R110 to R117, R121, R129, R130). The first track unit moves a capture from ARMED to CAPTURING with
its limit running. A TRACK_CHAR of one of tracks 1 to 3 goes to its track: the start code opens it and is not stored, an end code ends it, the count or the
112th character ends it, an ENDED track takes none. A TRACK_END gives its track the first status and ends it. A SWIPE_END completes the capture with a
status for each track. With no capture the tally takes the tracks and counts the characters, and a SWIPE_END makes a SWIPED_UNARMED notice of it. A
CARD_STATE that fits sets what a hybrid reader reports, makes a CARD notice of a change, arms nothing but lets a card that enters begin the capture, and
then reaches the chip session: power on is seen, NO_CARD and a loss of power end it. That a SWIPED_UNARMED notice carries no latch and power is the
model's choice (log 26), and so is that the command stays in AWAITING once a slot has carried its last unit (`streamed`, log 47). -/
def Obligations.TrackCharacterIsTaken : Prop :=
  ∀ (s : State) (l : LineId) (i start : Nat) (run : SlotRun) (pr : Profile) (r : Reader),
    Hears s l i run pr → start < 4 → AttachSound s → OperationsSound s → pr.kind ≠ .keypad → (s.part.ctx run.ctx).reader = some r →
    let c := run.ctx
    let x := s.part.ctx c
    let ln := s.part.line l
    let after (unit : UnitWord) (z : Context) (p : Part) : Prop :=
      exec (.slotCompletion l i (.unit start 24 unit)) s = .next { s with part := p } ∧ p.ctx c = streamed ln pr run.unit z ∧
      p.line l = { ln with inSlot := none } ∧ (∀ m, m ≠ l → p.line m = s.part.line m) ∧
      SameContextsBut c s.part p ∧ SamePositions s.part p ∧ p.link = s.part.link
    let still (p : Part) : Prop := p.queue = s.part.queue ∧ p.faults = s.part.faults
    let y := heard ln run.unit x
    let begun (u : Capture) : Capture :=
      if u.state = .armed then { u with state := .capturing, armTimer := none, limitTimer := timerFrames ln 3000 } else u
    let none_ : TrackSet := { t1 := false, t2 := false, t3 := false }
    (∀ (track : BitVec 2) (parity : Bool) (mid : BitVec 6) (code : BitVec 7), track ≠ 0 →
      let ch : Byte := code.setWidth 8
      let payload : Payload := track ++ BitVec.ofBool parity ++ mid ++ code
      let take (t : TrackRec) : TrackRec :=
        if t.track ≠ track.toNat then t else
        match t.state with
        | .ended => t
        | .seeking => if t.rule.start = some ch then { t with state := .collecting, startFound := true, parity := t.parity || parity } else t
        | .collecting =>
          let marked : TrackRec := { t with taken := true, parity := t.parity || parity }
          let stored := t.buffer ++ [ch]
          if ch ∈ t.rule.ends then { marked with state := .ended, endedBy := some .endCode }
          else if 112 ≤ stored.length then { marked with buffer := stored, state := .ended, endedBy := some .truncated }
          else if 0 < t.rule.count ∧ t.rule.count ≤ stored.length
            then { marked with buffer := stored, state := .ended, endedBy := some .count }
          else { marked with buffer := stored }
      let seen : TrackSet :=
        { t1 := r.seen.t1 || decide (track = 1), t2 := r.seen.t2 || decide (track = 2), t3 := r.seen.t3 || decide (track = 3) }
      let r' : Reader := match r.capture with
        | none => { r with seen := seen, discarded := min 255 (r.discarded + 1) }
        | some u => { r with capture := some { begun u with tracks := u.tracks.map take } }
      ∃ p, after (unitWord 5 payload) { y with reader := some r' } p ∧ still p) ∧
    (∀ (track status : BitVec 2) (low : BitVec 12), track ≠ 0 → status ≠ 3 →
      let st : ReaderStatus := if status = 0 then .ok else if status = 1 then .noData else .lrcBad
      let take (t : TrackRec) : TrackRec :=
        if t.track ≠ track.toNat ∨ t.status.isSome then t
        else if t.state = .ended then { t with status := some st }
        else { t with status := some st, state := .ended, endedBy := some .trackEnd }
      let seen : TrackSet :=
        { t1 := r.seen.t1 || decide (track = 1), t2 := r.seen.t2 || decide (track = 2), t3 := r.seen.t3 || decide (track = 3) }
      let r' : Reader := match r.capture with
        | none => { r with seen := seen }
        | some u => { r with capture := some { begun u with tracks := u.tracks.map take } }
      ∃ p, after (unitWord 6 (track ++ status ++ low)) { y with reader := some r' } p ∧ still p) ∧
    (∀ payload : Payload,
      let verdict (t : TrackRec) : TrackStatus :=
        if t.status = some .noData ∨ (t.rule.start.isSome ∧ t.startFound = false) ∨ (t.rule.start = none ∧ t.taken = false) then .noData
        else if t.endedBy = some .truncated then .truncated
        else if t.status = some .lrcBad then .lrcBad
        else if t.parity = true then .parity else .ok
      let entry (t : TrackRec) : TrackEntry :=
        { track := t.track, status := verdict t, endedBy := t.endedBy, chars := if verdict t = .noData then none else some t.buffer }
      (r.capture = none → ∃ p, after (unitWord 7 payload) { y with reader := some { r with seen := none_, discarded := 0 } } p ∧
        Offered [{ level := 0, pos := x.holder, ctx := some c, line := some l, body := .swiped r.card r.seen r.discarded }] s.part p) ∧
      ∀ u, r.capture = some u → ∃ p,
        after (unitWord 7 payload)
          { y with holder := none, reader := some { r with capture := none, seen := none_, discarded := 0 } } p ∧
        p.queue = converted s.part.queue (.capture c) (some u.owner) (some c) (some l)
          (.capture { outcome := .completed, mask := u.mask, tracks := u.tracks.map entry }) ∧ p.faults = s.part.faults) ∧
    ∀ (code : BitVec 3) (latch power : Bool) (low : BitVec 11) (card : CardState),
      (code = 0 ∧ card = .noCard) ∨ (pr.kind = .readerStripe ∧ code = 1 ∧ card = .swiping) ∨
        (pr.kind = .readerHybrid ∧ ((code = 2 ∧ card = .inserted) ∨ (code = 3 ∧ card = .latched))) →
      let payload : Payload := code ++ BitVec.ofBool latch ++ BitVec.ofBool power ++ low
      let enters : Prop := r.card = .noCard ∧ (card = .swiping ∨ card = .inserted)
      let r' : Reader := { r with card := card, capture := if enters then r.capture.map begun else r.capture }
      let report (on : Bool) : Reported := if on then .on else .off
      let cards : List Rec := if r.card = card then [] else
        [{ level := 0, pos := x.holder, ctx := some c, line := some l
           body := .card r.card card .changed (x.chip.map fun _ => (report latch, report power)) }]
      (x.chip = none → ∃ p, after (unitWord 4 payload) { y with reader := some r' } p ∧ Offered cards s.part p) ∧
      ∀ h, x.chip = some h →
        let h' : Chip := { h with reportedLatch := report latch, reportedPower := report power }
        let off : Chip := { h' with
          session := .off, owner := none, wantedPower := false, discardLate := true, atr := [], atrWait := none, command := [], unitsSent := 0
          response := [], overrun := false, respTimer := none }
        let lost : Chip := { off with powerSeen := false, wantedLatch := if h.session = .starting then false else h.wantedLatch
                                      discardLate := if h.session = .ready then h.discardLate else true }
        let ends (z : Context) (q : EventQueue → EventQueue) : Prop := ∃ p, after (unitWord 4 payload) { z with reader := some r' } p ∧
          p.queue = q (s.part.offerAll cards).queue ∧ p.faults = (s.part.offerAll cards).faults
        (card = .noCard → h.session = .off → ends { y with chip := some { h' with wantedLatch := false } } id) ∧
        (card = .noCard → h.session ≠ .off → ends
          { y with holder := none, chip := some { off with wantedLatch := false, powerSeen := power || h.powerSeen } }
          (endedSession c (some l) h .cardRemoved .cardRemoved .cardRemoved)) ∧
        (card ≠ .noCard → power = true → h.session = .off → ends { y with chip := some h' } id) ∧
        (card ≠ .noCard → power = true → h.session ≠ .off → ends { y with chip := some { h' with powerSeen := true } } id) ∧
        (card ≠ .noCard → power = false → h.powerSeen = false → ends { y with chip := some h' } id) ∧
        (card ≠ .noCard → power = false → h.powerSeen = true → h.session = .off → ends { y with chip := some { h' with powerSeen := false } } id) ∧
        (card ≠ .noCard → power = false → h.powerSeen = true → h.session ≠ .off → ends { y with holder := none, chip := some lost }
          (endedSession c (some l) h .powerLost .powerLost .powerLost))

/-- Chip and block units, and the units that go to no block (R36, R51, R53 to R55, R94, R95, R98, R121, R122, R124, R128, R132). The bytes of an answer to
reset, of a response and of a PIN block are appended to their buffers; a CHIP_END or BLOCK_END ends the start, the exchange or the entry by its status and
by what the buffer holds, and bytes beyond a buffer end a start or a block and mark a response OVERRUN. A unit that does not fit is discarded with
STREAM_PROTOCOL and its kind code; IDLE and late units are discarded quietly; each sets the miss count to 0 and steps the holds. The completion of a slot
that carried a command unit moves the command stream on, after CHIP_END into AWAITING with the response timer; that the command and the number of its
units sent stay in AWAITING is the model's choice (log 47). It is about states in which operations
and attachment are sound (`OperationsSound`, `AttachSound`), so that a context has the parts of its kind and no others: invariants of
their own (ContextsAndPointersStaySound, OperationsStaySound). Of several unsent FINISH_BLOCKs the newest is withdrawn, by the model's deduction (log 25). -/
def Obligations.ChipAndBlockUnits : Prop :=
  ∀ (s : State) (l : LineId) (i start : Nat) (run : SlotRun) (pr : Profile), Hears s l i run pr → start < 4 → OperationsSound s →
    AttachSound s →
    let c := run.ctx
    let x := s.part.ctx c
    let ln := s.part.line l
    let y := heard ln run.unit x
    let q := s.part.queue
    let ends (unit : UnitWord) (x' : Context) (p : Part) : Prop :=
      exec (.slotCompletion l i (.unit start 24 unit)) s = .next { s with part := p } ∧ p.ctx c = x' ∧
      p.line l = { ln with inSlot := none } ∧ (∀ m, m ≠ l → p.line m = s.part.line m) ∧
      SameContextsBut c s.part p ∧ SamePositions s.part p ∧ p.link = s.part.link
    let after (unit : UnitWord) (x' : Context) (q' : EventQueue) : Prop := ∃ p, ends unit x' p ∧ p.queue = q' ∧ p.faults = s.part.faults
    (pr.kind = .readerHybrid → ∀ (h : Chip) (b1 b2 : Byte) (st : BitVec 2) (mid : BitVec 5) (last : Bool), x.chip = some h →
      let bytes : List Byte := if last then [b1] else []
      let endUnit : UnitWord := unitWord 9 (st ++ mid ++ BitVec.ofBool last ++ b1)
      let off : Chip := { h with
        session := .off, owner := none, wantedPower := false, atr := [], atrWait := none, command := [], unitsSent := 0, response := []
        overrun := false, respTimer := none }
      let fails (unit : UnitWord) (o : StartOutcome) : Prop := after unit
        { y with holder := none, chip := some { off with wantedLatch := false, discardLate := decide (o = .atrLength) || h.discardLate } }
        (endedSession c (some l) h o .ok .stopped q)
      (h.session = .starting → h.powerSeen = true →
        (h.atr.length ≤ 31 → after (unitWord 8 (b1 ++ b2)) { y with chip := some { h with atr := h.atr ++ [b1, b2] } } q) ∧
        (31 < h.atr.length → fails (unitWord 8 (b1 ++ b2)) .atrLength) ∧
        (33 < (h.atr ++ bytes).length → fails endUnit .atrLength) ∧
        ((h.atr ++ bytes).length ≤ 33 →
          (st = 0 → h.atr ++ bytes = [] → fails endUnit .atrLength) ∧
          (st = 0 → h.atr ++ bytes ≠ [] → after endUnit { y with chip := some { h with session := .ready, atr := [], atrWait := none } }
            (converted q (.chipStart c) h.owner (some c) (some l) (.chip (.start .ready (some (h.atr ++ bytes)))))) ∧
          (st = 1 → fails endUnit .mute) ∧ (st = 2 → fails endUnit .parity) ∧ (st = 3 → fails endUnit .contactFault))) ∧
      (h.session = .awaiting → h.response.length ≤ 258 →
        after (unitWord 8 (b1 ++ b2))
          { y with chip := some { h with
              response := (h.response ++ [b1, b2]).take 258, overrun := h.overrun || decide (258 < h.response.length + 2) } } q ∧
        let tooLong := h.overrun || decide (258 < h.response.length + bytes.length)
        let status : ExchangeStatus := if tooLong then .overrun
          else if st = 0 then .ok else if st = 1 then .mute else if st = 2 then .parity else .contactFault
        let q' := converted q (.exchange c) h.owner (some c) (some l) (.chip (.exchange h.exchanges status ((h.response ++ bytes).take 258)))
        (st ≠ 3 → after endUnit
          { y with chip := some { h with
              session := .ready, command := [], unitsSent := 0, response := [], overrun := false, respTimer := none } } q') ∧
        (st = 3 → after endUnit { y with holder := none, chip := some off }
          (converted q' (.chipEnd c) h.owner (some c) (some l) (.chip (.sessionEnd .contactFault h.exchanges))))) ∧
      (h.session = .off → h.discardLate = true → after endUnit { y with chip := some { h with discardLate := false } } q)) ∧
    (pr.kind = .keypad → ∀ (kp : Keypad) (e : Entry) (b1 b2 : Byte) (low : BitVec 15), x.keypad = some kp → kp.entry = some e →
      e.state = .closing → e.kind = .secure →
      let endsEntry (unit : UnitWord) (o : EntryOutcome) (detail : Option EntryDetail) (cs : List Control) : Prop := after unit
        { y with holder := none, lateBlock := true, controls := cs, keypad := some { kp with wanted := .opened, entry := none } }
        (converted q (.entry c) (some e.owner) (some c) (some l) (.entry
          { kind := .secure, outcome := o, endKey := e.endKey, detail := detail, digits := none, count := e.count, ignored := e.ignored
            block := if o = .completed then some e.block else none, blockBytes := if o = .completed then none else some e.block.length }))
      (e.block.length ≤ 14 →
        after (unitWord 10 (b1 ++ b2)) { y with keypad := some { kp with entry := some { e with block := e.block ++ [b1, b2] } } } q) ∧
      (14 < e.block.length → endsEntry (unitWord 10 (b1 ++ b2)) .blockFault (some (.block .overlong))
        (if .finishBlock ∈ x.controls then removeLast (· == .finishBlock) x.controls else joinControl .abandonBlock x.controls)) ∧
      (e.block.length = 8 ∨ e.block.length = 16 → endsEntry (unitWord 11 (BitVec.ofBool false ++ low)) .completed none x.controls) ∧
      (¬ (e.block.length = 8 ∨ e.block.length = 16) →
        endsEntry (unitWord 11 (BitVec.ofBool false ++ low)) .blockFault (some (.block .length)) x.controls) ∧
      endsEntry (unitWord 11 (BitVec.ofBool true ++ low)) .blockFault (some (.block .refused)) x.controls) ∧
    (NotArming x → ∀ (kind : BitVec 4) (w : Payload), kind ≠ 1 →
      (Misfit x pr.kind kind.toNat w → ∃ p, ends (unitWord kind w) (streamed ln pr run.unit y) p ∧
        EventEnds [{ cls := .streamProtocol, line := some l, ctx := some c, stamp := some ln.frame, detail := some (.unitCode kind.toNat) }] []
          s.part p) ∧
      (Quiet x pr.kind kind.toNat → after (unitWord kind w) (streamed ln pr run.unit y) q))

/-- A slot of a loop participant that carried the loop sequence (R156, R157): the slot number goes up, a compare of the last of four payloads completes a
pass, and slot 4p + 1 finishes the participant. A compared slot whose unit is no LOOP_ECHO of the payload sent before is a miscompare (SILENT, DAMAGED
or VALUE): it is written into the record, over an earlier one unless stop-on-error holds that, the error flag is set, and LOOP_MISCOMPARE recorded; a right
echo leaves errors as they were. A damaged slot, compared or not, is first recorded as UNIT_DAMAGED. By the model's choice the number stays at its
largest value in a test that is not continuous (log 22), and a slot is numbered only if it carried the sequence (log 23). -/
def Obligations.LoopSlotIsCompared : Prop :=
  ∀ (s : State) (l : LineId) (i : Nat) (run : SlotRun) (pr : Profile) (set : LoopSetup) (before after : List LoopRecord) (r : LoopRecord),
    OperationsSound s → SlotEnds s l i run pr →
    let c := run.ctx
    let ln := s.part.line l
    run.fromLoop = true → (s.part.ctx c).attach = .looping → ln.loop.setup = some set →
    ln.loop.records = before ++ r :: after → r.ctx = c → (∀ y, y ∈ before ∨ y ∈ after → y.ctx ≠ c) →
    let m := r.slot
    let compared : Prop := 2 ≤ m ∧ (set.continuous = true ∨ (0 < set.passLimit ∧ m ≤ 4 * set.passLimit + 1))
    let expected : Payload := set.pattern.get ⟨(m - 2) % 4, by omega⟩
    ∀ r' : LoopRecord,
      r'.ctx = c → r'.address = r.address →
      r'.slot = (if m < 4294967295 then m + 1 else if set.continuous = true then 4 else m) →
      (compared ∧ m % 4 = 1 → r'.passes = min 65535 (r.passes + 1)) → (¬ (compared ∧ m % 4 = 1) → r'.passes = r.passes) →
      r'.finish = (if set.continuous = false ∧ 0 < set.passLimit ∧ m = 4 * set.passLimit + 1 then .done else r.finish) →
      let line (r'' : LoopRecord) (flag : Bool) : Line :=
        { ln with inSlot := none, loop := { ln.loop with records := before ++ r'' :: after, errorFlag := flag } }
      let ends (up : Upstream) (x' : Line) (ds : List Detection) : Prop := ∃ p,
        exec (.slotCompletion l i up) s = .next { s with part := p } ∧ p.line l = x' ∧ (∀ m, m ≠ l → p.line m = s.part.line m) ∧
        SameContexts s.part p ∧ SamePositions s.part p ∧ p.link = s.part.link ∧ EventEnds ds [] s.part p
      let miss (kind : Miscompare) (payload : Option Payload) (upKind : Option Nat) : LoopRecord := { r' with
        error := if set.stopOnError = true ∧ r.error.isSome = true then r.error else
          some { kind := kind, index := (m - 2) % 4, pass := min 65535 (r.passes + 1), payload := payload, upKind := upKind } }
      let fault (kind : Miscompare) : Detection :=
        { cls := .loopMiscompare, line := some l, ctx := some c, stamp := some ln.frame, detail := some (.miscompare kind) }
      let damage : Detection := { cls := .unitDamaged, line := some l, ctx := some c, stamp := some ln.frame, detail := some (.slot i) }
      let right : LoopRecord := { r' with error := r.error }
      (∀ up, Silent up → (compared → ends up (line (miss .silent none none) true) [fault .silent]) ∧
        (¬ compared → ends up (line right ln.loop.errorFlag) [])) ∧
      (∀ start nbits w, Damaged (.unit start nbits w) →
        (¬ compared → ends (.unit start nbits w) (line right ln.loop.errorFlag) [damage]) ∧
        (compared → ∀ v : Payload, (∀ j : Fin 16, v.getLsbD j.val = (decide (24 ≤ nbits + 4 + j.val) && w.getLsbD (4 + j.val))) →
          ends (.unit start nbits w) (line (miss .damaged (some v) none) true) [damage, fault .damaged])) ∧
      ∀ start kind w, start < 4 →
        (compared → kind = 12 ∧ w = expected → ends (.unit start 24 (unitWord kind w)) (line right ln.loop.errorFlag) []) ∧
        (compared → ¬ (kind = 12 ∧ w = expected) → ends (.unit start 24 (unitWord kind w))
          (line (miss .value (some w) (some kind.toNat)) true) [fault .value]) ∧
        (¬ compared → ends (.unit start 24 (unitWord kind w)) (line right ln.loop.errorFlag) [])

/-! ### Frame marks and line changes -/

/-- A frame mark at the end of a frame of a line with no stop pending, no schedule pending and no test (R10, R13): the frame counter goes up by 1, wrapping,
every running timer of the line's contexts goes down by 1, and the slot calls of the next frame are taken (R3); nothing else changes. On an unpadded frame
the mark may come before the completion of the last slot, which ends with it (log 36). Where no mark can come, in IDLE, with a stop pending, before
the frame has been sent to that end (log 6), or with an expiry of the line still due (log 5), the command has no effect (log 3). -/
def Obligations.FrameMarkCounts : Prop :=
  ∀ (s : State) (l : LineId) (order : MarkOrder), AddressesFit s.part →
    let ln := s.part.line l
    (MarkNext s.part l → ln.waiting = none → ln.loop.state = .noTest → ∃ p,
      exec (.frameMark l [] order) s = .next { s with part := p } ∧
      p.line l = { ln with frame := ln.frame + 1, calls := frameCalls s.part ln.active, nextSlot := 0 } ∧
      (∀ m, m ≠ l → p.line m = s.part.line m) ∧
      (∀ c, p.ctx c = if (s.part.ctx c).lineId = some l then ticked (s.part.ctx c) else s.part.ctx c) ∧
      SamePositions s.part p ∧ p.queue = s.part.queue ∧ p.faults = s.part.faults ∧ p.link = s.part.link) ∧
    (¬ MarkNext s.part l → ∀ first, exec (.frameMark l first order) s = .next s)

/-- The events of a frame mark (R10, R13, R25 to R27, R56 to R58, R155, R158, R160): the mark counts; the expiries that are taken first end their
operations; then the Schedule Store swaps to a pending schedule and the Loop Tester enters an accepted test or checks a running one, in either order;
and the next frame has its slot calls. What each event does is spelled in `Counted`, `Expired`, `Swapped` and `Tested`. By the model's choice the order
of the events is an operand of the command (log 4), on an unpadded frame the mark may come before the completion of the last slot (log 36), the drop
address in a loop record is that at the entry, a participant that a swap parks is UNSCHEDULED though it was DONE (log 13), and the end of a test clears the
entry frame and keeps the error flag (log 53). -/
def Obligations.MarkChangesAttachment : Prop :=
  ∀ (s : State) (l : LineId) (first : List Expiry) (order : MarkOrder), OperationsSound s → AddressesFit s.part → MarkNext s.part l →
    ∃ p0 p1 p2 p3 p, exec (.frameMark l first order) s = .next { s with part := p } ∧
      Counted l s.part p0 ∧ Expired l first p0 p1 ∧
      (match order with
        | .swapFirst => Swapped l p1 p2 ∧ Tested l p2 p3
        | .testFirst => Tested l p1 p2 ∧ Swapped l p2 p3) ∧
      p.line l = { p3.line l with calls := frameCalls p3 (p3.line l).active } ∧ (∀ m, m ≠ l → p.line m = p3.line m) ∧
      SameContexts p3 p ∧ SamePositions p3 p ∧ p.queue = p3.queue ∧ p.faults = p3.faults ∧ p.link = p3.link

/-- A line enters IDLE (R16 to R19) at the end of its stopped frame, once the frame has been sent to its last slot, or at once at a trip of its driver, which
also records LINE_DRIVE with the frame counter as stamp and the state at the trip as detail. A test ends ABORTED; then each context of the line in
ascending number has its operation ended, LINE_STOPPED or LINE_FAULT, with its result, and is PARKED; the FAULT notice and one LINE notice come last; a
pending schedule is active, with N computed anew; setup and frame counter stay. By the model's choice the end of a test clears its entry frame and keeps
the error flag (log 53), a frame end on a line with no stop pending, or before
the frame has been sent, has no effect (log 3), and a trip of a line in IDLE only trips the input (log 29). -/
def Obligations.LineEntersIdle : Prop :=
  ∀ (s : State) (l : LineId) (set : LoopSetup), OperationsSound s →
    let ln := s.part.line l
    (ln.loop.state ≠ .noTest → ln.loop.setup = some set) →
    let body := testBody ln set .aborted
    let active := ln.waiting.getD ln.active
    let tested : EventQueue :=
      if ln.loop.state = .noTest then s.part.queue else converted s.part.queue (.loop l) none none (some l) (.loop body)
    let others (p : Part) : Prop :=
      (∀ m, m ≠ l → p.line m = s.part.line m) ∧ (∀ c, (s.part.ctx c).lineId ≠ some l → p.ctx c = s.part.ctx c) ∧ SamePositions s.part p ∧
      p.link = s.part.link
    let idle (tripped : Bool) (ds : List Detection) (cause : Cause) (why : LineReason) (p : Part) : Prop :=
      p.line l = { ln with
        state := .idle, stopPending := false, active := active, waiting := none, calls := [], nextSlot := 0, inSlot := none
        driverTripped := tripped, loop := if ln.loop.state = .noTest then ln.loop else testOver ln.loop body } ∧
      (∀ c, (s.part.ctx c).lineId = some l →
        let x := leftFor .parked (s.part.ctx c)
        p.ctx c = if active.count (some c) ≠ ln.active.count (some c) ∧ 0 < active.count (some c)
          then rescanned x ln.rate ln.frameLen (active.count (some c)) else x) ∧
      others p ∧
      EventEnds ds [lineRecord l .idle why]
        { s.part with queue := endedAll s.part cause (allCtx.filter fun c => (s.part.ctx c).lineId = some l) tested } p
    (ln.state ≠ .idle → ln.stopPending = true → FrameSent s.part l → ∃ p,
      exec (.stoppedFrameEnd l) s = .next { s with part := p } ∧ idle ln.driverTripped [] .lineStopped .stopped p) ∧
    (ln.state = .idle ∨ ln.stopPending = false ∨ ¬ FrameSent s.part l → exec (.stoppedFrameEnd l) s = .next s) ∧
    (ln.state ≠ .idle → ∃ p, exec (.driverTrip l) s = .next { s with part := p } ∧
      idle true [{ cls := .lineDrive, line := some l, ctx := none, stamp := some ln.frame, detail := some (.lineState ln.state) }]
        .lineFault .driverFault p) ∧
    (ln.state = .idle → ∃ p, exec (.driverTrip l) s = .next { s with part := p } ∧ p.line l = { ln with driverTripped := true } ∧
      (∀ m, m ≠ l → p.line m = s.part.line m) ∧ SameContexts s.part p ∧ SamePositions s.part p ∧ p.queue = s.part.queue ∧
      p.faults = s.part.faults ∧ p.link = s.part.link)

/-! ### What every step keeps -/

/-- No step takes the Event Queue over its 32 places or breaks the Fault Record: the later-fault set empty while there is no first fault, LINE_DRIVE
always detected, the log within 10 entries of 1 to 255 repeats, and the counts within 65,535. Every step keeps every buffer, count and queue of a
context within its size: N in 1..255, a track within 112 characters, an answer-to-reset within 33 bytes, a response within 258, a block within 16. -/
def Obligations.QueueAndFaultsStaySound : Prop :=
  ∀ s t : State, step s = .next t → (QueueBound s → QueueBound t) ∧ (FaultsSound s → FaultsSound t) ∧ (BuffersSound s → BuffersSound t)

/-- Every step keeps L = max(16 + 32·S, Pmin·R/1000) and P = L·1000/R, S entries in every schedule, the ranges of a line's setup, and no stop and no
schedule pending in IDLE. Every step keeps the schedules naming only contexts profiled on their own line, and attachment in step with them: in
WAITING, ATTACHED, MISMATCH, LOST and LOOPING a context has a slot on a line in RUN or TEST, and a PARKED one on such a line has none. -/
def Obligations.LinesStaySound : Prop :=
  ∀ s t : State, step s = .next t →
    (LinesSound s → LinesSound t) ∧ (SchedulesSound s → SchedulesSound t) ∧ (SchedulesSound s → ServedSound s → ServedSound t)

/-- Every step keeps PIN digits out of the part: no SECURE entry holds a digit value, no record queued or in transmission carries one, and no digit count
exceeds its max. -/
def Obligations.SecureStaysSound : Prop :=
  ∀ s t : State, SecureSound s → step s = .next t → SecureSound t

/-- Every step keeps contexts and pointers sound: FREE means no profile, a context has the working state of its kind, a context of an IDLE line is PARKED,
and a pointer names a context of its kind. Every step keeps drop addresses in 1..15 and no two contexts at one line and address, with behaviour fields
and images of their kinds, and a holder only where a pointer of the position names the context. -/
def Obligations.ContextsAndPointersStaySound : Prop :=
  ∀ s t : State, step s = .next t → (AttachSound s → AttachSound t) ∧ (PointersSound s → PointersSound t) ∧
    (ProfilesSound s → ProfilesSound t) ∧ (HoldersNamed s → HoldersNamed t)

/-- Every step keeps operations, holders and reservations in step: each operation in flight has its one reservation and its holder, and each reservation
its operation, so that every operation yields its one result. -/
def Obligations.OperationsStaySound : Prop :=
  ∀ s t : State, AttachSound s → PointersSound s → OperationsSound s → step s = .next t → OperationsSound t

/-- All that the steps keep holds in the state right after reset. -/
def Obligations.ResetIsSound : Prop :=
  (QueueBound State.reset ∧ FaultsSound State.reset ∧ BuffersSound State.reset) ∧
  (LinesSound State.reset ∧ SchedulesSound State.reset ∧ ServedSound State.reset) ∧ SecureSound State.reset ∧
  (AttachSound State.reset ∧ PointersSound State.reset ∧ ProfilesSound State.reset ∧ HoldersNamed State.reset) ∧ OperationsSound State.reset

end
end

