-- ==== Sys2Proof/Laws/State.lean ====
section
/-! SUPPORT. One lemma per field per update of the state: what an update of a line, a context, a position, the queue, the Fault Record or
the link leaves as it was, and what it writes. Later proofs rewrite with these and unfold no record update. -/

namespace Sys2Proof.Machine

variable (p : Part) (s : State)

/-! ### Reading back what was written -/

@[simp] theorem Part.line_setLine_self (l : LineId) (x : Line) : (p.setLine l x).line l = x := by cases l <;> rfl

@[simp] theorem Part.line_setLine_ne {l m : LineId} (x : Line) (h : m ≠ l) : (p.setLine l x).line m = p.line m := by
  cases l <;> cases m <;> first | rfl | exact absurd rfl h

@[simp] theorem Part.line_modLine_self (l : LineId) (f : Line → Line) : (p.modLine l f).line l = f (p.line l) := by
  simp [Part.modLine]

@[simp] theorem Part.line_modLine_ne {l m : LineId} (f : Line → Line) (h : m ≠ l) : (p.modLine l f).line m = p.line m := by
  simp [Part.modLine, h]

@[simp] theorem Part.ctx_setCtx_self (c : CtxId) (x : Context) : (p.setCtx c x).ctx c = x :=
  Vector.getElem_set_self c.isLt

@[simp] theorem Part.ctx_setCtx_ne {c d : CtxId} (x : Context) (h : d ≠ c) : (p.setCtx c x).ctx d = p.ctx d := by
  have : c.val ≠ d.val := fun e => h (Fin.ext e.symm)
  exact Vector.getElem_set_ne c.isLt d.isLt this

@[simp] theorem Part.ctx_modCtx_self (c : CtxId) (f : Context → Context) : (p.modCtx c f).ctx c = f (p.ctx c) := by
  simp [Part.modCtx]

@[simp] theorem Part.ctx_modCtx_ne {c d : CtxId} (f : Context → Context) (h : d ≠ c) : (p.modCtx c f).ctx d = p.ctx d := by
  simp [Part.modCtx, h]

@[simp] theorem Part.position_setPosition_self (i : PosId) (x : Position) : (p.setPosition i x).position i = x :=
  Vector.getElem_set_self i.isLt

@[simp] theorem Part.position_setPosition_ne {i j : PosId} (x : Position) (h : j ≠ i) :
    (p.setPosition i x).position j = p.position j := by
  have : i.val ≠ j.val := fun e => h (Fin.ext e.symm)
  exact Vector.getElem_set_ne i.isLt j.isLt this

@[simp] theorem Part.queue_setQueue (q : EventQueue) : (p.setQueue q).queue = q := rfl
@[simp] theorem Part.faults_setFaults (f : FaultRecord) : (p.setFaults f).faults = f := rfl
@[simp] theorem Part.link_setLink (k : Link) : (p.setLink k).link = k := rfl
@[simp] theorem Part.link_modLink (f : Link → Link) : (p.modLink f).link = f p.link := rfl

/-! ### What an update leaves as it was -/

@[simp] theorem Part.ctx_setLine (l : LineId) (x : Line) (d : CtxId) : (p.setLine l x).ctx d = p.ctx d := by cases l <;> rfl
@[simp] theorem Part.position_setLine (l : LineId) (x : Line) (j : PosId) : (p.setLine l x).position j = p.position j := by cases l <;> rfl
@[simp] theorem Part.queue_setLine (l : LineId) (x : Line) : (p.setLine l x).queue = p.queue := by cases l <;> rfl
@[simp] theorem Part.faults_setLine (l : LineId) (x : Line) : (p.setLine l x).faults = p.faults := by cases l <;> rfl
@[simp] theorem Part.link_setLine (l : LineId) (x : Line) : (p.setLine l x).link = p.link := by cases l <;> rfl

@[simp] theorem Part.ctx_modLine (l : LineId) (f : Line → Line) (d : CtxId) : (p.modLine l f).ctx d = p.ctx d := by cases l <;> rfl
@[simp] theorem Part.position_modLine (l : LineId) (f : Line → Line) (j : PosId) : (p.modLine l f).position j = p.position j := by cases l <;> rfl
@[simp] theorem Part.queue_modLine (l : LineId) (f : Line → Line) : (p.modLine l f).queue = p.queue := by cases l <;> rfl
@[simp] theorem Part.faults_modLine (l : LineId) (f : Line → Line) : (p.modLine l f).faults = p.faults := by cases l <;> rfl
@[simp] theorem Part.link_modLine (l : LineId) (f : Line → Line) : (p.modLine l f).link = p.link := by cases l <;> rfl

@[simp] theorem Part.line_setCtx (c : CtxId) (x : Context) (m : LineId) : (p.setCtx c x).line m = p.line m := rfl
@[simp] theorem Part.position_setCtx (c : CtxId) (x : Context) (j : PosId) : (p.setCtx c x).position j = p.position j := rfl
@[simp] theorem Part.queue_setCtx (c : CtxId) (x : Context) : (p.setCtx c x).queue = p.queue := rfl
@[simp] theorem Part.faults_setCtx (c : CtxId) (x : Context) : (p.setCtx c x).faults = p.faults := rfl
@[simp] theorem Part.link_setCtx (c : CtxId) (x : Context) : (p.setCtx c x).link = p.link := rfl

@[simp] theorem Part.line_modCtx (c : CtxId) (f : Context → Context) (m : LineId) : (p.modCtx c f).line m = p.line m := rfl
@[simp] theorem Part.position_modCtx (c : CtxId) (f : Context → Context) (j : PosId) : (p.modCtx c f).position j = p.position j := rfl
@[simp] theorem Part.queue_modCtx (c : CtxId) (f : Context → Context) : (p.modCtx c f).queue = p.queue := rfl
@[simp] theorem Part.faults_modCtx (c : CtxId) (f : Context → Context) : (p.modCtx c f).faults = p.faults := rfl
@[simp] theorem Part.link_modCtx (c : CtxId) (f : Context → Context) : (p.modCtx c f).link = p.link := rfl

@[simp] theorem Part.line_setPosition (i : PosId) (x : Position) (m : LineId) : (p.setPosition i x).line m = p.line m := rfl
@[simp] theorem Part.ctx_setPosition (i : PosId) (x : Position) (d : CtxId) : (p.setPosition i x).ctx d = p.ctx d := rfl
@[simp] theorem Part.queue_setPosition (i : PosId) (x : Position) : (p.setPosition i x).queue = p.queue := rfl
@[simp] theorem Part.faults_setPosition (i : PosId) (x : Position) : (p.setPosition i x).faults = p.faults := rfl
@[simp] theorem Part.link_setPosition (i : PosId) (x : Position) : (p.setPosition i x).link = p.link := rfl

@[simp] theorem Part.line_setQueue (q : EventQueue) (m : LineId) : (p.setQueue q).line m = p.line m := rfl
@[simp] theorem Part.ctx_setQueue (q : EventQueue) (d : CtxId) : (p.setQueue q).ctx d = p.ctx d := rfl
@[simp] theorem Part.position_setQueue (q : EventQueue) (j : PosId) : (p.setQueue q).position j = p.position j := rfl
@[simp] theorem Part.faults_setQueue (q : EventQueue) : (p.setQueue q).faults = p.faults := rfl
@[simp] theorem Part.link_setQueue (q : EventQueue) : (p.setQueue q).link = p.link := rfl

@[simp] theorem Part.line_setFaults (f : FaultRecord) (m : LineId) : (p.setFaults f).line m = p.line m := rfl
@[simp] theorem Part.ctx_setFaults (f : FaultRecord) (d : CtxId) : (p.setFaults f).ctx d = p.ctx d := rfl
@[simp] theorem Part.position_setFaults (f : FaultRecord) (j : PosId) : (p.setFaults f).position j = p.position j := rfl
@[simp] theorem Part.queue_setFaults (f : FaultRecord) : (p.setFaults f).queue = p.queue := rfl
@[simp] theorem Part.link_setFaults (f : FaultRecord) : (p.setFaults f).link = p.link := rfl

@[simp] theorem Part.line_setLink (k : Link) (m : LineId) : (p.setLink k).line m = p.line m := rfl
@[simp] theorem Part.ctx_setLink (k : Link) (d : CtxId) : (p.setLink k).ctx d = p.ctx d := rfl
@[simp] theorem Part.position_setLink (k : Link) (j : PosId) : (p.setLink k).position j = p.position j := rfl
@[simp] theorem Part.queue_setLink (k : Link) : (p.setLink k).queue = p.queue := rfl
@[simp] theorem Part.faults_setLink (k : Link) : (p.setLink k).faults = p.faults := rfl

@[simp] theorem Part.line_modLink (f : Link → Link) (m : LineId) : (p.modLink f).line m = p.line m := rfl
@[simp] theorem Part.ctx_modLink (f : Link → Link) (d : CtxId) : (p.modLink f).ctx d = p.ctx d := rfl
@[simp] theorem Part.position_modLink (f : Link → Link) (j : PosId) : (p.modLink f).position j = p.position j := rfl
@[simp] theorem Part.queue_modLink (f : Link → Link) : (p.modLink f).queue = p.queue := rfl
@[simp] theorem Part.faults_modLink (f : Link → Link) : (p.modLink f).faults = p.faults := rfl

/-! ### The whole state -/

@[simp] theorem State.part_onPart (f : Part → Part) : (s.onPart f).part = f s.part := rfl
@[simp] theorem State.pending_onPart (f : Part → Part) : (s.onPart f).pending = s.pending := rfl
@[simp] theorem effect_eq (f : Part → Part) : effect f s = .next (s.onPart f) := rfl

/-! ### A context's working state -/

section
variable (x : Context)

@[simp] theorem Context.keypad_modKeypad (f : Keypad → Keypad) : (x.modKeypad f).keypad = x.keypad.map f := rfl
@[simp] theorem Context.attach_modKeypad (f : Keypad → Keypad) : (x.modKeypad f).attach = x.attach := rfl
@[simp] theorem Context.profile_modKeypad (f : Keypad → Keypad) : (x.modKeypad f).profile = x.profile := rfl
@[simp] theorem Context.miss_modKeypad (f : Keypad → Keypad) : (x.modKeypad f).miss = x.miss := rfl
@[simp] theorem Context.holder_modKeypad (f : Keypad → Keypad) : (x.modKeypad f).holder = x.holder := rfl
@[simp] theorem Context.features_modKeypad (f : Keypad → Keypad) : (x.modKeypad f).features = x.features := rfl
@[simp] theorem Context.lateBlock_modKeypad (f : Keypad → Keypad) : (x.modKeypad f).lateBlock = x.lateBlock := rfl
@[simp] theorem Context.fresh_modKeypad (f : Keypad → Keypad) : (x.modKeypad f).fresh = x.fresh := rfl
@[simp] theorem Context.controls_modKeypad (f : Keypad → Keypad) : (x.modKeypad f).controls = x.controls := rfl
@[simp] theorem Context.formHold_modKeypad (f : Keypad → Keypad) : (x.modKeypad f).formHold = x.formHold := rfl
@[simp] theorem Context.latchHold_modKeypad (f : Keypad → Keypad) : (x.modKeypad f).latchHold = x.latchHold := rfl
@[simp] theorem Context.powerHold_modKeypad (f : Keypad → Keypad) : (x.modKeypad f).powerHold = x.powerHold := rfl
@[simp] theorem Context.cursor_modKeypad (f : Keypad → Keypad) : (x.modKeypad f).cursor = x.cursor := rfl
@[simp] theorem Context.image_modKeypad (f : Keypad → Keypad) : (x.modKeypad f).image = x.image := rfl
@[simp] theorem Context.reader_modKeypad (f : Keypad → Keypad) : (x.modKeypad f).reader = x.reader := rfl
@[simp] theorem Context.chip_modKeypad (f : Keypad → Keypad) : (x.modKeypad f).chip = x.chip := rfl

@[simp] theorem Context.reader_modReader (f : Reader → Reader) : (x.modReader f).reader = x.reader.map f := rfl
@[simp] theorem Context.attach_modReader (f : Reader → Reader) : (x.modReader f).attach = x.attach := rfl
@[simp] theorem Context.profile_modReader (f : Reader → Reader) : (x.modReader f).profile = x.profile := rfl
@[simp] theorem Context.miss_modReader (f : Reader → Reader) : (x.modReader f).miss = x.miss := rfl
@[simp] theorem Context.holder_modReader (f : Reader → Reader) : (x.modReader f).holder = x.holder := rfl
@[simp] theorem Context.features_modReader (f : Reader → Reader) : (x.modReader f).features = x.features := rfl
@[simp] theorem Context.lateBlock_modReader (f : Reader → Reader) : (x.modReader f).lateBlock = x.lateBlock := rfl
@[simp] theorem Context.fresh_modReader (f : Reader → Reader) : (x.modReader f).fresh = x.fresh := rfl
@[simp] theorem Context.controls_modReader (f : Reader → Reader) : (x.modReader f).controls = x.controls := rfl
@[simp] theorem Context.formHold_modReader (f : Reader → Reader) : (x.modReader f).formHold = x.formHold := rfl
@[simp] theorem Context.latchHold_modReader (f : Reader → Reader) : (x.modReader f).latchHold = x.latchHold := rfl
@[simp] theorem Context.powerHold_modReader (f : Reader → Reader) : (x.modReader f).powerHold = x.powerHold := rfl
@[simp] theorem Context.cursor_modReader (f : Reader → Reader) : (x.modReader f).cursor = x.cursor := rfl
@[simp] theorem Context.image_modReader (f : Reader → Reader) : (x.modReader f).image = x.image := rfl
@[simp] theorem Context.keypad_modReader (f : Reader → Reader) : (x.modReader f).keypad = x.keypad := rfl
@[simp] theorem Context.chip_modReader (f : Reader → Reader) : (x.modReader f).chip = x.chip := rfl

@[simp] theorem Context.chip_modChip (f : Chip → Chip) : (x.modChip f).chip = x.chip.map f := rfl
@[simp] theorem Context.attach_modChip (f : Chip → Chip) : (x.modChip f).attach = x.attach := rfl
@[simp] theorem Context.profile_modChip (f : Chip → Chip) : (x.modChip f).profile = x.profile := rfl
@[simp] theorem Context.miss_modChip (f : Chip → Chip) : (x.modChip f).miss = x.miss := rfl
@[simp] theorem Context.holder_modChip (f : Chip → Chip) : (x.modChip f).holder = x.holder := rfl
@[simp] theorem Context.features_modChip (f : Chip → Chip) : (x.modChip f).features = x.features := rfl
@[simp] theorem Context.lateBlock_modChip (f : Chip → Chip) : (x.modChip f).lateBlock = x.lateBlock := rfl
@[simp] theorem Context.fresh_modChip (f : Chip → Chip) : (x.modChip f).fresh = x.fresh := rfl
@[simp] theorem Context.controls_modChip (f : Chip → Chip) : (x.modChip f).controls = x.controls := rfl
@[simp] theorem Context.formHold_modChip (f : Chip → Chip) : (x.modChip f).formHold = x.formHold := rfl
@[simp] theorem Context.latchHold_modChip (f : Chip → Chip) : (x.modChip f).latchHold = x.latchHold := rfl
@[simp] theorem Context.powerHold_modChip (f : Chip → Chip) : (x.modChip f).powerHold = x.powerHold := rfl
@[simp] theorem Context.cursor_modChip (f : Chip → Chip) : (x.modChip f).cursor = x.cursor := rfl
@[simp] theorem Context.image_modChip (f : Chip → Chip) : (x.modChip f).image = x.image := rfl
@[simp] theorem Context.keypad_modChip (f : Chip → Chip) : (x.modChip f).keypad = x.keypad := rfl
@[simp] theorem Context.reader_modChip (f : Chip → Chip) : (x.modChip f).reader = x.reader := rfl

end

/-! ### A report of contact power -/

/-- The power-seen flag is set by a report of power on during a session, and nothing else of the record changes. -/
theorem Chip.seePower_eq (h : Chip) (power : Bool) :
    h.seePower power = { h with powerSeen := h.powerSeen || (power && decide (h.session ≠ .off)) } := by
  cases power <;> by_cases hs : h.session = .off <;> simp [Chip.seePower, hs]
  all_goals rw [← hs]

@[simp] theorem Chip.session_seePower (h : Chip) (power : Bool) : (h.seePower power).session = h.session := by rw [Chip.seePower_eq]
@[simp] theorem Chip.owner_seePower (h : Chip) (power : Bool) : (h.seePower power).owner = h.owner := by rw [Chip.seePower_eq]

end Sys2Proof.Machine
end

