-- ==== Sys2Proof/Laws/Queue.lean ====
section
/-! SUPPORT. What the shared operations of the Event Queue and the Fault Record can do: they touch the queue and the Fault Record and nothing
else of the part, and each keeps the number of places in use within the queue. -/

namespace Sys2Proof.Machine

/-! ### Counts of places -/

theorem EventQueue.used_append (q : EventQueue) (r : Rec) : (q.append r).used = q.used + 1 := by
  simp [EventQueue.append, EventQueue.used]; omega

theorem EventQueue.used_countLoss (q : EventQueue) (l : Nat) : (q.countLoss l).used = q.used := rfl

/-- A lowest notice level comes from a queued notice. -/
theorem lowestNotice_mem {rs : List Rec} {l : Nat} (h : lowestNotice rs = some l) :
    ∃ r ∈ rs, r.isNotice = true ∧ r.level = l := by
  induction rs generalizing l with
  | nil => simp [lowestNotice] at h
  | cons r rs ih =>
    simp only [lowestNotice] at h
    split at h
    · rename_i hr
      cases h2 : lowestNotice rs with
      | none =>
        rw [h2] at h
        simp at h
        exact ⟨r, by simp, hr, h⟩
      | some m =>
        rw [h2] at h
        simp only [Option.some.injEq] at h
        rcases Nat.le_total r.level m with h3 | h3
        · exact ⟨r, by simp, hr, by omega⟩
        · obtain ⟨x, hx, hn, hl⟩ := ih h2
          exact ⟨x, by simp [hx], hn, by omega⟩
    · obtain ⟨x, hx, hn, hl⟩ := ih h
      exact ⟨x, by simp [hx], hn, hl⟩

/-- Evicting the oldest notice of the lowest level frees exactly one place. -/
theorem length_evictNotice {rs : List Rec} {l : Nat} (h : lowestNotice rs = some l) :
    (evictNotice l rs).length + 1 = rs.length := by
  obtain ⟨r, hr, hn, hl⟩ := lowestNotice_mem h
  have h1 : (evictNotice l rs).length = rs.length - 1 :=
    List.length_eraseP_of_mem hr (by simp [hn, hl])
  have h2 : 0 < rs.length := List.length_pos_of_mem hr
  omega

/-- What admission does (R141): the queue is as it was, or has one more place in use out of a free one, or as many as before. -/
theorem EventQueue.used_admit (q : EventQueue) (r : Rec) :
    (q.takeNotice r).1.used = q.used ∨ (q.used < Config.queuePlaces ∧ (q.takeNotice r).1.used = q.used + 1) := by
  unfold EventQueue.takeNotice
  simp only
  split
  · exact .inl rfl
  · split
    · exact .inr ⟨by assumption, EventQueue.used_append _ _⟩
    · split
      · split
        · left
          have := length_evictNotice (by assumption)
          simp only [EventQueue.append, EventQueue.used, List.length_append, List.length_singleton]
          omega
        · exact .inl rfl
      · exact .inl rfl

theorem EventQueue.used_admitIfFree (q : EventQueue) (r : Rec) :
    (q.admitIfFree r).used = q.used ∨ (q.used < Config.queuePlaces ∧ (q.admitIfFree r).used = q.used + 1) := by
  unfold EventQueue.admitIfFree
  simp only
  split
  · exact .inl rfl
  · split
    · exact .inr ⟨by assumption, EventQueue.used_append _ _⟩
    · exact .inl rfl

/-! ### Losing and offering a notice -/

/-- A lost notice changes the queue and the Fault Record only (R142). -/
theorem Part.loseNotice_eq (p : Part) (l : Nat) : ∃ q f, p.loseNotice l = (p.setQueue q).setFaults f ∧
    (q.used = p.queue.used ∨ (p.queue.used < Config.queuePlaces ∧ q.used = p.queue.used + 1)) := by
  unfold Part.loseNotice
  simp only
  split
  · rename_i f body _
    exact ⟨(p.queue.countLoss l).admitIfFree (faultNotice _ body), f, rfl, EventQueue.used_admitIfFree _ _⟩
  · rename_i f _
    exact ⟨p.queue.countLoss l, f, rfl, .inl rfl⟩

/-- Offering a notice changes the queue and the Fault Record only, and keeps the places within the queue (R141, R142). -/
theorem Part.offer_eq (p : Part) (r : Rec) : ∃ q f, p.offer r = (p.setQueue q).setFaults f ∧
    (p.queue.used ≤ Config.queuePlaces → q.used ≤ Config.queuePlaces) := by
  have ha := EventQueue.used_admit p.queue r
  unfold Part.offer
  split
  · rename_i q h
    refine ⟨q, p.faults, rfl, fun hb => ?_⟩
    rw [h] at ha
    simp only at ha
    omega
  · rename_i q l h
    obtain ⟨q', f', he, hu⟩ := (p.setQueue q).loseNotice_eq l
    refine ⟨q', f', by rw [he]; rfl, fun hb => ?_⟩
    rw [h] at ha
    simp only [Part.queue_setQueue] at ha hu
    omega

section
variable (p : Part) (r : Rec) (rs : List Rec)

@[simp] theorem Part.line_offer (l : LineId) : (p.offer r).line l = p.line l := by
  obtain ⟨q, f, h, -⟩ := p.offer_eq r; simp [h]

@[simp] theorem Part.ctx_offer (c : CtxId) : (p.offer r).ctx c = p.ctx c := by
  obtain ⟨q, f, h, -⟩ := p.offer_eq r; simp [h]

@[simp] theorem Part.position_offer (i : PosId) : (p.offer r).position i = p.position i := by
  obtain ⟨q, f, h, -⟩ := p.offer_eq r; simp [h]

@[simp] theorem Part.link_offer : (p.offer r).link = p.link := by
  obtain ⟨q, f, h, -⟩ := p.offer_eq r; simp [h]

@[simp] theorem Part.line_offerAll (l : LineId) : (p.offerAll rs).line l = p.line l := by
  induction rs generalizing p with
  | nil => rfl
  | cons r rs ih => exact (ih (p.offer r)).trans (by simp)

@[simp] theorem Part.ctx_offerAll (c : CtxId) : (p.offerAll rs).ctx c = p.ctx c := by
  induction rs generalizing p with
  | nil => rfl
  | cons r rs ih => exact (ih (p.offer r)).trans (by simp)

@[simp] theorem Part.position_offerAll (i : PosId) : (p.offerAll rs).position i = p.position i := by
  induction rs generalizing p with
  | nil => rfl
  | cons r rs ih => exact (ih (p.offer r)).trans (by simp)

@[simp] theorem Part.link_offerAll : (p.offerAll rs).link = p.link := by
  induction rs generalizing p with
  | nil => rfl
  | cons r rs ih => exact (ih (p.offer r)).trans (by simp)

/-- Offering notices keeps the places in use within the queue. -/
theorem Part.used_offerAll (h : p.queue.used ≤ Config.queuePlaces) : (p.offerAll rs).queue.used ≤ Config.queuePlaces := by
  induction rs generalizing p with
  | nil => exact h
  | cons r rs ih =>
    obtain ⟨q, f, he, hb⟩ := p.offer_eq r
    exact ih (p.offer r) (by rw [he]; exact hb h)
end

/-- What an offer makes of the queue and of the Fault Record depends on these two alone. -/
theorem Part.offer_congr {p q : Part} (r : Rec) (hq : p.queue = q.queue) (hf : p.faults = q.faults) :
    (p.offer r).queue = (q.offer r).queue ∧ (p.offer r).faults = (q.offer r).faults := by
  unfold Part.offer Part.loseNotice
  simp only [hq]
  cases q.queue.takeNotice r with
  | mk a b =>
    cases b with
    | none => simp [hf]
    | some l =>
      simp only [Part.queue_setQueue, Part.faults_setQueue, hf]
      cases q.faults.take _ with
      | mk f o => cases o <;> simp

theorem Part.offerAll_congr {p q : Part} (rs : List Rec) (hq : p.queue = q.queue) (hf : p.faults = q.faults) :
    (p.offerAll rs).queue = (q.offerAll rs).queue ∧ (p.offerAll rs).faults = (q.offerAll rs).faults := by
  induction rs generalizing p q with
  | nil => exact ⟨hq, hf⟩
  | cons r rs ih =>
    have h := Part.offer_congr r hq hf
    exact ih h.1 h.2

/-! ### Reservations -/

/-- A conversion changes the queue only, and keeps the number of places in use (R140). -/
theorem Part.convert_eq (p : Part) (r : Reservation) (rec : Rec) : ∃ q, p.convert r rec = p.setQueue q ∧ q.used = p.queue.used := by
  unfold Part.convert
  split
  · rename_i h
    refine ⟨_, rfl, ?_⟩
    have h1 : (p.queue.reservations.erase r).length = p.queue.reservations.length - 1 := List.length_erase_of_mem h
    have h2 : 0 < p.queue.reservations.length := List.length_pos_of_mem h
    simp only [EventQueue.append, EventQueue.used, List.length_append, List.length_singleton]
    omega
  · exact ⟨p.queue, rfl, rfl⟩

/-- A release changes the queue only, and takes no place (R140). -/
theorem Part.release_eq (p : Part) (r : Reservation) : ∃ q, p.release r = p.setQueue q ∧ q.used ≤ p.queue.used := by
  refine ⟨_, rfl, ?_⟩
  have := List.length_erase_le (a := r) (l := p.queue.reservations)
  simp only [EventQueue.used]
  omega

/-- A reservation changes the queue and the Fault Record only, and keeps the places within the queue (R139). -/
theorem Part.reserve_eq (p : Part) (r : Reservation) : ∃ q f, p.reserve r = (p.setQueue q).setFaults f ∧
    (p.queue.used ≤ Config.queuePlaces → q.used ≤ Config.queuePlaces) := by
  unfold Part.reserve
  simp only
  split
  · refine ⟨{ p.queue with reservations := p.queue.reservations ++ [r] }, p.faults, rfl, fun _ => ?_⟩
    rename_i h
    have hq : ({ p.queue with reservations := p.queue.reservations ++ [r] } : EventQueue).used = p.queue.used + 1 := by
      simp only [EventQueue.used, List.length_append, List.length_singleton]
      omega
    omega
  · split
    · rename_i l hl
      obtain ⟨q', f', he, hu⟩ := (p.setQueue { p.queue with
        records := evictNotice l p.queue.records, reservations := p.queue.reservations ++ [r] }).loseNotice_eq l
      refine ⟨q', f', by rw [he]; rfl, fun hb => ?_⟩
      have := length_evictNotice hl
      simp only [EventQueue.used, Part.queue_setQueue, List.length_append, List.length_singleton] at hu hb ⊢
      omega
    · exact ⟨p.queue, p.faults, rfl, id⟩

section
variable (p : Part) (r : Reservation) (rec : Rec) (rs : List Reservation)

@[simp] theorem Part.line_convert (l : LineId) : (p.convert r rec).line l = p.line l := by
  obtain ⟨q, h, -⟩ := p.convert_eq r rec; simp [h]
@[simp] theorem Part.ctx_convert (c : CtxId) : (p.convert r rec).ctx c = p.ctx c := by
  obtain ⟨q, h, -⟩ := p.convert_eq r rec; simp [h]
@[simp] theorem Part.position_convert (i : PosId) : (p.convert r rec).position i = p.position i := by
  obtain ⟨q, h, -⟩ := p.convert_eq r rec; simp [h]
@[simp] theorem Part.faults_convert : (p.convert r rec).faults = p.faults := by
  obtain ⟨q, h, -⟩ := p.convert_eq r rec; simp [h]
@[simp] theorem Part.link_convert : (p.convert r rec).link = p.link := by
  obtain ⟨q, h, -⟩ := p.convert_eq r rec; simp [h]

@[simp] theorem Part.line_release (l : LineId) : (p.release r).line l = p.line l := by simp [Part.release]
@[simp] theorem Part.ctx_release (c : CtxId) : (p.release r).ctx c = p.ctx c := by simp [Part.release]
@[simp] theorem Part.position_release (i : PosId) : (p.release r).position i = p.position i := by simp [Part.release]
@[simp] theorem Part.faults_release : (p.release r).faults = p.faults := by simp [Part.release]
@[simp] theorem Part.link_release : (p.release r).link = p.link := by simp [Part.release]

@[simp] theorem Part.line_reserve (l : LineId) : (p.reserve r).line l = p.line l := by
  obtain ⟨q, f, h, -⟩ := p.reserve_eq r; simp [h]
@[simp] theorem Part.ctx_reserve (c : CtxId) : (p.reserve r).ctx c = p.ctx c := by
  obtain ⟨q, f, h, -⟩ := p.reserve_eq r; simp [h]
@[simp] theorem Part.position_reserve (i : PosId) : (p.reserve r).position i = p.position i := by
  obtain ⟨q, f, h, -⟩ := p.reserve_eq r; simp [h]
@[simp] theorem Part.link_reserve : (p.reserve r).link = p.link := by
  obtain ⟨q, f, h, -⟩ := p.reserve_eq r; simp [h]

@[simp] theorem Part.line_reserveAll (l : LineId) : (p.reserveAll rs).line l = p.line l := by
  induction rs generalizing p with
  | nil => rfl
  | cons r rs ih => exact (ih (p.reserve r)).trans (by simp)
@[simp] theorem Part.ctx_reserveAll (c : CtxId) : (p.reserveAll rs).ctx c = p.ctx c := by
  induction rs generalizing p with
  | nil => rfl
  | cons r rs ih => exact (ih (p.reserve r)).trans (by simp)
@[simp] theorem Part.position_reserveAll (i : PosId) : (p.reserveAll rs).position i = p.position i := by
  induction rs generalizing p with
  | nil => rfl
  | cons r rs ih => exact (ih (p.reserve r)).trans (by simp)
@[simp] theorem Part.link_reserveAll : (p.reserveAll rs).link = p.link := by
  induction rs generalizing p with
  | nil => rfl
  | cons r rs ih => exact (ih (p.reserve r)).trans (by simp)

theorem Part.used_reserveAll (h : p.queue.used ≤ Config.queuePlaces) :
    (p.reserveAll rs).queue.used ≤ Config.queuePlaces := by
  induction rs generalizing p with
  | nil => exact h
  | cons r rs ih =>
    obtain ⟨q, f, he, hb⟩ := p.reserve_eq r
    exact ih (p.reserve r) (by rw [he]; exact hb h)
end

/-! ### Events -/

/-- A detection within an event changes the Fault Record and the notices still to be offered, and nothing else (R148). -/
theorem Ev.detect_eq (e : Ev) (d : Detection) : ∃ f fs, e.detect d = { e with part := e.part.setFaults f, faults := fs } := by
  unfold Ev.detect
  split
  · exact ⟨_, _, rfl⟩
  · exact ⟨_, e.faults, rfl⟩

section
variable (e : Ev) (d : Detection)

@[simp] theorem Ev.line_detect (l : LineId) : (e.detect d).part.line l = e.part.line l := by
  obtain ⟨f, fs, h⟩ := e.detect_eq d; simp [h]
@[simp] theorem Ev.ctx_detect (c : CtxId) : (e.detect d).part.ctx c = e.part.ctx c := by
  obtain ⟨f, fs, h⟩ := e.detect_eq d; simp [h]
@[simp] theorem Ev.position_detect (i : PosId) : (e.detect d).part.position i = e.part.position i := by
  obtain ⟨f, fs, h⟩ := e.detect_eq d; simp [h]
@[simp] theorem Ev.queue_detect : (e.detect d).part.queue = e.part.queue := by
  obtain ⟨f, fs, h⟩ := e.detect_eq d; simp [h]
@[simp] theorem Ev.link_detect : (e.detect d).part.link = e.part.link := by
  obtain ⟨f, fs, h⟩ := e.detect_eq d; simp [h]
@[simp] theorem Ev.tail_detect : (e.detect d).tail = e.tail := by
  obtain ⟨f, fs, h⟩ := e.detect_eq d; simp [h]

@[simp] theorem Ev.line_finish (l : LineId) : e.finish.line l = e.part.line l := by simp [Ev.finish]
@[simp] theorem Ev.ctx_finish (c : CtxId) : e.finish.ctx c = e.part.ctx c := by simp [Ev.finish]
@[simp] theorem Ev.position_finish (i : PosId) : e.finish.position i = e.part.position i := by simp [Ev.finish]
@[simp] theorem Ev.link_finish : e.finish.link = e.part.link := by simp [Ev.finish]

theorem Ev.used_finish (h : e.part.queue.used ≤ Config.queuePlaces) : e.finish.queue.used ≤ Config.queuePlaces :=
  Part.used_offerAll _ _ (Part.used_offerAll _ _ h)
end

end Sys2Proof.Machine
end

