-- ==== Sys2Proof/Laws/Operations.lean ====
section
/-! SUPPORT. What the ending of an operation can do: it makes records out of reservations and changes its own context, and touches no other
context, no position, no fault, nothing of the link, and of the lines at most the arming mark of the slot in progress. -/

namespace Sys2Proof.Machine

variable (p : Part) (c d : CtxId)

/-! ### Passes over the contexts -/

theorem Part.modCtx_id (f : Context → Context) (h : f (p.ctx c) = p.ctx c) : p.modCtx c f = p := by
  unfold Part.modCtx Part.setCtx
  rw [h]
  have : p.ctxs.set c.val (p.ctx c) c.isLt = p.ctxs := Vector.set_getElem_self c.isLt
  rw [this]

/-- The list of the contexts names each once. -/
theorem allCtx_nodup : allCtx.Nodup := by decide

theorem mem_allCtx (c : CtxId) : c ∈ allCtx := by
  revert c; decide

/-- A pass that leaves a projection of the part alone at every context leaves it alone. -/
theorem Part.forContexts_keeps {α : Type} (f : CtxId → Part → Part) (g : Part → α) (h : ∀ c q, g (f c q) = g q) :
    g (p.forContexts f) = g p := by
  unfold Part.forContexts
  generalize allCtx = l
  induction l generalizing p with
  | nil => rfl
  | cons a l ih => exact (ih (f a p)).trans (h a p)

/-- A pass whose turn for context c changes context c alone, by a function of that context and of a part of the state that no turn changes:
each context has its own change. -/
theorem Part.ctx_forContexts (f : CtxId → Part → Part) (g : CtxId → Context → Context)
    (hself : ∀ (e : CtxId) (q : Part), (∀ l, q.line l = p.line l) → (f e q).ctx e = g e (q.ctx e))
    (hne : ∀ (e d : CtxId) (q : Part), (∀ l, q.line l = p.line l) → d ≠ e → (f e q).ctx d = q.ctx d)
    (hline : ∀ (e : CtxId) (q : Part) (l : LineId), (f e q).line l = q.line l) :
    (p.forContexts f).ctx d = g d (p.ctx d) := by
  unfold Part.forContexts
  have key : ∀ (l : List CtxId) (q : Part), l.Nodup → (∀ m, q.line m = p.line m) →
      (l.foldl (fun q e => f e q) q).ctx d = if d ∈ l then g d (q.ctx d) else q.ctx d := by
    intro l
    induction l with
    | nil => intro q _ _; rfl
    | cons a l ih =>
      intro q hn hq
      have hq' : ∀ m, (f a q).line m = p.line m := fun m => (hline a q m).trans (hq m)
      rw [List.foldl_cons, ih (f a q) (List.nodup_cons.mp hn).2 hq']
      by_cases hda : d = a
      · subst hda
        have := (List.nodup_cons.mp hn).1
        simp [this, hself d q hq]
      · simp [hda, hne a d q hq hda]
  rw [key allCtx p allCtx_nodup fun _ => rfl]
  simp [mem_allCtx]

/-! ### The arming mark -/

theorem sansArming_forget (x : Line) (f : SlotRun → SlotRun) (h : ∀ r, { f r with forEntry := false } = { r with forEntry := false }) :
    Safety.sansArming { x with inSlot := x.inSlot.map f } = Safety.sansArming x := by
  cases x with
  | mk _ _ _ _ _ _ _ _ _ _ _ _ _ i _ => cases i <;> simp [Safety.sansArming, h]

@[simp] theorem Part.sansArming_forgetArming (l : LineId) :
    Safety.sansArming ((p.forgetArming c).line l) = Safety.sansArming (p.line l) := by
  unfold Part.forgetArming
  split
  · rename_i m _
    by_cases h : l = m
    · subst h
      rw [Part.line_modLine_self]
      exact sansArming_forget _ _ fun r => by split <;> rfl
    · rw [Part.line_modLine_ne _ _ h]
  · rfl

@[simp] theorem Part.ctx_forgetArming : (p.forgetArming c).ctx d = p.ctx d := by
  unfold Part.forgetArming; split <;> simp
@[simp] theorem Part.position_forgetArming (i : PosId) : (p.forgetArming c).position i = p.position i := by
  unfold Part.forgetArming; split <;> simp
@[simp] theorem Part.queue_forgetArming : (p.forgetArming c).queue = p.queue := by
  unfold Part.forgetArming; split <;> simp
@[simp] theorem Part.faults_forgetArming : (p.forgetArming c).faults = p.faults := by
  unfold Part.forgetArming; split <;> simp
@[simp] theorem Part.link_forgetArming : (p.forgetArming c).link = p.link := by
  unfold Part.forgetArming; split <;> simp

/-! ### One ending -/

/-- What an ending may touch: its own context, the Event Queue without a further place in use, and the arming mark. -/
structure Ends (c : CtxId) (p q : Part) : Prop where
  ctx       : ∀ d, d ≠ c → q.ctx d = p.ctx d
  line      : ∀ l, Safety.sansArming (q.line l) = Safety.sansArming (p.line l)
  position  : ∀ i, q.position i = p.position i
  faults    : q.faults = p.faults
  link      : q.link = p.link
  used      : q.queue.used ≤ p.queue.used
  attach    : (q.ctx c).attach = (p.ctx c).attach
  profile   : (q.ctx c).profile = (p.ctx c).profile
  image     : (q.ctx c).image = (p.ctx c).image

theorem Ends.refl : Ends c p p :=
  ⟨fun _ _ => rfl, fun _ => rfl, fun _ => rfl, rfl, rfl, Nat.le_refl _, rfl, rfl, rfl⟩

variable {p c}

theorem Ends.trans {q r : Part} (h : Ends c p q) (g : Ends c q r) : Ends c p r where
  ctx d hd := (g.ctx d hd).trans (h.ctx d hd)
  line l := (g.line l).trans (h.line l)
  position i := (g.position i).trans (h.position i)
  faults := g.faults.trans h.faults
  link := g.link.trans h.link
  used := Nat.le_trans g.used h.used
  attach := g.attach.trans h.attach
  profile := g.profile.trans h.profile
  image := g.image.trans h.image

/-- A conversion followed by a change of the context's working state. -/
theorem Ends.convert_mod (r : Reservation) (rec : Rec) (f : Context → Context) (ha : ∀ x, (f x).attach = x.attach)
    (hp : ∀ x, (f x).profile = x.profile) (hi : ∀ x, (f x).image = x.image) : Ends c p ((p.convert r rec).modCtx c f) where
  ctx d hd := by simp [hd]
  line l := by simp
  position i := by simp
  faults := by simp
  link := by simp
  used := by
    obtain ⟨q, h, hu⟩ := p.convert_eq r rec
    simp [h, hu]
  attach := by simp [ha]
  profile := by simp [hp]
  image := by simp [hi]

theorem Ends.forget : Ends c p (p.forgetArming c) where
  ctx d _ := by simp
  line l := by simp
  position i := by simp
  faults := by simp
  link := by simp
  used := by simp
  attach := by simp
  profile := by simp
  image := by simp

theorem Ends.endEntry (o : EntryEnding) : Ends c p (p.endEntry c o) := by
  unfold Part.endEntry
  split
  · refine Ends.trans ?_ .forget
    exact Ends.convert_mod _ _ _ (fun _ => rfl) (fun _ => rfl) fun _ => rfl
  · exact .refl p c

/-- The result of a capture is the one R113 and R115 give. -/
theorem Capture.result_eq (u : Capture) (o : CaptureOutcome) : u.result o = Safety.captureShown u o := by
  have entry (t : TrackRec) : t.entry o = Safety.trackShown o t := by
    obtain ⟨track, ⟨start, ends, count⟩, state, endedBy, startFound, taken, status, parity, buffer⟩ := t
    cases start <;> cases startFound <;> cases taken <;> simp [TrackRec.entry, TrackRec.verdict, Safety.trackShown] <;> grind
  simp [Capture.result, Safety.captureShown, entry]

theorem Ends.endCapture (o : CaptureOutcome) : Ends c p (p.endCapture c o) := by
  unfold Part.endCapture
  split
  · exact Ends.convert_mod _ _ _ (fun _ => rfl) (fun _ => rfl) fun _ => rfl
  · exact .refl p c

theorem Ends.release (r : Reservation) : Ends c p (p.release r) where
  ctx d _ := by simp
  line l := by simp
  position i := by simp
  faults := by simp
  link := by simp
  used := by
    obtain ⟨q, h, hu⟩ := p.release_eq r
    simp [h, hu]
  attach := by simp
  profile := by simp
  image := by simp

theorem Ends.mod (f : Context → Context) (ha : ∀ x, (f x).attach = x.attach)
    (hp : ∀ x, (f x).profile = x.profile) (hi : ∀ x, (f x).image = x.image) : Ends c p (p.modCtx c f) where
  ctx d hd := by simp [hd]
  line l := by simp
  position i := by simp
  faults := by simp
  link := by simp
  used := by simp
  attach := by simp [ha]
  profile := by simp [hp]
  image := by simp [hi]

theorem Ends.convert (r : Reservation) (rec : Rec) : Ends c p (p.convert r rec) where
  ctx d _ := by simp
  line l := by simp
  position i := by simp
  faults := by simp
  link := by simp
  used := by
    obtain ⟨q, h, hu⟩ := p.convert_eq r rec
    simp [h, hu]
  attach := by simp
  profile := by simp
  image := by simp

theorem Ends.startFails (o : StartOutcome) : Ends c p (p.startFails c o) := by
  unfold Part.startFails
  split
  · exact ((Ends.convert _ _).trans (.release _)).trans (.mod _ (fun _ => rfl) (fun _ => rfl) fun _ => rfl)
  · exact .refl p c

theorem Ends.endExchange (st : ExchangeStatus) : Ends c p (p.endExchange c st) := by
  unfold Part.endExchange
  split
  · exact Ends.convert_mod _ _ _ (fun _ => rfl) (fun _ => rfl) fun _ => rfl
  · exact .refl p c

theorem Ends.endSession (r : EndReason) (inFlight : Bool) : Ends c p (p.endSession c r inFlight) := by
  unfold Part.endSession
  split
  · exact Ends.convert_mod _ _ _ (fun _ => rfl) (fun _ => rfl) fun _ => rfl
  · exact .refl p c

theorem Ends.cutSession (o : StartOutcome) (st : ExchangeStatus) (r : EndReason) : Ends c p (p.cutSession c o st r) := by
  unfold Part.cutSession
  split
  · exact .refl p c
  · exact .startFails o
  · exact .endSession r false
  · exact (Ends.endExchange st).trans (.endSession r true)
  · exact (Ends.endExchange st).trans (.endSession r true)

/-- Every operation of a context ends (R57): no other context, position, fault or line is touched. -/
theorem Ends.endOps (why : Cause) : Ends c p (p.endOps c why) :=
  ((Ends.endEntry _).trans (.endCapture _)).trans (.cutSession _ _ _)

end Sys2Proof.Machine
end

