-- ==== Sys2Proof/Laws/Requests.lean ====
section
/-! SUPPORT. How a request is answered (R165): a refusal leaves the part as it was, no request but RESTART touches the link, and a request
that is taken at once leaves its reply. -/

namespace Sys2Proof.Machine

open Sys2Proof.Safety

/-! ### The form of a request -/

section
variable {α : Type} (p : Part) (run : α → Part × Items)

@[simp] theorem judge_ok (a : α) : judge p (.ok a) run = ((run a).1, .accepted (run a).2) := rfl
@[simp] theorem judge_error (r : RefusalCode × Nat) : judge p (.error r) run = (p, .refused r.1 r.2) := rfl

/-- A request is refused with the part as it was, or its checks found something and its effect is taken. -/
theorem judge_cases (check : Check α) :
    (∃ code field, judge p check run = (p, .refused code field)) ∨
    ∃ a, check = .ok a ∧ judge p check run = ((run a).1, .accepted (run a).2) := by
  cases check with
  | error r => exact .inl ⟨r.1, r.2, rfl⟩
  | ok a => exact .inr ⟨a, rfl, rfl⟩

theorem judge_refused (check : Check α) {code : RefusalCode} {field : Nat} (h : (judge p check run).2 = .refused code field) :
    (judge p check run).1 = p := by
  cases check with
  | error r => rfl
  | ok a => simp at h

theorem judge_link (check : Check α) (h : ∀ a, (run a).1.link = p.link) : (judge p check run).1.link = p.link := by
  cases check with
  | error r => rfl
  | ok a => exact h a

end

/-! ### The link is left alone -/

variable (p : Part)

theorem Part.foldl_link {α : Type} (l : List α) (f : Part → α → Part) (h : ∀ q a, (f q a).link = q.link) :
    (l.foldl f p).link = p.link := by
  induction l generalizing p with
  | nil => rfl
  | cons a l ih => exact (ih (f p a)).trans (h p a)

theorem Part.link_forContexts (f : CtxId → Part → Part) (h : ∀ c q, (f c q).link = q.link) : (p.forContexts f).link = p.link :=
  p.forContexts_keeps f (·.link) h

@[simp] theorem Part.link_recomputeScan (c : CtxId) (k : Nat) : (p.recomputeScan c k).link = p.link := by
  unfold Part.recomputeScan; split <;> simp

@[simp] theorem Part.link_recomputeLine (l : LineId) : (p.recomputeLine l).link = p.link :=
  Part.link_forContexts _ _ fun c q => by split <;> simp

@[simp] theorem Part.link_activate (l : LineId) (s : Schedule) : (p.activate l s).link = p.link :=
  (Part.link_forContexts _ _ fun c q => by split <;> simp).trans (by simp)

@[simp] theorem Part.link_startLine (l : LineId) : (p.startLine l).link = p.link :=
  (Part.link_forContexts _ _ fun c q => by split <;> simp).trans (by simp)

@[simp] theorem Part.link_modLoop (l : LineId) (f : LoopTester → LoopTester) : (p.modLoop l f).link = p.link := by
  simp [Part.modLoop]

@[simp] theorem Part.link_purge (l : LineId) (c : CtxId) : (p.purge l c).link = p.link := by simp [Part.purge]

@[simp] theorem Part.link_clearPointer (c : CtxId) (why : ClearCause) (ptr : PointerKind) (i : PosId) :
    (p.clearPointer c why ptr i).link = p.link := by
  unfold Part.clearPointer; split <;> simp

@[simp] theorem Part.link_clearPointers (c : CtxId) (why : ClearCause) (ptrs : List PointerKind) :
    (p.clearPointers c why ptrs).link = p.link :=
  Part.foldl_link _ _ _ fun q _ => Part.foldl_link _ _ _ fun q _ => by simp

@[simp] theorem Part.link_profile (c : CtxId) (pr : Profile) : (p.profile c pr).link = p.link := by
  unfold Part.profile
  simp only [Part.link_recomputeScan]
  cases (p.ctx c).profile with
  | none => simp
  | some old => by_cases h1 : old.line = pr.line <;> by_cases h2 : old.kind = pr.kind <;> simp [h1, h2]

@[simp] theorem Part.link_releaseCtx (c : CtxId) : (p.releaseCtx c).link = p.link := by
  unfold Part.releaseCtx; split <;> simp

@[simp] theorem Part.link_acceptTest (s : LoopSetup) (l : LineId) : (p.acceptTest s l).link = p.link := by simp [Part.acceptTest]

@[simp] theorem Part.link_indicate (t : Target) : (p.indicate t).link = p.link := by simp [Part.indicate]

@[simp] theorem Part.link_endEntry (c : CtxId) (o : EntryEnding) : (p.endEntry c o).link = p.link := (Ends.endEntry o).link

@[simp] theorem Part.link_endCapture (c : CtxId) (o : CaptureOutcome) : (p.endCapture c o).link = p.link := (Ends.endCapture o).link

@[simp] theorem Part.link_cutSession (c : CtxId) (o : StartOutcome) (st : ExchangeStatus) (r : EndReason) :
    (p.cutSession c o st r).link = p.link := (Ends.cutSession o st r).link

/-- No request but RESTART touches the link. -/
theorem link_serve (r : Request) (h : r ≠ .restart) : (serve r p).1.link = p.link := by
  cases r <;> simp only [serve]
  case restart => exact absurd rfl h
  case status => rfl
  case lineSetup => exact judge_link _ _ _ fun a => by simp
  case lineStart => exact judge_link _ _ _ fun a => by simpa using Part.foldl_link _ _ _ fun q l => by simp
  case lineStop => exact judge_link _ _ _ fun a => Part.foldl_link _ _ _ fun q l => by simp
  case loadSchedule => exact judge_link _ _ _ fun a => by split <;> simp
  case readSchedule => exact judge_link _ _ _ fun _ => rfl
  case bindPosition => exact judge_link _ _ _ fun a => by simp
  case setIndicators => exact judge_link _ _ _ fun a => Part.foldl_link _ _ _ fun q l => by simp
  case openEntry => exact judge_link _ _ _ fun a => by simp
  case cancelEntry => exact judge_link _ _ _ fun a => by simp
  case armReader => exact judge_link _ _ _ fun a => by simp
  case disarmReader => exact judge_link _ _ _ fun a => by simp
  case dropProfile => exact judge_link _ _ _ fun a => by simp
  case dropRelease => exact judge_link _ _ _ fun a => by simp
  case chipStart => exact judge_link _ _ _ fun a => by simp
  case chipExchange => exact judge_link _ _ _ fun a => by simp
  case chipStop => exact judge_link _ _ _ fun a => by simp
  case releaseCard => exact judge_link _ _ _ fun a => by simp
  case setLevels => exact judge_link _ _ _ fun a => by simp
  case faultSetup => exact judge_link _ _ _ fun a => by simp
  case readFaults => rfl
  case clearFaults => rfl
  case loopStart =>
    exact judge_link _ _ _ fun a => (Part.foldl_link _ _ _ fun q l => by simp).trans (by simp)
  case loopStop => exact judge_link _ _ _ fun a => Part.foldl_link _ _ _ fun q l => by simp
  case readLoopResults => exact judge_link _ _ _ fun _ => rfl

/-! ### A request taken at once -/

/-- The row of a request runs as the arrival of its message. -/
theorem exec_command (tag : Byte) (r : Request) (s : State) : exec (command tag r) s = arrive tag r s := by
  cases r <;> rfl

/-- A request that is taken at once is served, and its reply waits (R165). -/
theorem exec_command_ready {s : State} (hs : Ready s) (tag : Byte) (r : Request) (h : r ≠ .restart) :
    exec (command tag r) s = .next (Replied s (serve r s.part).1 tag (requestKind r) (serve r s.part).2) := by
  obtain ⟨h1, h2, h3, h4⟩ := hs
  have hk := link_serve s.part r h
  rw [exec_command]
  simp only [arrive, effect_eq, State.onPart, Part.receive, Link.listening, h1, h2, h3, requestMessage]
  simp [Part.take, Part.judgeMessage, Part.modLink, Part.setLink, hk, Link.refreshRts, Link.rtsLevel, Replied, h1, h2, h4]

/-- What a request that is taken at once does, when its rule serves it so. -/
theorem exec_of_serve {s : State} (hs : Ready s) (tag : Byte) (r : Request) (h : r ≠ .restart) {p' : Part} {a : Answer}
    (he : serve r s.part = (p', a)) : exec (command tag r) s = .next (Replied s p' tag (requestKind r) a) := by
  rw [exec_command_ready hs tag r h, he]

end Sys2Proof.Machine
end

