-- ==== Sys2Proof/Laws/Events.lean ====
section
/-! SUPPORT. An event's detections and closing notices (R57, R150) in the terms the statements use. -/

namespace Sys2Proof.Machine

open Sys2Proof.Safety

/-- Detections taken one after another within an event. -/
def Ev.detectAll (e : Ev) (ds : List Detection) : Ev := ds.foldl Ev.detect e

theorem Ev.detectAll_eq (e : Ev) (ds : List Detection) : e.detectAll ds =
    { e with part := e.part.setFaults (recordAll e.part.faults ds).1, faults := e.faults ++ (recordAll e.part.faults ds).2 } := by
  induction ds generalizing e with
  | nil => simp [Ev.detectAll, recordAll, Part.setFaults]
  | cons d ds ih =>
    have h : (e.detectAll (d :: ds)) = (e.detect d).detectAll ds := rfl
    rw [h, ih]
    unfold Ev.detect
    simp only [recordAll]
    cases e.part.faults.take d with
    | mk f b => cases b <;> simp [Part.setFaults, List.append_assoc]

theorem Part.offerAll_append (p : Part) (rs ts : List Rec) : p.offerAll (rs ++ ts) = (p.offerAll rs).offerAll ts :=
  List.foldl_append ..

/-- The end of an event: the FAULT notices, then the closing ones. -/
theorem Ev.finish_eq (e : Ev) : e.finish = e.part.offerAll (e.faults ++ e.tail) := (Part.offerAll_append ..).symm

theorem Ev.detect_eq_all (e : Ev) (d : Detection) : e.detect d =
    { e with part := e.part.setFaults (recordAll e.part.faults [d]).1, faults := e.faults ++ (recordAll e.part.faults [d]).2 } :=
  Ev.detectAll_eq e [d]

theorem Part.linkError_eq (p : Part) (e : LinkError) : p.linkError e =
    ((p.modLink fun k => k.countError e).setFaults (recordAll p.faults [linkDetection e]).1).offerAll
      (recordAll p.faults [linkDetection e]).2 := by
  simp [Part.linkError, Ev.detect_eq_all, Ev.finish_eq, Ev.of]

end Sys2Proof.Machine
end

