-- ==== Sys2Proof/Laws/Link.lean ====
section
/-! SUPPORT. The byte receiver one byte at a time (R164), and the kind byte of a request read from a body. -/

namespace Sys2Proof.Machine

/-- What the receiver holds of a message so far. -/
def Part.withRx (p : Part) (rx : List Byte) : Part := p.modLink fun k => { k with rx := rx }

variable (p : Part)

@[simp] theorem Part.withRx_withRx (a b : List Byte) : (p.withRx a).withRx b = p.withRx b := rfl

@[simp] theorem Part.rx_withRx (a : List Byte) : (p.withRx a).link.rx = a := rfl

@[simp] theorem Part.listening_withRx (a : List Byte) : (p.withRx a).link.listening = p.link.listening := rfl

theorem Part.withRx_self {a : List Byte} (h : p.link.rx = a) : p.withRx a = p := by
  subst h; rfl

/-- The start byte opens a message. -/
theorem Part.takeByte_start (hl : p.link.listening = true) (h : p.link.rx = []) : p.takeByte 0xC5 = p.withRx [0xC5] := by
  simp [Part.takeByte, hl, h, Part.withRx]

/-- A byte inside a message that neither completes it nor spoils its length is kept. -/
theorem Part.takeByte_inside (rx : List Byte) (b : Byte) (hl : p.link.listening = true) (h : rx ≠ [])
    (h1 : lengthBad (rx ++ [b]) = false) (h2 : messageWhole (rx ++ [b]) = false) :
    (p.withRx rx).takeByte b = p.withRx (rx ++ [b]) := by
  simp only [Part.takeByte, Part.listening_withRx, hl, Part.rx_withRx, h, h1, h2, if_false, Bool.not_true, Bool.false_eq_true]
  rfl

/-- The last byte of a message: its CRC decides (R164). -/
theorem Part.takeByte_last (rx : List Byte) (b : Byte) (hl : p.link.listening = true) (h : rx ≠ [])
    (h1 : lengthBad (rx ++ [b]) = false) (h2 : messageWhole (rx ++ [b]) = true) :
    (p.withRx rx).takeByte b =
      if crcGood (rx ++ [b]) then (p.withRx []).receive (readMessage ((splitMessage (rx ++ [b])).1.drop 2))
      else (p.withRx []).linkError .check := by
  simp only [Part.takeByte, Part.listening_withRx, hl, Part.rx_withRx, h, h1, h2, if_false, Bool.not_true, Bool.false_eq_true, if_true]
  rfl

/-- A request read from a body has the kind byte the body has. -/
theorem kind_of_readRequest {k : Nat} {l : List Byte} {r : Request} (h : readRequest k l = .good r) : (requestKind r).toNat = k := by
  unfold readRequest at h
  split at h
  · cases h
  · split at h
    · cases h
    · split at h <;> try (cases h)
      split at h
      · rename_i hb
        simp only [Parsed.good.injEq] at h
        subst h
        unfold buildRequest at hb
        split at hb <;> simp only [Option.some.injEq, reduceCtorEq] at hb <;> subst hb <;> rfl
      · cases h

end Sys2Proof.Machine
end

