-- ==== Sys2Proof/Laws/Schedules.lean ====
section
/-! SUPPORT. Scan counts and activations (R14, R24): which context they touch, and what they make of it. -/

namespace Sys2Proof.Machine

open Sys2Proof.Safety

variable (p : Part) (c d : CtxId) (k : Nat) (l m : LineId)

theorem Context.onLine_iff (x : Context) : x.onLine l = true ↔ x.lineId = some l := by simp [Context.onLine]

/-- N of a keypad is computed from D, R, L and k (R14); another context keeps what it has. -/
theorem Part.ctx_recomputeScan (h : (p.ctx c).lineId = some l) :
    (p.recomputeScan c k).ctx c = rescanned (p.ctx c) (p.line l).rate (p.line l).frameLen k := by
  unfold Part.recomputeScan rescanned
  cases hp : (p.ctx c).profile with
  | none => simp [Context.lineId, hp] at h
  | some pr =>
    simp only [Context.lineId, hp, Option.map_some, Option.some.injEq] at h
    cases pr with
    | mk li ad ki qq d ru ch =>
      simp only at h
      subst h
      cases d <;> simp [Context.modKeypad, scanCount, clamp, ceilDiv, hp]

theorem Part.ctx_recomputeScan_ne {c d : CtxId} (k : Nat) (h : d ≠ c) : (p.recomputeScan c k).ctx d = p.ctx d := by
  unfold Part.recomputeScan; split <;> simp [h]

@[simp] theorem Part.line_recomputeScan : (p.recomputeScan c k).line m = p.line m := by
  unfold Part.recomputeScan; split <;> simp

@[simp] theorem Part.position_recomputeScan (i : PosId) : (p.recomputeScan c k).position i = p.position i := by
  unfold Part.recomputeScan; split <;> simp

@[simp] theorem Part.queue_recomputeScan : (p.recomputeScan c k).queue = p.queue := by
  unfold Part.recomputeScan; split <;> simp

@[simp] theorem Part.faults_recomputeScan : (p.recomputeScan c k).faults = p.faults := by
  unfold Part.recomputeScan; split <;> simp

@[simp] theorem Part.line_recomputeLine : (p.recomputeLine l).line m = p.line m :=
  p.forContexts_keeps _ (fun q => q.line m) fun c q => by split <;> simp

@[simp] theorem Part.position_recomputeLine (i : PosId) : (p.recomputeLine l).position i = p.position i :=
  p.forContexts_keeps _ (fun q => q.position i) fun c q => by split <;> simp

@[simp] theorem Part.queue_recomputeLine : (p.recomputeLine l).queue = p.queue :=
  p.forContexts_keeps _ (fun q => q.queue) fun c q => by split <;> simp

@[simp] theorem Part.faults_recomputeLine : (p.recomputeLine l).faults = p.faults :=
  p.forContexts_keeps _ (fun q => q.faults) fun c q => by split <;> simp

/-- After LINE SETUP every keypad of the line with a slot has its N computed anew (R9, R14). -/
theorem Part.ctx_recomputeLine : (p.recomputeLine l).ctx c =
    if (p.ctx c).lineId = some l ∧ 0 < slotCount (p.line l).active c
    then rescanned (p.ctx c) (p.line l).rate (p.line l).frameLen (slotCount (p.line l).active c) else p.ctx c := by
  unfold Part.recomputeLine
  rw [Part.ctx_forContexts p c _ fun d x => if x.lineId = some l ∧ 0 < slotCount (p.line l).active d
    then rescanned x (p.line l).rate (p.line l).frameLen (slotCount (p.line l).active d) else x]
  · intro e q hq
    simp only [Context.onLine_iff, hq]
    split
    · rename_i h
      rw [Part.ctx_recomputeScan _ _ _ _ h.1, hq]
    · rfl
  · intro e d q _ hne
    split
    · exact Part.ctx_recomputeScan_ne _ _ hne
    · rfl
  · intro e q m
    split <;> simp

/-- What an activation makes of a projection of the part that no scan count belongs to. -/
theorem Part.activate_keeps {α : Type} (s : Schedule) (g : Part → α) (h1 : ∀ q c k, g (Part.recomputeScan q c k) = g q) :
    g (p.activate l s) = g (p.modLine l fun x => { x with active := s }) := by
  unfold Part.activate
  exact Part.forContexts_keeps _ _ g fun c q => by split; exact h1 ..; rfl

@[simp] theorem Part.line_activate_self (s : Schedule) : (p.activate l s).line l = { p.line l with active := s } := by
  rw [Part.activate_keeps p l s (fun q => q.line l) fun q c k => by simp]; simp

@[simp] theorem Part.line_activate_ne {l m : LineId} (s : Schedule) (h : m ≠ l) : (p.activate l s).line m = p.line m := by
  rw [Part.activate_keeps p l s (fun q => q.line m) fun q c k => by simp]; simp [h]

@[simp] theorem Part.position_activate (s : Schedule) (i : PosId) : (p.activate l s).position i = p.position i := by
  rw [Part.activate_keeps p l s (fun q => q.position i) fun q c k => by simp]; simp

@[simp] theorem Part.queue_activate (s : Schedule) : (p.activate l s).queue = p.queue := by
  rw [Part.activate_keeps p l s (fun q => q.queue) fun q c k => by simp]; simp

@[simp] theorem Part.faults_activate (s : Schedule) : (p.activate l s).faults = p.faults := by
  rw [Part.activate_keeps p l s (fun q => q.faults) fun q c k => by simp]; simp

/-- An activation computes N anew for each keypad of the line whose k it changes to 1 or more (R14). -/
theorem Part.ctx_activate (s : Schedule) : (p.activate l s).ctx c =
    if (p.ctx c).lineId = some l ∧ slotCount s c ≠ slotCount (p.line l).active c ∧ 0 < slotCount s c
    then rescanned (p.ctx c) (p.line l).rate (p.line l).frameLen (slotCount s c) else p.ctx c := by
  unfold Part.activate
  simp only
  rw [Part.ctx_forContexts (p.modLine l _) c _ fun d x =>
    if x.lineId = some l ∧ slotCount s d ≠ slotCount (p.line l).active d ∧ 0 < slotCount s d
    then rescanned x (p.line l).rate (p.line l).frameLen (slotCount s d) else x]
  · simp
  · intro e q hq
    by_cases h : (q.ctx e).lineId = some l
    · simp only [(Context.onLine_iff _ _).mpr h, Bool.true_and, h, true_and, Bool.and_eq_true, decide_eq_true_eq]
      split
      · rw [Part.ctx_recomputeScan _ _ _ _ h, hq]
        simp
      · rfl
    · have : (q.ctx e).onLine l = false := by
        cases hh : (q.ctx e).onLine l
        · rfl
        · exact absurd ((Context.onLine_iff _ _).mp hh) h
      simp [this, h]
  · intro e d q _ hne
    split
    · exact Part.ctx_recomputeScan_ne _ _ hne
    · rfl
  · intro e q m
    split <;> simp

end Sys2Proof.Machine
end

