-- ==== Sys2Proof/WellFormed.lean ====
section
/-! DEFINITION. Well-formed commands: those that can arrive. A number of a request fits the width of its field (R163), a list has no
more values than a message body holds, and an event names a slot and an upstream unit that a frame can hold. Whether a value lies in
the range its rule allows is not asked here: that is the rule's own check, and its refusal is the command's effect. -/

namespace Sys2Proof

/-- A number fits a field of `w` bytes (R163). -/
def fitsBytes (w n : Nat) : Bool := n < 256 ^ w

/-- A number left out, or one that fits. -/
def fitsOpt (w : Nat) : Option Nat → Bool
  | none => true
  | some n => fitsBytes w n

/-- A list of numbers of `w` bytes each, at most `m` of them. -/
def fitsList (w m : Nat) (l : List Nat) : Bool := l.length ≤ m && l.all (fitsBytes w)

def fitsListOpt (w m : Nat) : Option (List Nat) → Bool
  | none => true
  | some l => fitsList w m l

/-- A message body holds at most 1,200 bytes (R163), so no list in it is longer. -/
def bodyMax : Nat := 1200

def KeypadPart.wellFormed (k : KeypadPart) : Bool :=
  (match k.text with | none => true | some t => t.length ≤ bodyMax) &&
  fitsOpt 1 k.lamp1 && fitsOpt 1 k.lamp2 && fitsOpt 1 k.lamp3 && fitsOpt 1 k.lamp4 && fitsOpt 1 k.beep

def ReaderPart.wellFormed (r : ReaderPart) : Bool := fitsOpt 1 r.bezel && fitsOpt 1 r.beep

def RuleField.wellFormed (r : RuleField) : Bool :=
  fitsBytes 1 r.track && fitsBytes 1 r.start && fitsList 1 bodyMax r.ends && fitsBytes 1 r.count

def ProfileFields.wellFormed (f : ProfileFields) : Bool :=
  fitsOpt 1 f.line && fitsOpt 1 f.address && fitsOpt 1 f.kind && fitsOpt 1 f.q && fitsOpt 1 f.d &&
  (match f.rules with | none => true | some l => l.length ≤ bodyMax && l.all RuleField.wellFormed) && fitsOpt 2 f.chipTimeout

def EntryFields.wellFormed (f : EntryFields) : Bool :=
  fitsBytes 1 f.kind && fitsBytes 1 f.min && fitsBytes 1 f.max && fitsListOpt 1 3 f.terms &&
  fitsOpt 3 f.firstKey && fitsOpt 3 f.interKey && fitsOpt 3 f.total && fitsOpt 1 f.echo &&
  (match f.prompt with | none => true | some t => t.length ≤ bodyMax)

def ClassSetting.wellFormed (c : ClassSetting) : Bool := fitsBytes 1 c.cls && fitsOpt 1 c.detect && fitsOpt 1 c.report

def LoopFields.wellFormed (f : LoopFields) : Bool :=
  fitsListOpt 2 4 f.pattern && fitsOpt 2 f.passLimit && fitsOpt 1 f.continuous && fitsOpt 1 f.stopOnError &&
  fitsListOpt 1 16 f.participants

/-- An upstream unit begins inside its slot and has at most 24 bits (R2, R4). -/
def Upstream.wellFormed : Upstream → Bool
  | .nothing => true
  | .unit start nbits _ => start < 32 && nbits ≤ 24

def Instr.wellFormed : Instr → Bool
  | .status _ => true
  | .restart _ => true
  | .lineSetup _ line rate slots pmin => fitsBytes 1 line && fitsBytes 2 rate && fitsBytes 1 slots && fitsBytes 2 pmin
  | .lineStart _ lines => fitsBytes 1 lines
  | .lineStop _ lines => fitsBytes 1 lines
  | .loadSchedule _ line entries => fitsBytes 1 line && fitsList 1 16 entries
  | .readSchedule _ line => fitsBytes 1 line
  | .bindPosition _ pos reader keypad => fitsBytes 1 pos && fitsOpt 1 reader && fitsOpt 1 keypad
  | .setIndicators _ pos keypad reader =>
      fitsBytes 1 pos && (match keypad with | none => true | some k => k.wellFormed) &&
      (match reader with | none => true | some r => r.wellFormed)
  | .openEntry _ pos fields => fitsBytes 1 pos && fields.wellFormed
  | .cancelEntry _ pos => fitsBytes 1 pos
  | .armReader _ pos mask timeout => fitsBytes 1 pos && fitsBytes 1 mask && fitsOpt 3 timeout
  | .disarmReader _ pos => fitsBytes 1 pos
  | .dropProfile _ ctx fields => fitsBytes 1 ctx && fields.wellFormed
  | .dropRelease _ ctx => fitsBytes 1 ctx
  | .chipStart _ pos => fitsBytes 1 pos
  | .chipExchange _ pos command => fitsBytes 1 pos && command.length ≤ bodyMax
  | .chipStop _ pos => fitsBytes 1 pos
  | .releaseCard _ pos => fitsBytes 1 pos
  | .setLevels _ kind level => fitsBytes 1 kind && fitsBytes 1 level
  | .faultSetup _ settings style =>
      (match settings with | none => true | some l => l.length ≤ bodyMax && l.all ClassSetting.wellFormed) && fitsOpt 1 style
  | .readFaults _ => true
  | .clearFaults _ => true
  | .loopStart _ lines fields => fitsBytes 1 lines && fields.wellFormed
  | .loopStop _ lines => fitsBytes 1 lines
  | .readLoopResults _ lines => fitsBytes 1 lines
  | .linkMessageReceived bytes => bytes ≠ []
  | .linkGapTimeout => true
  | .messageSendStart => true
  | .messageSent _ => true
  | .restartTimeout _ => true
  | .ctsChange _ => true
  | .powerUpReset _ _ => true
  | .resetRelease _ => true
  | .startupWaitEnd => true
  | .frameMark _ _ _ => true
  | .slotStart _ slot => slot < 16
  | .slotCompletion _ slot up => slot < 16 && up.wellFormed
  | .entryTimerExpiry _ _ => true
  | .armTimerExpiry _ => true
  | .captureLimitExpiry _ => true
  | .atrWaitExpiry _ => true
  | .responseTimeout _ => true
  | .stoppedFrameEnd _ => true
  | .driverTrip _ => true
  | .driverFaultInputCleared _ => true

end Sys2Proof
end

