-- ==== Sys2Proof/Tests/Slice0.lean ====
section
/-! SUPPORT. The author's tests: a well-formedness smoke test for each check, small tests of one command each with expected results from the
manual's rules and examples, and a witness for the hypotheses of each statement, clause by clause. -/

namespace Sys2Proof.Tests

set_option Elab.async false

open Sys2Proof.Machine Sys2Proof.Safety

/-! ### Well-formedness: an ill-formed command for each check -/

def fields0 : EntryFields :=
  { kind := 0, min := 0, max := 4, terms := none, firstKey := none, interKey := none, total := none, echo := none, prompt := none }
def profile0 : ProfileFields :=
  { line := none, address := none, kind := none, q := none, d := none, rules := none, chipTimeout := none }
def loop0 : LoopFields := { pattern := none, passLimit := none, continuous := none, stopOnError := none, participants := none }
def pad0 : KeypadPart := { text := none, lamp1 := none, lamp2 := none, lamp3 := none, lamp4 := none, beep := none }

theorem test_ill_formed_numbers :
    ([.lineSetup 0 256 500 8 0, .lineSetup 0 0 65536 8 0, .lineSetup 0 0 500 256 0, .lineSetup 0 0 500 8 65536, .lineStart 0 256,
      .lineStop 0 256, .loadSchedule 0 256 [], .loadSchedule 0 0 [256], .readSchedule 0 256, .cancelEntry 0 256,
      .disarmReader 0 256, .dropRelease 0 256, .chipStart 0 256, .chipStop 0 256, .releaseCard 0 256, .setLevels 0 256 0,
      .setLevels 0 0 256, .loopStop 0 256, .readLoopResults 0 256] : List Instr).all (fun i => !i.wellFormed) = true := by decide +kernel

theorem test_ill_formed_fields :
    ([.bindPosition 0 256 none none, .bindPosition 0 1 (some 256) none, .bindPosition 0 1 none (some 256),
      .setIndicators 0 256 none none, .setIndicators 0 1 (some { pad0 with lamp1 := some 256 }) none,
      .setIndicators 0 1 (some { pad0 with beep := some 256 }) none,
      .setIndicators 0 1 (some { pad0 with text := some (List.replicate 1201 0) }) none,
      .setIndicators 0 1 none (some { bezel := some 256, beep := none }), .setIndicators 0 1 none (some { bezel := none, beep := some 256 }),
      .openEntry 0 256 fields0, .openEntry 0 1 { fields0 with kind := 256 }, .openEntry 0 1 { fields0 with min := 256 },
      .openEntry 0 1 { fields0 with max := 256 }, .openEntry 0 1 { fields0 with terms := some [10, 10, 10, 10] },
      .openEntry 0 1 { fields0 with firstKey := some 16777216 }, .openEntry 0 1 { fields0 with interKey := some 16777216 },
      .openEntry 0 1 { fields0 with total := some 16777216 }, .openEntry 0 1 { fields0 with echo := some 256 },
      .openEntry 0 1 { fields0 with prompt := some (List.replicate 1201 0) }] : List Instr).all (fun i => !i.wellFormed) = true := by
  decide +kernel

theorem test_ill_formed_others :
    ([.armReader 0 256 1 none, .armReader 0 1 256 none, .armReader 0 1 1 (some 16777216), .dropProfile 0 256 profile0,
      .dropProfile 0 1 { profile0 with line := some 256 }, .dropProfile 0 1 { profile0 with address := some 256 },
      .dropProfile 0 1 { profile0 with kind := some 256 }, .dropProfile 0 1 { profile0 with q := some 256 },
      .dropProfile 0 1 { profile0 with d := some 256 }, .dropProfile 0 1 { profile0 with chipTimeout := some 65536 },
      .dropProfile 0 1 { profile0 with rules := some [{ track := 1, start := 256, ends := [], count := 0 }] },
      .chipExchange 0 256 [], .chipExchange 0 1 (List.replicate 1201 0), .faultSetup 0 (some [{ cls := 256, detect := none, report := none }]) none,
      .faultSetup 0 (some [{ cls := 0, detect := some 256, report := none }]) none,
      .faultSetup 0 (some [{ cls := 0, detect := none, report := some 256 }]) none, .faultSetup 0 none (some 256),
      .loopStart 0 256 loop0, .loopStart 0 0 { loop0 with pattern := some [65536] }, .loopStart 0 0 { loop0 with pattern := some [0, 0, 0, 0, 0] },
      .loopStart 0 0 { loop0 with passLimit := some 65536 }, .loopStart 0 0 { loop0 with continuous := some 256 },
      .loopStart 0 0 { loop0 with stopOnError := some 256 }, .loopStart 0 0 { loop0 with participants := some [256] },
      .linkMessageReceived [], .slotStart .a 16, .slotCompletion .a 16 .nothing, .slotCompletion .a 0 (.unit 32 24 0),
      .slotCompletion .a 0 (.unit 0 25 0)] : List Instr).all (fun i => !i.wellFormed) = true := by decide +kernel

theorem test_well_formed_with_a_refused_value :
    ([.lineSetup 0 2 300 17 60000, .openEntry 0 9 { fields0 with kind := 7 }, .slotCompletion .b 15 (.unit 31 24 0)] : List Instr).all
      Instr.wellFormed = true := by decide +kernel

/-! ### A small bench

Line A in RUN with S = 12 and Pmin = 2,000 at 500 kbit/s (section 1.9.1); context 0 a keypad at drop address 4 in slot 0, context 1 a stripe
reader at 7 in slot 6, context 2 a hybrid reader at 3 in slots 8 and 9, all ATTACHED; context 3 a PARKED keypad. Position 1 has reader 2 and keypad 0,
position 2 reader 1 and keypad 0. -/

def link0 : Link := { Link.afterPowerUp with phase := .running, rts := true }
def idlePart : Part := { Part.afterPowerUp with link := link0 }

def lineA : Line :=
  { Line.afterPowerUp with
    slots := 12, pmin := 2000, frameLen := 1000, period := 2000, state := .run, frame := 7
    active := [some 0, none, none, none, none, none, some 1, none, some 2, some 2, none, none]
    calls := [0x4B, 0x0F, 0x0F, 0x0F, 0x0F, 0x0F, 0x78, 0x0F, 0x3C, 0x3C, 0x0F, 0x0F] }

def keyProfile : Profile := { line := .a, address := 4, kind := .keypad, q := 8, d := some 6, rules := none, chipTimeout := none }
def stripeProfile : Profile :=
  { line := .a, address := 7, kind := .readerStripe, q := 8, d := none, rules := some defaultRules, chipTimeout := none }
def hybridProfile : Profile :=
  { line := .a, address := 3, kind := .readerHybrid, q := 8, d := none, rules := some defaultRules, chipTimeout := some 5000 }
def pad : Keypad := { Keypad.fresh with n := 3 }
def card : Reader := { Reader.fresh with card := .inserted }
def chip : Chip := { Chip.fresh with reportedLatch := .off, reportedPower := .off }

def keyCtx : Context :=
  { Context.free.asKind .keypad with
    attach := .attached, profile := some keyProfile, features := some { display := true, lamps := 4 }, keypad := some pad }
def stripeCtx : Context :=
  { Context.free.asKind .readerStripe with attach := .attached, profile := some stripeProfile, features := some { display := false, lamps := 1 } }
def hybridCtx : Context :=
  { Context.free.asKind .readerHybrid with
    attach := .attached, profile := some hybridProfile, features := some { display := false, lamps := 0 }, reader := some card, chip := some chip }
def parkedCtx : Context :=
  { Context.free.asKind .keypad with attach := .parked, profile := some { keyProfile with address := 5 }, keypad := some pad }

def bench : Part :=
  ((((({ idlePart with lineA := lineA }.setCtx 0 keyCtx).setCtx 1 stripeCtx).setCtx 2 hybridCtx).setCtx 3 parkedCtx).setPosition 0
    { reader := some 2, keypad := some 0 }).setPosition 1 { reader := some 1, keypad := some 0 }

/-- The bench with line A in IDLE and every context of it PARKED. -/
def idleBench : Part :=
  allCtx.foldl (fun p c => if (p.ctx c).attach = .attached then p.modCtx c fun x => { x with attach := .parked } else p)
    { bench with lineA := { lineA with state := .idle, calls := [] } }

/-- An entry in COLLECTING or CLOSING on the keypad, held by position 1, with its reservation. -/
def openEntry0 : Entry :=
  { kind := .opened, owner := 0, min := 1, max := 4, terms := { enter := true, f1 := false, f2 := false }, echo := false, state := .collecting
    digits := [5], count := 0, ignored := 0, arming := none, firstMs := 0, interMs := 15000, firstKey := none, interKey := some 7500
    total := none, blockWait := none, block := [], endKey := none }
def closing0 : Entry :=
  { openEntry0 with kind := .secure, min := 4, max := 6, state := .closing, digits := [], count := 4, endKey := some 10, interKey := none
                    blockWait := some 500, block := List.replicate 8 0x11 }
def withEntry (e : Entry) : Part :=
  (bench.setCtx 0 { keyCtx with holder := some 0, keypad := some { pad with wanted := if e.kind = .secure then .masked else .opened, entry := some e } }).reserve
    (.entry 0)

/-- A capture of track 2 on the stripe reader, held by position 2. -/
def capture0 : Capture :=
  { state := .armed, owner := 1, mask := { t1 := false, t2 := true, t3 := false }, armTimer := some 15000, limitTimer := none
    tracks := [TrackRec.start defaultRules 2] }
def withCapture (u : Capture) : Part :=
  (bench.setCtx 1 { stripeCtx with holder := some 1, reader := some { Reader.fresh with card := .noCard, capture := some u } }).reserve (.capture 1)

/-- A chip session of position 1 on the hybrid reader. -/
def withSession (st : Session) (held : List Reservation) (f : Chip → Chip) : Part :=
  (bench.setCtx 2 { hybridCtx with
    holder := some 0, chip := some (f { chip with session := st, owner := some 0, wantedLatch := true, wantedPower := true, powerSeen := true }) }).reserveAll
    held

def starting0 (f : Chip → Chip) : Part := withSession .starting [.chipStart 2, .chipEnd 2] f
def ready0 : Part := withSession .ready [.chipEnd 2] id
def awaiting0 (f : Chip → Chip) : Part := withSession .awaiting [.chipEnd 2, .exchange 2] f

/-- The bench with a slot of line A in progress. -/
def inSlot (p : Part) (run : SlotRun) : Part := p.modLine .a fun x => { x with inSlot := some run, nextSlot := run.index + 1 }
def slotOf (i : Nat) (c : CtxId) (u : DownUnit) : SlotRun :=
  { index := i, ctx := c, unit := u, fromLoop := false, forEntry := false, call := 0, word := u.word }

/-- The frame in progress on line A stands before slot n; `framed`: it has been sent to its end. -/
def before_ (n : Nat) (p : Part) : Part := p.modLine .a fun x => { x with nextSlot := n }
def framed (p : Part) : Part := before_ 12 p

/-- A test accepted, or running with the stripe reader taking part. -/
def accepted0 : Part :=
  (bench.modLoop .a fun t => { t with state := .accepted, setup := some defaultSetup }).reserve (.loop .a)
def testing0 (r : LoopRecord) : Part :=
  (((bench.modCtx 1 fun x => { x with attach := .looping }).modLine .a fun x =>
    { x with state := .test, loop := { x.loop with state := .inTest, setup := some defaultSetup, entryFrame := some 5, records := [r] } })).reserve
    (.loop .a)
def loopRec (m : Nat) : LoopRecord := { ctx := 1, address := 7, slot := m, passes := 0, finish := .running, error := none }

/-- A queue with n LINE notices of level 5 and results of level 4 up to m records. -/
def notice5 : Rec := { level := 5, pos := none, ctx := none, line := some .a, body := .line .run .started }
def result4 : Rec := { level := 4, pos := none, ctx := some 1, line := some .a, body := .capture { outcome := .incomplete, mask := .none, tracks := [] } }
def keyRec (l : Nat) : Rec := { level := l, pos := none, ctx := some 0, line := some .a, body := .key .opened (.key 5) }
def crowded (rs : List Rec) : Part := { bench with queue := { bench.queue with records := rs } }

def at_ (p : Part) : State := { part := p, pending := [] }
def after (i : Instr) (p : Part) : Part :=
  match exec i (at_ p) with
  | .next t => t.part
  | _ => p
def answer (i : Instr) (p : Part) : Option Answer := (after i p).link.reply.map (·.answer)
def refusedWith (i : Instr) (p : Part) : Option RefusalCode :=
  match answer i p with
  | some (.refused code _) => some code
  | _ => none

/-- An upstream unit of a kind with its check good. -/
def up (kind : BitVec 4) (w : Payload) : Upstream := .unit 1 24 (unitWord kind w)

/-! ### Checkers for the conditions of every state -/

def opsAt (s : State) (c : CtxId) : Bool :=
  let x := s.part.ctx c
  let held := s.part.queue.reservations
  decide (held.count (.entry c) = x.entry.isSome.toNat ∧ held.count (.capture c) = x.capture.isSome.toNat ∧
    held.count (.chipStart c) = (decide (x.session = .starting)).toNat ∧ held.count (.chipEnd c) = (decide (x.session ≠ .off)).toNat ∧
    held.count (.exchange c) = (decide (x.session = .sending ∨ x.session = .awaiting)).toNat ∧
    (x.holder = none ↔ x.entry = none ∧ x.capture = none ∧ x.session = .off) ∧
    (x.entry.isSome = true → x.capture = none ∧ x.session = .off) ∧ (x.capture.isSome = true → x.session = .off) ∧
    (∀ e ∈ x.entry, x.holder = some e.owner) ∧ (∀ u ∈ x.capture, x.holder = some u.owner) ∧
    (∀ h ∈ x.chip, h.session ≠ .off → x.holder = h.owner) ∧ (x.holder ≠ none → x.attach = .attached))

def opsLine (s : State) (l : LineId) : Bool :=
  decide (s.part.queue.reservations.count (.loop l) = (decide ((s.part.line l).loop.state ≠ .noTest)).toNat ∧
    ((s.part.line l).loop.state ≠ .noTest → (s.part.line l).state ≠ .idle ∧
      ∀ c : CtxId, (s.part.ctx c).lineId = some l → (s.part.ctx c).holder = none))

theorem operationsSound_of_check {s : State} (h : ((∀ c, opsAt s c = true) ∧ opsLine s .a = true) ∧ opsLine s .b = true) : OperationsSound s := by
  obtain ⟨⟨hc, ha⟩, hb⟩ := h
  refine ⟨fun c => ?_, fun l => ?_⟩
  · obtain ⟨h1, h2, h3, h4, h5, h6, h7, h8, h9, h10, h11, h12⟩ := of_decide_eq_true (hc c)
    exact ⟨h1, h2, h3, h4, h5, h6, h7, h8, fun e he => h9 e he, fun u hu => h10 u hu, fun x hx => h11 x hx, h12⟩
  · cases l
    · exact of_decide_eq_true ha
    · exact of_decide_eq_true hb

def attachAt (s : State) (c : CtxId) : Bool :=
  decide (((s.part.ctx c).attach = .free ↔ (s.part.ctx c).profile = none) ∧
    ((s.part.ctx c).keypad.isSome = true ↔ (s.part.ctx c).kind = some .keypad) ∧
    ((s.part.ctx c).reader.isSome = true ↔ (s.part.ctx c).kind = some .readerStripe ∨ (s.part.ctx c).kind = some .readerHybrid) ∧
    ((s.part.ctx c).chip.isSome = true ↔ (s.part.ctx c).kind = some .readerHybrid) ∧
    ∀ pr ∈ (s.part.ctx c).profile, (s.part.line pr.line).state = .idle → (s.part.ctx c).attach = .parked)

theorem attachSound_of_check {s : State} (h : ∀ c, attachAt s c = true) : AttachSound s := fun c => by
  obtain ⟨h1, h2, h3, h4, h5⟩ := of_decide_eq_true (h c)
  exact ⟨h1, h2, h3, h4, fun pr hp => h5 pr hp⟩

/-- No timer of context c on line l is due. -/
def notDueAt (p : Part) (l : LineId) (c : CtxId) : Bool :=
  decide ((p.ctx c).lineId = some l →
    (∀ e ∈ (p.ctx c).entry, ∀ t ∈ [EntryTimer.firstKey, .interKey, .total, .blockWait], e.timer t ≠ some 0) ∧
    (∀ u ∈ (p.ctx c).capture, (u.state = .armed → u.armTimer ≠ some 0) ∧ (u.state = .capturing → u.limitTimer ≠ some 0)) ∧
    ∀ h ∈ (p.ctx c).chip, (h.session = .starting → h.atrWait ≠ some 0) ∧ (h.session = .awaiting → h.respTimer ≠ some 0))

theorem noExpiryDue_of_check {p : Part} {l : LineId} (h : ∀ c, notDueAt p l c = true) : NoExpiryDue p l := fun c hl => by
  obtain ⟨h1, h2, h3⟩ := of_decide_eq_true (h c) hl
  exact ⟨fun e he t => h1 e he t (by cases t <;> simp), fun u hu => h2 u hu, fun x hx => h3 x hx⟩

theorem quietUpTo_of_check {x : Line} {n : Nat} (h : ∀ j < n, x.nextSlot ≤ j → x.active[j]?.join = none) : QuietUpTo x n :=
  fun j h1 h2 c hc => absurd (h j h2 h1) (by simp [hc])

theorem slotNext_of_check {p : Part} {l : LineId} {i : Nat}
    (h : ((p.line l).state ≠ .idle ∧ (p.line l).inSlot = none ∧ (p.line l).nextSlot ≤ i ∧ i < (p.line l).slots ∧
      ∀ j < i, (p.line l).nextSlot ≤ j → (p.line l).active[j]?.join = none) ∧ ∀ c, notDueAt p l c = true) : SlotNext p l i :=
  ⟨h.1.1, h.1.2.1, h.1.2.2.1, h.1.2.2.2.1, quietUpTo_of_check h.1.2.2.2.2, noExpiryDue_of_check h.2⟩

theorem frameSent_of_check {p : Part} {l : LineId}
    (h : ((p.line l).inSlot = none ∧ ∀ j < (p.line l).slots, (p.line l).nextSlot ≤ j → (p.line l).active[j]?.join = none) ∧
      ∀ c, notDueAt p l c = true) : FrameSent p l :=
  ⟨h.1.1, quietUpTo_of_check h.1.2, noExpiryDue_of_check h.2⟩

theorem slotEnds_of_check {s : State} {l : LineId} {i : Nat} {run : SlotRun} {pr : Profile}
    (h : ((s.part.line l).inSlot = some run ∧ run.index = i ∧ (s.part.ctx run.ctx).profile = some pr ∧ pr.line = l) ∧
      ∀ c, notDueAt s.part l c = true) : SlotEnds s l i run pr :=
  ⟨h.1.1, h.1.2.1, noExpiryDue_of_check h.2, h.1.2.2⟩

/-- The same with the context ATTACHED. -/
theorem hears_of_check {s : State} {l : LineId} {i : Nat} {run : SlotRun} {pr : Profile}
    (h : (((s.part.line l).inSlot = some run ∧ run.index = i ∧ (s.part.ctx run.ctx).profile = some pr ∧ pr.line = l) ∧
      ∀ c, notDueAt s.part l c = true) ∧ (s.part.ctx run.ctx).attach = .attached) : Hears s l i run pr :=
  ⟨slotEnds_of_check h.1, h.2⟩

theorem addressesFit_of_check {p : Part} (h : ∀ c : CtxId, ∀ pr ∈ (p.ctx c).profile, 1 ≤ pr.address ∧ pr.address ≤ 15) : AddressesFit p :=
  fun c pr hp => h c pr hp

theorem notPressed_of_check {form : ScanForm} {k : Keypad} {w : Payload} (h : ∀ j < (keysUnder form k).length, ¬ Pressed form k w j) :
    ∀ j, ¬ Pressed form k w j := fun j hp =>
  h j (by obtain ⟨⟨a, ha, _⟩, _⟩ := hp; exact (List.getElem?_eq_some_iff.mp ha).1) hp

theorem test_bench_sound : ((∀ c, opsAt (at_ bench) c = true) ∧ opsLine (at_ bench) .a = true) ∧ opsLine (at_ bench) .b = true := by decide +kernel
theorem test_bench_attach_sound : ∀ c, attachAt (at_ bench) c = true := by decide +kernel

/-! ### Codes and frame arithmetic -/

/-- The check value R163 gives for the digits 1 to 9. -/
theorem test_crc16_of_the_nine_digits : crc16 [0x31, 0x32, 0x33, 0x34, 0x35, 0x36, 0x37, 0x38, 0x39] = 0x29B1 := by decide +kernel

/-- The same from the register that the statements spell, and units whose check R170's words give as 0. -/
theorem test_crc_of_the_nine_digits :
    crcOf (0x1021 : BitVec 16) 0xFFFF (([0x31, 0x32, 0x33, 0x34, 0x35, 0x36, 0x37, 0x38, 0x39] : List Byte).flatMap fun b =>
      (List.range 8).map b.getMsbD) = 0x29B1 ∧ wireUnit 0 0 = 0 := by decide +kernel

/-- The tables of R8, R13 and section 1.9. -/
theorem test_pmin_table : [0, 1, 2000, 2001, 19950, 20000, 45000].map takePmin = [0, 100, 2000, 2100, 20000, 20000, 20000] := by decide +kernel
theorem test_timer_table :
    [(BitRate.r2000, 80, 1), (.r500, 1000, 1000), (.r2000, 528, 1000), (.r1000, 272, 3000), (.r2000, 80, 300000)].map
      (fun x => ({ lineA with rate := x.1, frameLen := x.2.1 } : Line).frames x.2.2) = [25, 500, 3788, 11030, 7500000] := by decide +kernel
theorem test_scan_counts : [(20, 1), (6, 1)].map (fun x => scanCount lineA x.1 x.2) = [10, 3] := by decide +kernel

/-- The texts of R67. -/
theorem test_display_texts :
    (displayText [0x07, 0x4F, 0x4B]).toList = [0x3F, 0x4F, 0x4B] ++ List.replicate 13 0x20 ∧
    (displayText (List.replicate 22 0x41)).toList = List.replicate 16 0x41 := by decide +kernel

/-! ### Requests -/

theorem test_status_after_reset :
    (answer (.status 9) idlePart).map (fun a => match a with | .accepted (some x :: _) => x | _ => []) =
      some [0, 0, 0, 0, 0, 0x10, 1, 0x20, 2, 0, 0, 0, 0, 0, 0x10, 1, 0x20, 2] := by decide +kernel

theorem test_restart_accepted : (after (.restart 9) bench).link.rts = false ∧ answer (.restart 9) bench = some (.accepted []) := by decide +kernel

theorem test_line_setup_example :
    answer (.lineSetup 9 0 500 12 2000) idlePart =
      some (.accepted [some [0xF4, 1], some [12], some [0xD0, 7], some [0xE8, 3], some [0xD0, 7]]) := by decide +kernel
theorem test_line_setup_running : refusedWith (.lineSetup 9 0 500 12 2000) bench = some .wrongState := by decide +kernel

theorem test_line_start : let p := after (.lineStart 9 0) idleBench
    (p.lineA.state, p.lineA.frame, (p.ctx 0).attach, (p.ctx 3).attach) = (.run, 0, .waiting, .parked) ∧
    p.queue.records.map (·.body) = [.line .run .started] := by decide +kernel
theorem test_line_start_running : refusedWith (.lineStart 9 2) bench = some .wrongState := by decide +kernel

theorem test_line_stop : (after (.lineStop 9 2) bench).lineA.stopPending = true ∧ (after (.lineStop 9 2) bench).lineB.stopPending = false := by
  decide +kernel

theorem test_load_schedule_pending : let p := after (.loadSchedule 9 0 [3, 255, 255, 255, 255, 255, 1, 255, 255, 255, 255, 255]) bench
    p.lineA.active = lineA.active ∧ p.lineA.waiting = some [some 3, none, none, none, none, none, some 1, none, none, none, none, none] := by
  decide +kernel
theorem test_load_schedule_length : refusedWith (.loadSchedule 9 0 [0]) bench = some .badLength := by decide +kernel

theorem test_read_schedule : answer (.readSchedule 9 0) bench =
    some (.accepted [some [12], some [0, 255, 255, 255, 255, 255, 1, 255, 2, 2, 255, 255], some [0, 1, 1, 1, 2, 2], some [0], none]) := by
  decide +kernel

theorem test_bind_position : (after (.bindPosition 9 8 (some 1) none) bench).position 7 = { reader := some 1, keypad := none } := by decide +kernel
theorem test_bind_position_wrong_kind : refusedWith (.bindPosition 9 8 (some 0) none) bench = some .badField := by decide +kernel

/-- R66 to R68: "AMOUNT?" and a beep of 20 at an ATTACHED keypad. -/
theorem test_set_indicators :
    let p := after (.setIndicators 9 1 (some { pad0 with text := some [0x41, 0x4D, 0x4F, 0x55, 0x4E, 0x54, 0x3F], beep := some 20 }) none) bench
    (p.ctx 0).controls = [.beep 20] ∧
    (p.ctx 0).image = .keypad #v[0x41, 0x4D, 0x4F, 0x55, 0x4E, 0x54, 0x3F, 0x20, 0x20, 0x20, 0x20, 0x20, 0x20, 0x20, 0x20, 0x20]
      #v[.off, .off, .off, .off] := by decide +kernel
/-- Section 2.6: with 6 places in use a beep is refused. -/
theorem test_beep_control_full :
    refusedWith (.setIndicators 9 1 (some { pad0 with beep := some 20 }) none)
      (bench.modCtx 0 fun x => { x with controls := List.replicate 6 (.beep 20) }) = some .controlFull := by decide +kernel

/-- Section 1.9.1: an inter-key timeout of 15,000 ms is 7,500 frames; left out timeouts are 0. -/
theorem test_open_entry : answer (.openEntry 9 1 { fields0 with max := 4, interKey := some 15000 }) bench =
    some (.accepted [some [1], some [0], some [0], some [0], some [4], some [10],
      some [0, 0, 0, 0, 0, 0, 0x98, 0x3A, 0, 0x4C, 0x1D, 0, 0, 0, 0, 0, 0, 0]]) := by decide +kernel
theorem test_open_entry_held : refusedWith (.openEntry 9 2 fields0) (withEntry openEntry0) = some .busy := by decide +kernel

theorem test_cancel_entry : let p := after (.cancelEntry 9 1) (withEntry openEntry0)
    (p.ctx 0).holder = none ∧ p.queue.reservations = [] ∧
    p.queue.records.map (fun r => match r.body with | .entry b => (b.outcome, b.digits) | _ => (.completed, none)) =
      [(.workstationCancelled, some [5])] := by decide +kernel

/-- The worked capture of section 7.8: 30,000 ms are 15,000 frames. -/
theorem test_arm_reader : answer (.armReader 9 2 2 (some 30000)) bench =
    some (.accepted [some [2], some [1], some [2], some [0x30, 0x75, 0], some [0x98, 0x3A, 0]]) := by decide +kernel
theorem test_arm_reader_empty_mask : refusedWith (.armReader 9 2 0 none) bench = some .badField := by decide +kernel

theorem test_disarm_reader : ((after (.disarmReader 9 2) (withCapture capture0)).ctx 1).capture = none := by decide +kernel

/-- The defaults of R41. -/
theorem test_drop_profile : answer (.dropProfile 9 4 { profile0 with line := some 0, address := some 9, kind := some 0 }) bench =
    some (.accepted [some [4], some [0], some [9], some [0], some [1], some [8], some [20], none, none, some [10]]) := by decide +kernel
/-- Section 3.2: two contexts of a line may not share a drop address. -/
theorem test_drop_profile_clash :
    refusedWith (.dropProfile 9 4 { profile0 with line := some 0, address := some 4, kind := some 0 }) bench = some .badField := by decide +kernel

theorem test_drop_release : (after (.dropRelease 9 3) bench).ctx 3 = .free ∧ refusedWith (.dropRelease 9 0) bench = some .wrongState := by
  decide +kernel

/-- Section 2.5.1: wanted latch and power go on; 1,000 ms are 500 frames. -/
theorem test_chip_start : let p := after (.chipStart 9 1) bench
    ((p.ctx 2).chip.map fun h => (h.session, h.wantedLatch, h.wantedPower, h.atrWait)) = some (.starting, true, true, some 500) ∧
    p.queue.reservations.length = 2 := by decide +kernel

theorem test_chip_exchange : ((after (.chipExchange 9 1 [0, 0xA4, 0, 0]) ready0).ctx 2).session = .sending ∧
    refusedWith (.chipExchange 9 1 [0, 0xA4, 0]) ready0 = some .badLength := by decide +kernel

theorem test_chip_stop : let p := after (.chipStop 9 1) ready0
    (p.ctx 2).session = .off ∧ p.queue.records.map (·.body) = [.chip (.sessionEnd .stopped 0)] := by decide +kernel

theorem test_release_card : refusedWith (.releaseCard 9 1) ready0 = some .busy ∧
    answer (.releaseCard 9 1) bench = some (.accepted [some [1], some [2], some [0]]) := by decide +kernel

/-- R137: ENTRY_RESULT given 0 takes 1, POWER_UP keeps 5. -/
theorem test_set_levels : answer (.setLevels 9 0 0) bench = some (.accepted [some [0], some [1]]) ∧
    answer (.setLevels 9 5 2) bench = some (.accepted [some [5], some [5]]) := by decide +kernel

theorem test_fault_setup : refusedWith (.faultSetup 9 (some [{ cls := 6, detect := some 0, report := none }]) none) bench = some .badField ∧
    (after (.faultSetup 9 none (some 1)) bench).faults.style = .keepFirst := by decide +kernel

/-- The worked log of section 10.1.2, five detections in turn. -/
def fiveDetections : List Detection :=
  [{ cls := .unitDamaged, line := some .a, ctx := some 3, stamp := some 100, detail := some (.slot 0) },
   { cls := .unitDamaged, line := some .a, ctx := some 3, stamp := some 101, detail := some (.slot 0) },
   { cls := .dropLost, line := some .a, ctx := some 3, stamp := some 102, detail := some (.threshold 3) },
   { cls := .unitDamaged, line := some .a, ctx := some 3, stamp := some 104, detail := some (.slot 0) },
   { cls := .linkFrame, line := none, ctx := none, stamp := none, detail := some (.link .check) }]
def faultsAfterFive : FaultRecord := (recordAll .fresh fiveDetections).1

theorem test_worked_fault_log :
    faultsAfterFive.log.map (fun e => (e.detection.cls, e.detection.stamp, e.repeats)) =
      [(.unitDamaged, some 100, 2), (.dropLost, some 102, 1), (.unitDamaged, some 104, 1), (.linkFrame, none, 1)] ∧
    ([.unitDamaged, .dropLost, .linkFrame] : List FaultClass).map (fun c => (faultsAfterFive.classes.get c.index).count) = [3, 1, 1] ∧
    (recordAll .fresh fiveDetections).2.map (fun r => match r.body with | .fault c _ _ _ first => (c, first) | _ => (.unitDamaged, true)) =
      [(.dropLost, false), (.linkFrame, false)] := by decide +kernel

theorem test_clear_faults : let p := after (.clearFaults 9) { bench with faults := faultsAfterFive }
    p.faults.first = none ∧ p.faults.log = [] ∧ p.faults.classes.toList.map (·.count) = List.replicate 10 0 := by decide +kernel
theorem test_read_faults : (answer (.readFaults 9) { bench with faults := faultsAfterFive }).map
    (fun a => match a with | .accepted [_, some later, _, some counts, _, some style] => (later, counts.take 4, style) | _ => ([], [], [])) =
      some ([0, 1, 8], [3, 0, 1, 0], [0]) := by decide +kernel

theorem test_loop_start : (after (.loopStart 9 0 loop0) bench).lineA.loop.state = .accepted ∧
    refusedWith (.loopStart 9 0 { loop0 with passLimit := some 4096 }) bench = some .badField := by decide +kernel
theorem test_loop_start_held : refusedWith (.loopStart 9 0 loop0) (withCapture capture0) = some .busy := by decide +kernel
theorem test_loop_stop : (after (.loopStop 9 0) (testing0 (loopRec 3))).lineA.loop.state = .stopRequested ∧
    refusedWith (.loopStop 9 0) bench = some .wrongState := by decide +kernel
theorem test_read_loop_results : answer (.readLoopResults 9 0) bench = some (.accepted [some [0]]) := by decide +kernel

/-! ### Events -/

/-- A STATUS message with tag 9, and the same with a wrong CRC byte (R163, R164). -/
theorem test_message_taken : (after (.linkMessageReceived (frameMessage [0x10, 9])) bench).link.reply.map (fun r => (r.tag, r.kind)) = some (9, 0x10) := by
  decide +kernel
theorem test_message_bad_check : (after (.linkMessageReceived [0xC5, 2, 0, 0x10, 9, 0, 0]) bench).link.errors = #v[1, 0, 0, 0] := by decide +kernel
theorem test_message_bad_length : (after (.linkMessageReceived [0xC5, 1, 0]) bench).link.errors = #v[0, 1, 0, 0] := by decide +kernel

/-- R163, log 15: the entry of LINE_DRIVE carries 1 for TEST; R165, log 18: a number of no bytes is BAD_LENGTH. -/
theorem test_line_drive_detail : Detail.code (.lineState .test) = 1 := by decide +kernel
theorem test_number_of_no_bytes : (after (.linkMessageReceived (frameMessage [0x13, 9, 1, 0, 0])) bench).link.reply.map (·.answer) =
    some (.refused .badLength 1) := by decide +kernel

theorem test_gap : let p := after .linkGapTimeout { bench with link := { link0 with rx := [0xC5, 2] } }
    p.link.errors = #v[0, 0, 1, 0] ∧ p.link.rx = [] := by decide +kernel

/-- R143: the record of the highest level, the oldest of those. -/
theorem test_send_start : let p := after .messageSendStart (crowded [keyRec 1, result4, notice5, notice5])
    p.queue.records = [keyRec 1, result4, notice5] ∧ p.queue.sendNumber = 1 := by decide +kernel

theorem test_message_sent : let t : Tx := { what := .reply { tag := 1, kind := 0x10, answer := .accepted [] }, bytes := [], started := 0 }
    let p := after (.messageSent ⟨0, false, false⟩) { bench with link := { link0 with inHand := true, tx := some t } }
    (p.link.inHand, p.link.tx) = (false, none) := by decide +kernel

theorem test_restart_timeout : let p := after (.restartTimeout ⟨3, true, true⟩) { bench with link := { link0 with restarting := true } }
    (p.link.straps.linkRate, p.lineA.period, p.lineA.state, p.link.phase) = (460800, 272, .idle, .startup) := by decide +kernel

/-- R166: CTS negated when 2 of 3 bytes have been started holds the third, and the message does not end. -/
def sendingThree : Part :=
  { bench with link := { link0 with
      straps := { link0.straps with flow := true }, cts := true, inHand := true
      tx := some { what := .reply { tag := 1, kind := 0x10, answer := .accepted [] }, bytes := [1, 2, 3], started := 1 } } }
theorem test_cts_holds_a_byte : let p := after (.ctsChange (.negated 2)) sendingThree
    p.link.tx.map (·.started) = some 2 ∧ after (.messageSent ⟨0, false, false⟩) p = p ∧
    (after (.messageSent ⟨0, false, false⟩) (after (.ctsChange .asserted) p)).link.tx = none := by decide +kernel

theorem test_power_up : let p := after (.powerUpReset .pin ⟨1, false, false⟩) { bench with faults := faultsAfterFive }
    (p.link.phase, p.link.straps.linkRate, p.faults, p.ctx 0) = (.held, 115200, .fresh, .free) := by decide +kernel

theorem test_reset_release : (after (.resetRelease ⟨0, false, false⟩) { bench with link := { link0 with phase := .held } }).link.phase = .startup := by
  decide +kernel

theorem test_startup_end : (after .startupWaitEnd Part.afterPowerUp).queue.records.map (fun r => (r.level, r.body)) =
    [(5, .powerUp .power 1 false { linkRate := 57600, flow := false, lineRate := .r500 })] := by decide +kernel

theorem test_frame_mark : let p := after (.frameMark .a [] .swapFirst) (framed (withEntry openEntry0))
    p.lineA.frame = 8 ∧ (p.ctx 0).entry.map (·.interKey) = some (some 7499) := by decide +kernel
theorem test_frame_mark_with_stop_pending : (after (.frameMark .a [] .swapFirst) { bench with lineA := { lineA with stopPending := true, nextSlot := 12 } }).lineA.frame = 7 := by
  decide +kernel

/-- R31 and section 2.5.1: the latch before the power, and a refresh of the first piece of a keypad. -/
theorem test_slot_start_latch : (after (.slotStart .a 8) (before_ 8 (after (.chipStart 9 1) bench))).lineA.inSlot.map (·.unit) = some (.control .latch) := by
  decide +kernel
theorem test_slot_start_refresh : let p := after (.slotStart .a 0) bench
    p.lineA.inSlot.map (fun r => (r.unit, r.call)) = some (.refreshText true 0x20 0x20, 0x4B) ∧ (p.ctx 0).cursor = 1 := by decide +kernel

/-- Section 5.8: the third differing scan of key 5 makes it DOWN. -/
theorem test_slot_scan :
    let p := after (.slotCompletion .a 0 (up 2 0x0020))
      (inSlot (bench.modCtx 0 fun x => x.modKeypad fun k => { k with keys := k.keys.set 5 { down := false, run := 2 } }) (slotOf 0 0 .poll))
    p.queue.records.map (fun r => (r.pos, r.ctx, r.body)) = [(none, some 0, .key .opened (.key 5))] := by decide +kernel
theorem test_slot_silent : ((after (.slotCompletion .a 0 .nothing) (inSlot bench (slotOf 0 0 .poll))).ctx 0).miss = 1 := by decide +kernel

/-- R121: a report of power on sets the flag whatever the card state, and R130: the notice of the change comes before the result of the start. -/
theorem test_no_card_with_power_on :
    let p := after (.slotCompletion .a 8 (up 4 0x0800)) (inSlot (starting0 fun h => { h with powerSeen := false }) (slotOf 8 2 .poll))
    (p.ctx 2).chip.map (fun h => (h.session, h.powerSeen)) = some (.off, true) ∧
    p.queue.records.map (·.body.kind) = [.card, .chipResult] := by decide +kernel

theorem test_entry_timer : (after (.entryTimerExpiry 0 .interKey) (withEntry { openEntry0 with interKey := some 0 })).queue.records.map (·.body) =
    [.entry { kind := .opened, outcome := .timedOut, endKey := none, detail := some (.timer .interKey), digits := some [5], count := 1,
              ignored := 0, block := none, blockBytes := none }] := by decide +kernel

theorem test_arm_timer : (after (.armTimerExpiry 1) (withCapture { capture0 with armTimer := some 0 })).queue.records.map
    (fun r => match r.body with | .capture b => (b.outcome, b.tracks.map (·.status)) | _ => (.completed, [])) = [(.armExpired, [.noData])] := by
  decide +kernel
theorem test_capture_limit : (after (.captureLimitExpiry 1) (withCapture { capture0 with state := .capturing, armTimer := none, limitTimer := some 0 })).queue.records.map
    (fun r => match r.body with | .capture b => b.outcome | _ => .completed) = [.incomplete] := by decide +kernel
theorem test_atr_wait : let p := after (.atrWaitExpiry 2) (starting0 fun h => { h with atrWait := some 0 })
    p.queue.reservations = [] ∧ p.queue.records.map (·.body) = [.chip (.start .timedOut none)] := by decide +kernel
theorem test_response_timeout : (after (.responseTimeout 2) (awaiting0 fun h => { h with exchanges := 1, response := [0x61], respTimer := some 0 })).queue.records.map
    (·.body) = [.chip (.exchange 1 .timedOut [0x61]), .chip (.sessionEnd .exchangeTimeout 1)] := by decide +kernel

theorem test_stopped_frame_end : let p := after (.stoppedFrameEnd .a) { bench with lineA := { lineA with stopPending := true, nextSlot := 12 } }
    (p.lineA.state, p.lineA.frame, (p.ctx 0).attach) = (.idle, 7, .parked) ∧ p.queue.records.map (·.body) = [.line .idle .stopped] := by decide +kernel
theorem test_driver_trip : let p := after (.driverTrip .a) bench
    p.faults.first.map (fun d => (d.cls, d.stamp, d.detail)) = some (.lineDrive, some 7, some (.lineState .run)) ∧
    p.queue.records.map (·.body.kind) = [.fault, .line] := by decide +kernel
theorem test_driver_cleared : (after (.driverFaultInputCleared .a) (after (.driverTrip .a) bench)).lineA.driverTripped = false := by decide +kernel

/-- R2: the frame must have been sent to its end before it ends, and no slot of it is passed over. -/
theorem test_frame_is_sent_to_its_end : after (.stoppedFrameEnd .a) { bench with lineA := { lineA with stopPending := true, nextSlot := 8 } } =
    { bench with lineA := { lineA with stopPending := true, nextSlot := 8 } } ∧ after (.slotStart .a 6) bench = bench ∧
    after (.frameMark .a [] .swapFirst) (before_ 9 bench) = before_ 9 bench := by decide +kernel
/-- R13: while a timer that a mark brought to 0 is due, no slot starts. -/
theorem test_expiry_comes_first : let p := withEntry { openEntry0 with interKey := some 0 }
    after (.slotStart .a 0) p = p ∧ (after (.slotStart .a 0) (after (.entryTimerExpiry 0 .interKey) p)).lineA.inSlot.isSome = true := by
  decide +kernel

/-- R50, R117, R118: a drop restart of another kind empties the tally and takes the session record back to its table values. -/
theorem test_restart_of_another_kind : let p := after (.slotCompletion .a 8 (up 1 0x3000)) (inSlot (bench.modCtx 2 fun x =>
      { x with reader := some { card with discarded := 4 }, chip := some { chip with discardLate := true, exchanges := 3 } }) (slotOf 8 2 .poll))
    ((p.ctx 2).attach, (p.ctx 2).reader, (p.ctx 2).chip) = (.mismatch, some Reader.fresh, some Chip.fresh) := by decide +kernel

/-- The worked loop test, frame 2,005: 0xC33D where 0xC33C is expected. -/
theorem test_loop_miscompare :
    let p := after (.slotCompletion .a 6 (up 12 0xC33D))
      (inSlot (testing0 (loopRec 4)) { slotOf 6 1 (.loopPattern 0x9669) with fromLoop := true })
    p.lineA.loop.records.map (·.error) = [some { kind := .value, index := 2, pass := 1, payload := some 0xC33D, upKind := some 12 }] ∧
    p.lineA.loop.errorFlag = true := by decide +kernel

/-! ### Witnesses: states and operands that meet the hypotheses of each statement, clause by clause, at the ends of each range -/

theorem wit_StepRunsTheFrontCommand : ({ at_ bench with pending := [.linkGapTimeout] } : State).pending = .linkGapTimeout :: [] ∧ (at_ bench).pending = [] := by
  decide +kernel

def startingUp : Part := { bench with link := { link0 with phase := .startup } }
def heldInReset : Part := { bench with link := { link0 with phase := .held } }
def aReply : Reply := { tag := 1, kind := 0x10, answer := .accepted [] }
def sendingReply (held : Option Message) : Part :=
  { bench with link := { link0 with inHand := true, held := held, tx := some { what := .reply aReply, bytes := [1], started := 1 } } }
def restarting : Part := { bench with link := { link0 with restarting := true, inHand := true, tx := some { what := .reply aReply, bytes := [1], started := 1 } } }

theorem wit_ResetsTakeTheTableValues : (at_ heldInReset).part.link.phase = .held ∧ (at_ bench).part.link.phase ≠ .held ∧
    (at_ startingUp).part.link.phase = .startup := by decide +kernel

theorem wit_RestartInTwoSteps : ((at_ bench).part.link.phase = .running ∧ (at_ bench).part.link.restarting = false ∧ (at_ bench).part.link.inHand = false) ∧
    (at_ restarting).part.link.restarting = true ∧ (at_ restarting).part.link.tx = some { what := .reply aReply, bytes := [1], started := 1 } ∧
    MayFinish restarting.link :=
  ⟨by decide +kernel, by decide +kernel, by decide +kernel, fun _ _ h => absurd h (by decide +kernel)⟩

theorem wit_DeafLinkIgnoresAll : ((at_ heldInReset).part.link.phase ≠ .running ∨ (at_ heldInReset).part.link.restarting = true) ∧
    ((at_ restarting).part.link.phase ≠ .running ∨ (at_ restarting).part.link.restarting = true) := by decide +kernel

theorem ready_bench : Ready (at_ bench) := by decide +kernel

theorem wit_EveryRequestIsAnswered : Ready (at_ bench) ∧ Request.status ≠ .restart ∧ FirstFieldBad (.cancelEntry 0) ∧ FirstFieldBad (.cancelEntry 9) ∧
    FirstFieldBad (.lineStop 3) ∧ FirstFieldBad (.readSchedule 2) ∧ FirstFieldBad (.dropRelease 16) ∧ FirstFieldBad (.setLevels 11 0) := by
  refine ⟨ready_bench, ?_⟩
  simp [FirstFieldBad]

theorem wit_SecondRequestWaitsThirdOverflows : (2 ≤ ([0x10, 9] : List Byte).length ∧ ([0x10, 9] : List Byte).length ≤ 1200) ∧
    let p : Part := { bench with link := { link0 with inHand := true } }
    let m : Message := { kind := 0x10, tag := 1, read := .good .status }
    let q : Part := { bench with link := { link0 with inHand := true, held := some m } }
    ((at_ p).part.link.phase = .running ∧ (at_ p).part.link.restarting = false ∧ (at_ p).part.link.inHand = true ∧ (at_ p).part.link.held = none ∧
      (at_ p).part.link.rx = []) ∧
    ((at_ q).part.link.inHand = true ∧ (at_ q).part.link.held.isSome = true ∧ (at_ q).part.link.rx = []) := by decide +kernel

def oneNumber : List (Bool × FieldForm) := [(true, .number 1)]
theorem oneNumber_bad (code : Byte) (v : List Byte) (hc : code = 1) (hv : v.length ≠ 1) : ItemBad oneNumber (code, v) := by
  subst hc
  exact ⟨_, ⟨Nat.le_refl 1, rfl⟩, by simp only [IllSuited]; omega⟩
theorem oneNumber_fits (v : List Byte) (hv : v.length = 1) : ¬ ItemBad oneNumber (1, v) := by
  rintro ⟨f, ⟨_, hf⟩, h⟩
  cases hf
  simp only [IllSuited] at h
  omega
theorem oneNumber_no_other (code : Nat) (hc : code ≠ 1) : ¬ ∃ f, HasField oneNumber code f := by
  rintro ⟨f, h1, h2⟩
  have h := (List.getElem?_eq_some_iff.mp h2).1
  simp only [oneNumber, List.length_cons, List.length_nil] at h
  omega
theorem wit_GoodMessageIsTaken : Ready (at_ bench) ∧ (at_ bench).part.link.rx = [] ∧ 2 ≤ ([0x10, 9] : List Byte).length ∧
    (List.replicate 1200 (0 : Byte)).length ≤ 1200 ∧ (List.replicate 1198 (0 : Byte)).length ≤ 1198 ∧
    (requestFields 0x0F = none ∧ requestFields 0x18 = none ∧ requestFields 0x2B = none ∧ requestFields 0x16 = some oneNumber) ∧
    (∀ items, ([1] : List Byte) ≠ itemsBytes items) ∧
    -- READ SCHEDULE with its line in no byte or in two, with a field 2, with the line twice, with no line, and as it should be
    (ItemBad oneNumber (1, []) ∧ ItemBad oneNumber (1, [0, 0])) ∧
    ((∀ x ∈ ([(1, [0]), (2, [0])] : List (Byte × List Byte)), ¬ ItemBad oneNumber x) ∧ ¬ ∃ f, HasField oneNumber 2 f) ∧
    ((∀ x ∈ ([(1, [0]), (1, [0])] : List (Byte × List Byte)), ¬ ItemBad oneNumber x) ∧
      ∃ x ∈ ([(1, [0])] : List (Byte × List Byte)), x.1 = 1) ∧
    (∃ f, HasField oneNumber 1 (true, f)) ∧ (∀ n, n < 1 → ¬ ∃ f, HasField oneNumber n f) ∧
    -- what the good items of READ SCHEDULE, of CHIP EXCHANGE and of a keypad part carry
    (Carries [(1, [1])] (.readSchedule 1) ∧ Carries [(2, [0, 0xA4, 0, 0]), (1, [8])] (.chipExchange 8 [0, 0xA4, 0, 0]) ∧
      Carries [(1, [1]), (2, [1, 1, 0, 0x41, 0, 1, 2, 0, 0, 1, 255])]
        (.setIndicators 1 (some { pad0 with text := some [0x41], lamp2 := some 2, beep := some 255 }) none)) := by
  refine ⟨ready_bench, by decide +kernel, by decide, Nat.le_of_eq List.length_replicate, Nat.le_of_eq List.length_replicate,
    ⟨rfl, rfl, rfl, rfl⟩, fun items h => ?_, ⟨oneNumber_bad 1 [] rfl (by decide), oneNumber_bad 1 _ rfl (by decide)⟩, ⟨fun x hx => ?_, ?_⟩,
    ⟨fun x hx => ?_, ⟨(1, [0]), by simp, rfl⟩⟩, ⟨_, by decide, rfl⟩, fun n hn => oneNumber_no_other n (by omega),
    rfl, ⟨rfl, rfl⟩, rfl, rfl, rfl, by decide, by decide⟩
  · cases items with
    | nil => exact absurd h (by simp [itemsBytes])
    | cons i _ =>
      have := congrArg List.length h
      simp [itemsBytes, num] at this
  · rcases List.mem_cons.mp hx with rfl | hx
    · exact oneNumber_fits _ rfl
    · rw [List.mem_singleton.mp hx]
      rintro ⟨f, hf, _⟩
      exact oneNumber_no_other 2 (by decide) ⟨f, hf⟩
  · exact oneNumber_no_other 2 (by decide)
  · rcases List.mem_cons.mp hx with rfl | hx
    · exact oneNumber_fits _ rfl
    · rw [List.mem_singleton.mp hx]
      exact oneNumber_fits _ rfl

theorem wit_LinkErrorsDiscardTheMessage : (at_ bench).part.link.phase = .running ∧ (at_ bench).part.link.restarting = false ∧
    (at_ bench).part.link.rx = [] ∧ 2 ≤ ([0x10, 9] : List Byte).length ∧ ([0x10, 9] : List Byte).length ≤ 1200 ∧
    0xC5 :: (num 2 2 ++ [0x10, 9] ++ [(0 : Byte), 0]) ≠ wireMessage [0x10, 9] ∧
    ((1 : Byte).toNat + 256 * (0 : Byte).toNat = 1 ∧ ¬ 2 ≤ 1) ∧ ((0xB1 : Byte).toNat + 256 * (4 : Byte).toNat = 1201 ∧ ¬ 1201 ≤ 1200) ∧
    (at_ { bench with link := { link0 with rx := [0xC5] } }).part.link.rx ≠ [] := by decide +kernel

def withFlow (cts : Bool) : Part := { bench with link := { link0 with straps := { link0.straps with flow := true }, cts := cts } }

theorem wit_ReplyThenHighestRecord :
    ((withFlow false).link.straps.flow = true ∧ (withFlow false).link.cts = false) ∧ (sendingReply none).link.tx.isSome = true ∧
    ((withFlow true).link.phase = .running ∧ (withFlow true).link.restarting = false ∧ (withFlow true).link.tx = none ∧
      ((withFlow true).link.straps.flow = true → (withFlow true).link.cts = true)) ∧
    ({ link0 with reply := some aReply } : Link).reply = some aReply ∧ bench.link.reply = none ∧ bench.queue.records = [] ∧
    (crowded [keyRec 1, notice5, notice5, result4]).queue.records = [keyRec 1] ++ notice5 :: [notice5, result4] ∧
    (∀ x ∈ [keyRec 1], x.level < notice5.level) ∧ (∀ x ∈ [notice5, result4], x.level ≤ notice5.level) ∧ startingUp.link.phase ≠ .running ∧
    heldInReset.link.phase ≠ .running ∧
    (({ link0 with restarting := true } : Link).restarting = true ∧ ({ link0 with restarting := true } : Link).reply = none ∧
      ({ link0 with restarting := true } : Link).phase = .running ∧ ({ link0 with restarting := true } : Link).tx = none) := by decide +kernel

def sendingRecord : Part := { bench with link := { link0 with tx := some { what := .record notice5 0, bytes := [1], started := 1 } } }
theorem wit_ReplySentTakesThePending :
    (at_ bench).part.link.phase = .running ∧ (at_ bench).part.link.restarting = false ∧
    sendingRecord.link.tx = some { what := .record notice5 0, bytes := [1], started := 1 } ∧
    ((sendingReply none).link.tx = some { what := .reply aReply, bytes := [1], started := 1 } ∧ (sendingReply none).link.held = none) ∧
    (sendingReply (some { kind := requestKind .status, tag := 3, read := .good .status })).link.held =
      some { kind := requestKind .status, tag := 3, read := .good .status } ∧
    (sendingReply (some { kind := 0x15, tag := 3, read := .bad .badLength 2 })).link.held = some { kind := 0x15, tag := 3, read := .bad .badLength 2 } ∧
    MayFinish sendingRecord.link ∧ MayFinish (sendingReply none).link ∧ MayFinish sendingThree.link ∧
    ¬ MayFinish (after (.ctsChange (.negated 2)) sendingThree).link ∧ MayFinish (after (.ctsChange (.negated 3)) sendingThree).link :=
  ⟨by decide +kernel, by decide +kernel, by decide +kernel, by decide +kernel, rfl, rfl, fun _ _ h => absurd h (by decide +kernel),
   fun _ _ h => absurd h (by decide +kernel), fun _ _ _ => .inl (by decide +kernel),
   fun h => absurd (h { what := .reply { tag := 1, kind := 0x10, answer := .accepted [] }, bytes := [1, 2, 3], started := 2 } (by decide +kernel)
    (by decide +kernel)) (by decide +kernel),
   fun t ht _ => .inr (by
    have h : t = { what := .reply { tag := 1, kind := 0x10, answer := .accepted [] }, bytes := [1, 2, 3], started := 3 } :=
      Option.some.inj (ht.symm.trans (by decide +kernel))
    subst h
    decide)⟩

/-- 31 records; 32 with a KEY notice of level 1 and then one more; 32 results. -/
def full31 : Part := crowded (List.replicate 31 result4)
def full32 : Part := crowded (List.replicate 30 result4 ++ keyRec 1 :: [keyRec 1])
def fullOfResults : Part := crowded (List.replicate 32 result4)

theorem wit_NoticeAdmission : notice5.isNotice = true ∧
    ({ bench with queue := { bench.queue with levels := bench.queue.levels.set 10 0 } } : Part).queue.levels.get (keyRec 1).body.kind.index = 0 ∧
    bench.queue.levels.get notice5.body.kind.index ≠ 0 ∧ full31.queue.used = 31 ∧ full32.queue.used = 32 ∧
    full32.queue.records = List.replicate 30 result4 ++ keyRec 1 :: [keyRec 1] ∧ (keyRec 1).isNotice = true ∧
    (keyRec 1).level < full32.queue.levels.get notice5.body.kind.index ∧
    (∀ x ∈ List.replicate 30 result4, x.isNotice = true → (keyRec 1).level < x.level) ∧
    (∀ x ∈ [keyRec 1], x.isNotice = true → (keyRec 1).level ≤ x.level) ∧
    (∀ x ∈ full32.queue.records, x.isNotice = true → full32.queue.levels.get (keyRec 1).body.kind.index ≤ x.level) := by decide +kernel

def discardOf (l : Nat) : Detection := { cls := .eventDiscard, line := none, ctx := none, stamp := none, detail := some (.level l) }
def reporting (p : Part) : Part := { p with faults := { p.faults with classes := p.faults.classes.set 9 (.fresh true) } }
def faultLevel0 (p : Part) : Part := { p with queue := { p.queue with levels := p.queue.levels.set 8 0 } }
theorem wit_LostNoticeIsCounted : (1 ≤ 1 ∧ 1 ≤ 5) ∧ (1 ≤ 5 ∧ 5 ≤ 5) ∧ (bench.faults.take (discardOf 1)).2 = none ∧
    ((reporting full31).faults.take (discardOf 5)).2 = some (.fault .eventDiscard none (some (.level 5)) 1 true) ∧
    (faultLevel0 (reporting full31)).queue.levels.get RecordKind.fault.index = 0 ∧
    ((reporting full31).queue.levels.get RecordKind.fault.index ≠ 0 ∧ (reporting full31).queue.used < 32) ∧
    ((1 ≤ (reporting full32).queue.levels.get RecordKind.fault.index ∧ (reporting full32).queue.levels.get RecordKind.fault.index ≤ 5) ∧
      32 ≤ (reporting full32).queue.used) := by decide +kernel

theorem wit_ReservationTakesAPlace : full31.queue.used < 32 ∧ 32 ≤ full32.queue.used ∧
    full32.queue.records = List.replicate 30 result4 ++ keyRec 1 :: [keyRec 1] ∧ (keyRec 1).isNotice = true ∧
    (∀ x ∈ List.replicate 30 result4, x.isNotice = true → (keyRec 1).level < x.level) ∧ 32 ≤ fullOfResults.queue.used ∧
    (∀ x ∈ fullOfResults.queue.records, x.isNotice = false) := by decide +kernel

theorem wit_SetLevels : Ready (at_ bench) ∧ (10 < 11 ∧ 5 ≤ 5) ∧ ((10 : Fin 11).val = 10) ∧ ¬ (11 < 11 ∧ 5 ≤ 5) ∧ ¬ (10 < 11 ∧ 6 ≤ 5) ∧
    (if 4 = 5 then 5 else if 4 < 4 ∧ 0 = 0 then 1 else 0) = 0 := by decide +kernel

def loggedTimes (n : Nat) (style : LogStyle) : FaultRecord :=
  { FaultRecord.fresh with style := style, log := (List.range n).map fun i => { detection := discardOf i, repeats := 255 } }
def other : Detection := { discardOf 1 with cls := .linkFrame }
theorem wit_DetectionIsTaken :
    ((FaultRecord.fresh.classes.set 9 { ClassRow.fresh false with detect := false }).get (discardOf 1).cls.index).detect = false ∧
    (FaultRecord.fresh.classes.get (discardOf 1).cls.index).detect = true ∧ (loggedTimes 10 .off).style = .off ∧
    (loggedTimes 10 .shift).log = (loggedTimes 9 .shift).log ++ [{ detection := discardOf 9, repeats := 255 }] ∧
    ((discardOf 9).cls = (discardOf 1).cls ∧ (discardOf 9).line = (discardOf 1).line ∧ (discardOf 9).ctx = (discardOf 1).ctx) ∧
    ¬ ((discardOf 9).cls = other.cls ∧ (discardOf 9).line = other.line ∧ (discardOf 9).ctx = other.ctx) ∧
    (loggedTimes 9 .keepFirst).log.length < 10 ∧ 10 ≤ (loggedTimes 10 .keepFirst).log.length ∧ (loggedTimes 0 .keepFirst).log = [] := by decide +kernel

theorem wit_FaultSetup : Ready (at_ bench) ∧
    ((([{ cls := 9, detect := some 1, report := some 0 }] : List ClassSetting) ≠ [] ∨ (some 2 : Option Nat).isSome = true) ∧ (∀ n ∈ some 2, n ≤ 2) ∧
      ∀ x ∈ ([{ cls := 9, detect := some 1, report := some 0 }] : List ClassSetting), x.cls < 10 ∧ (x.detect.isSome ∨ x.report.isSome) ∧
        (∀ n ∈ x.detect, n ≤ 1) ∧ (∀ n ∈ x.report, n ≤ 1) ∧ ¬ (x.cls = 6 ∧ x.detect = some 0)) ∧
    ¬ (∀ n ∈ some 3, n ≤ 2) ∧ ¬ (([] : List ClassSetting) ≠ [] ∨ (none : Option Nat).isSome = true) := by decide +kernel

theorem wit_ClearFaults : Ready (at_ { bench with faults := faultsAfterFive }) := by decide +kernel

theorem wit_ReportsShowTheState : Ready (at_ { bench with faults := faultsAfterFive }) ∧ (2 : Nat) ≤ 2 ∧ Named 2 .b := by decide +kernel

theorem wit_LineSetupChecks : Ready (at_ bench) ∧ 1 < 2 ∧ (1 ≤ 1 ∧ ¬ (251 = 250 ∨ 251 = 500 ∨ 251 = 1000 ∨ 251 = 2000)) ∧ ¬ (2 ≤ 1 ∧ 1 ≤ 16) ∧ ¬ (2 ≤ 17 ∧ 17 ≤ 16) ∧
    lineCode .a = 0 ∧ lineCode .b = 1 ∧ (bench.line .a).state ≠ .idle ∧ (bench.line .b).state = .idle := by decide +kernel

theorem wit_LineSetupTaken : Ready (at_ idleBench) ∧ 2 ≤ 2 ∧ 16 ≤ 16 ∧ (idleBench.line .a).state = .idle ∧ (idleBench.line .a).slots = 12 ∧
    ((idleBench.ctx 0).lineId = some .a ∧ 0 < (idleBench.line .a).active.count (some 0)) := by decide +kernel

theorem wit_LineStartAndStop : Ready (at_ idleBench) ∧ Ready (at_ bench) ∧ AddressesFit idleBench ∧ AddressesFit bench ∧
    (∀ l, Named 2 l → (idleBench.line l).state = .idle) ∧ (∃ l, Named 2 l ∧ (bench.line l).state ≠ .idle) := by
  refine ⟨by decide +kernel, ready_bench, addressesFit_of_check (by decide +kernel), addressesFit_of_check (by decide +kernel), fun l _ => ?_,
    .a, by decide +kernel, by decide +kernel⟩
  cases l <;> decide +kernel

theorem wit_LoadScheduleTaken : let entries : Schedule := List.replicate 11 none ++ [some 3]
    Ready (at_ idleBench) ∧ entries.length = (idleBench.line .a).slots ∧ (∀ c, some c ∈ entries → (idleBench.ctx c).lineId = some .a) ∧
    (idleBench.line .a).state = .idle ∧ (∀ c, some c ∈ entries → (bench.ctx c).lineId = some .a) ∧ (bench.line .a).state ≠ .idle ∧
    -- the refusals: a line 2; a list one short; an entry of 16, of 254; a context of no profile
    Ready (at_ bench) ∧ 1 < 2 ∧ (lineCode .a = 0 ∧ (List.replicate 11 255).length ≠ (bench.line .a).slots) ∧
    (List.replicate 11 255 ++ [16]).length = (bench.line .a).slots ∧ (16 ≤ 16 ∧ 16 ≠ 255) ∧ (16 ≤ 254 ∧ 254 ≠ 255) ∧
    ((4 : CtxId).val ∈ List.replicate 11 255 ++ [4] ∧ (bench.ctx 4).lineId ≠ some .a) := by decide +kernel

theorem no_clash : ∀ o : CtxId, ∀ pr ∈ (bench.ctx o).profile, ¬ (pr.line = .b ∧ pr.address = 15) ∧ ¬ (pr.line = .b ∧ pr.address = 1) := by decide +kernel
theorem wit_FirstProfile : Ready (at_ bench) ∧ (bench.ctx 4).attach = .free ∧ (bench.ctx 4).profile = none ∧
    (∀ o pr, o ≠ (4 : CtxId) → (bench.ctx o).profile = some pr → ¬ (pr.line = .b ∧ pr.address = 15)) ∧
    (∀ o pr, o ≠ (4 : CtxId) → (bench.ctx o).profile = some pr → ¬ (pr.line = .b ∧ pr.address = 1)) ∧
    readRuleList [{ track := 3, start := 255, ends := [63, 37], count := 112 }] = some [(3, { start := none, ends := [0x3F, 0x25], count := 112 })] ∧
    readRuleList [] = some [] :=
  ⟨ready_bench, by decide +kernel, by decide +kernel, fun o pr _ h => (no_clash o pr h).1, fun o pr _ h => (no_clash o pr h).2, by decide +kernel,
   by decide +kernel⟩

theorem no_twin : ∀ c o : CtxId, o ≠ c → ∀ old ∈ (bench.ctx c).profile, ∀ pr ∈ (bench.ctx o).profile, ¬ (pr.line = old.line ∧ pr.address = old.address) := by
  decide +kernel
theorem wit_BehaviourProfile : Ready (at_ bench) ∧ (bench.ctx 0).attach ≠ .free ∧ (bench.ctx 0).profile = some keyProfile ∧
    (1 ≤ keyProfile.address ∧ keyProfile.address ≤ 15) ∧
    (∀ o pr, o ≠ (0 : CtxId) → (bench.ctx o).profile = some pr → ¬ (pr.line = keyProfile.line ∧ pr.address = keyProfile.address)) ∧
    (keyProfile.d.isSome ↔ keyProfile.kind = .keypad) ∧ (keyProfile.rules.isSome ↔ keyProfile.kind ≠ .keypad) ∧
    (keyProfile.chipTimeout.isSome ↔ keyProfile.kind = .readerHybrid) ∧ (bench.ctx 2).profile = some hybridProfile ∧
    (hybridProfile.rules.isSome ↔ hybridProfile.kind ≠ .keypad) ∧ (hybridProfile.chipTimeout.isSome ↔ hybridProfile.kind = .readerHybrid) :=
  ⟨ready_bench, by decide +kernel, by decide +kernel, by decide +kernel, fun o pr ho h => no_twin 0 o ho keyProfile (by decide +kernel) pr h,
   by decide +kernel, by decide +kernel, by decide +kernel, by decide +kernel, by decide +kernel, by decide +kernel⟩

def parkedProfile : Profile := { keyProfile with address := 5 }
theorem wit_IdentityChange : Ready (at_ bench) ∧
    (¬ RuleGood { track := 4, start := 255, ends := [], count := 0 } ∧ ¬ RuleGood { track := 0, start := 255, ends := [], count := 0 } ∧
      ¬ RuleGood { track := 1, start := 128, ends := [], count := 0 } ∧ ¬ RuleGood { track := 1, start := 127, ends := [1, 2, 3], count := 0 } ∧
      ¬ RuleGood { track := 1, start := 127, ends := [128], count := 0 } ∧ ¬ RuleGood { track := 1, start := 127, ends := [], count := 113 } ∧
      RuleGood { track := 3, start := 127, ends := [127, 0], count := 112 }) ∧
    ((bench.ctx 4).profile = none ∧ (bench.ctx 4).attach = .free ∧
      ∃ o pr, o ≠ (4 : CtxId) ∧ (bench.ctx o).profile = some pr ∧ pr.line = .a ∧ pr.address = 4) ∧
    ((bench.ctx 1).profile = some stripeProfile ∧ stripeProfile.kind ≠ .keypad ∧ stripeProfile.kind ≠ .readerHybrid) ∧
    ((bench.ctx 0).profile = some keyProfile ∧ keyProfile.kind = .keypad) ∧
    (((bench.ctx 0).attach ≠ .free ∧ (bench.ctx 0).attach ≠ .parked ∧ (9 ≠ keyProfile.address)) ∧
    (bench.ctx 3).attach = .parked ∧ (bench.ctx 3).profile = some parkedProfile) ∧
    (∃ o pr, o ≠ (3 : CtxId) ∧ (bench.ctx o).profile = some pr ∧ pr.line = parkedProfile.line ∧ pr.address = 4) ∧
    -- the address kept, a new address, a new line; each with the kind kept and with another
    (∀ o pr, o ≠ (3 : CtxId) → (bench.ctx o).profile = some pr → ¬ (pr.line = .a ∧ pr.address = 5)) ∧
    (∀ o pr, o ≠ (3 : CtxId) → (bench.ctx o).profile = some pr → ¬ (pr.line = .b ∧ pr.address = 15)) ∧
    DropKind.readerStripe ≠ parkedProfile.kind ∧ readRuleList [] = some [] ∧
    readRuleList [{ track := 3, start := 255, ends := [63, 37], count := 112 }] = some [(3, { start := none, ends := [0x3F, 0x25], count := 112 })] :=
  ⟨ready_bench, by decide, ⟨by decide +kernel, by decide +kernel, 0, keyProfile, by decide, by decide +kernel, by decide, by decide⟩,
   by decide +kernel, by decide +kernel, by decide +kernel, ⟨0, keyProfile, by decide, by decide +kernel, by decide, by decide⟩,
   fun o pr ho h => no_twin 3 o ho parkedProfile (by decide +kernel) pr h, fun o pr _ h => (no_clash o pr h).1, by decide, by decide, by decide⟩

theorem wit_DropRelease : Ready (at_ bench) ∧ ((bench.ctx 3).attach = .parked ∧ (bench.ctx 3).profile = some { keyProfile with address := 5 }) ∧
    ((bench.ctx 15).attach = .free ∧ (bench.ctx 15).profile = none) ∧ (bench.ctx 0).attach ≠ .free ∧ (bench.ctx 0).attach ≠ .parked := by decide +kernel

theorem kind0 : (bench.ctx 0).kind = some .keypad := by decide +kernel
theorem kind1 : (bench.ctx 1).kind = some .readerStripe := by decide +kernel
theorem wit_BindPosition : Ready (at_ bench) ∧ (¬ (1 ≤ 0 ∧ 0 ≤ 8) ∧ ¬ (1 ≤ 9 ∧ 9 ≤ 8)) ∧ (∃ n, ((none : Option Nat) = some n ∨ some 16 = some n) ∧ 16 ≤ n ∧ n ≠ 255) ∧
    ¬ (∀ c, some (some (0 : CtxId)) = some (some c) → (bench.ctx c).kind = some .readerStripe ∨ (bench.ctx c).kind = some .readerHybrid) ∧
    (∀ c, some (some (1 : CtxId)) = some (some c) → (bench.ctx c).kind = some .readerStripe ∨ (bench.ctx c).kind = some .readerHybrid) ∧
    (∀ c, some (some (0 : CtxId)) = some (some c) → (bench.ctx c).kind = some .keypad) ∧
    ¬ (∀ c, some (some (1 : CtxId)) = some (some c) → (bench.ctx c).kind = some .keypad) ∧
    (∃ c, ((withCapture capture0).position 1 |>.reader) = some c ∧ ((withCapture capture0).ctx c).holder = some 1) ∧
    ¬ ∃ c, ((bench.position 1).reader = some c ∨ (bench.position 1).keypad = some c) ∧ (bench.ctx c).holder = some 1 :=
  ⟨ready_bench, by decide, ⟨16, .inr rfl, by decide⟩, by simp [kind0], by simp [kind1], by simp [kind0], by simp [kind1],
   ⟨1, by decide +kernel, by decide +kernel⟩, by decide +kernel⟩

theorem wit_KeypadIndicators : let k : KeypadPart := { pad0 with lamp1 := some 2, beep := some 0 }
    Ready (at_ bench) ∧ (bench.position 0).keypad = some 0 ∧
    (bench.ctx 0).image = .keypad (displayText []) #v[.off, .off, .off, .off] ∧
    (∀ n ∈ [2], k.lamp1 = some n ∨ k.lamp2 = some n ∨ k.lamp3 = some n ∨ k.lamp4 = some n → n ≤ 2) ∧
    ((bench.ctx 0).holder = none ∨ (bench.ctx 0).holder = some 0) ∧
    ((bench.modCtx 0 fun x => { x with controls := List.replicate 5 (.beep 1) }).ctx 0).controls.length ≤ 5 ∧
    -- the reader part alone, and the refusals: a bad lamp, no pointer, held by another position, no room for a beep
    ((bench.position 0).reader = some 2 ∧ (bench.ctx 2).image = .reader .off ∧ (∀ n ∈ some 2, n ≤ 2) ∧ (bench.ctx 2).holder = none ∧
      (bench.ctx 2).controls.length ≤ 5) ∧
    ({ pad0 with lamp4 := some 3 }.lamp4 = some 3 ∧ ({ bezel := some 3, beep := none } : ReaderPart).bezel = some 3 ∧ 2 < 3) ∧
    ((bench.position 2).keypad = none ∧ (bench.position 2).reader = none) ∧
    ((bench.position 1).keypad = some 0 ∧ ((withEntry openEntry0).ctx 0).holder ≠ none ∧ ((withEntry openEntry0).ctx 0).holder ≠ some 1) ∧
    (let p := bench.modCtx 2 fun x => { x with controls := List.replicate 6 (.beep 1) }
     ¬ ((p.ctx 2).holder ≠ none ∧ (p.ctx 2).holder ≠ some 0) ∧ (p.ctx 2).attach = .attached ∧ 6 ≤ (p.ctx 2).controls.length) := by decide +kernel

theorem wit_BothIndicatorsOrNone : let k : KeypadPart := { pad0 with text := some [0x41], lamp1 := some 2, lamp4 := some 0, beep := some 0 }
    let r : ReaderPart := { bezel := some 2, beep := some 300 }
    let crowd (c : CtxId) (n : Nat) : Part := bench.modCtx c fun x => { x with controls := List.replicate n (.beep 1) }
    let none_ (c : CtxId) (p : Part) : Prop := (p.ctx c).holder = none
    Ready (at_ bench) ∧ (∀ n ∈ [2, 3], k.lamp1 = some n ∨ k.lamp2 = some n ∨ k.lamp3 = some n ∨ k.lamp4 = some n ∨ r.bezel = some n → n ≤ 2) ∧
    ((bench.setPosition 0 { reader := none, keypad := some 0 }).position 0).reader = none ∧
    ((bench.setPosition 0 { reader := some 2, keypad := none }).position 0).keypad = none ∧
    ((bench.position 0).keypad = some 0 ∧ (bench.position 0).reader = some 2 ∧ (0 : CtxId) ≠ 2) ∧
    (((withEntry openEntry0).ctx 0).holder ≠ none ∧ ((withEntry openEntry0).ctx 0).holder ≠ some 1) ∧
    ((ready0.ctx 2).holder ≠ none ∧ (ready0.ctx 2).holder ≠ some 1) ∧ (none_ 0 bench ∧ none_ 2 bench) ∧
    (k.beep.isSome ∧ ((crowd 0 6).ctx 0).attach = .attached ∧ 6 ≤ ((crowd 0 6).ctx 0).controls.length) ∧
    (r.beep.isSome ∧ ((crowd 2 6).ctx 2).attach = .attached ∧ 6 ≤ ((crowd 2 6).ctx 2).controls.length) ∧
    ¬ 6 ≤ ((crowd 0 5).ctx 0).controls.length ∧
    (bench.ctx 0).image = .keypad (displayText []) #v[.off, .off, .off, .off] ∧ (bench.ctx 2).image = .reader .off := by decide +kernel

abbrev sizeFits (f : EntryFields) (n : Nat) : Prop := (f.kind = 0 ∧ n ≤ 32) ∨ (f.kind = 1 ∧ 4 ≤ n ∧ n ≤ 12)
abbrev entryGood (f : EntryFields) : Prop :=
  f.kind ≤ 1 ∧ sizeFits f f.min ∧ sizeFits f f.max ∧ f.min ≤ f.max ∧
  (∀ ks ∈ f.terms, ks ≠ [] ∧ ∀ k ∈ ks, k = 10 ∨ k = 14 ∨ k = 15) ∧ ∀ n ∈ f.echo, n ≤ 1
theorem wit_OpenEntryChecks : let f : EntryFields := { fields0 with kind := 1, min := 4, max := 12, terms := some [10, 14, 15], echo := some 1 }
    -- a kind of 2; sizes out of range, for OPEN and for SECURE; min above max; no terminator; one that is no terminator; an echo of 2
    (∀ g ∈ [{ f with kind := 2 }, { f with kind := 0, max := 33 }, { f with min := 3 }, { f with max := 13 }, { f with min := 6, max := 5 },
      { f with terms := some [] }, { f with terms := some [10, 11] }, { f with echo := some 2 }], ¬ entryGood g) ∧
    (Ready (at_ bench) ∧ entryGood f ∧ entryGood { fields0 with max := 32 }) ∧
    (bench.position 2).keypad = none ∧ ((bench.position 0).keypad = some 0 ∧ (bench.ctx 0).lineId = some .a) ∧
    (idleBench.ctx 0).attach ≠ .attached ∧ ¬ ((accepted0.line .a).state = .run ∧ (accepted0.line .a).loop.state = .noTest) ∧
    ((withEntry openEntry0).ctx 0).holder ≠ none ∧ Claimable fullOfResults 0 .a ∧ ¬ Room fullOfResults 1 :=
  ⟨by decide, by decide, by decide +kernel⟩

theorem wit_OpenEntryTaken : Ready (at_ bench) ∧ (bench.position 0).keypad = some 0 ∧ Claimable bench 0 .a ∧ Room bench 1 ∧ Room full32 1 ∧
    (bench.ctx 0).keypad = some pad ∧ (bench.ctx 0).image = .keypad (displayText []) #v[.off, .off, .off, .off] ∧
    (4 ≤ 4 ∧ 12 ≤ 12) ∧ ([10, 14, 15] ≠ [] ∧ ∀ k ∈ [10, 14, 15], k = 10 ∨ k = 14 ∨ k = 15) := by decide +kernel

theorem ops_entry : OperationsSound (at_ (withEntry openEntry0)) := operationsSound_of_check (by decide +kernel)
theorem ops_closing : OperationsSound (at_ (withEntry closing0)) := operationsSound_of_check (by decide +kernel)
theorem ops_capture : OperationsSound (at_ (withCapture capture0)) := operationsSound_of_check (by decide +kernel)
theorem ops_starting : OperationsSound (at_ (starting0 fun h => { h with atrWait := some 0 })) := operationsSound_of_check (by decide +kernel)
theorem ops_ready : OperationsSound (at_ ready0) := operationsSound_of_check (by decide +kernel)
theorem ops_awaiting : OperationsSound (at_ (awaiting0 fun h => { h with respTimer := some 0 })) := operationsSound_of_check (by decide +kernel)
theorem ops_bench : OperationsSound (at_ bench) := operationsSound_of_check test_bench_sound

theorem wit_WorkstationCancels : (Ready (at_ (withEntry openEntry0)) ∧ Ready (at_ (withEntry closing0)) ∧ Ready (at_ (withCapture capture0))) ∧
    OperationsSound (at_ (withEntry openEntry0)) ∧ OperationsSound (at_ (withEntry closing0)) ∧ OperationsSound (at_ (withCapture capture0)) ∧
    ((bench.position 0).keypad = some 0 ∧ (bench.ctx 0).holder ≠ some 0) ∧
    ((withEntry closing0).ctx 0).holder = some 0 ∧ (((withEntry closing0).ctx 0).keypad.bind (·.entry)) = some closing0 ∧
    ((bench.position 1).reader = some 1 ∧ (bench.ctx 1).capture = none) ∧
    (((withCapture capture0).ctx 1).reader.bind (·.capture)) = some capture0 ∧ ((withCapture capture0).ctx 1).holder = some 1 ∧
    -- a position without pointers; a capture held by another position than the one that asks
    (Ready (at_ bench) ∧ (bench.position 2).keypad = none ∧ (bench.position 2).reader = none) ∧
    ((((withCapture capture0).setPosition 0 { reader := some 1, keypad := none }).position 0).reader = some 1 ∧
      ((withCapture capture0).ctx 1).holder ≠ some 0) :=
  ⟨by decide +kernel, ops_entry, ops_closing, ops_capture, by decide +kernel⟩

/-- R113: a track that has characters and no reader status is NO_DATA at any outcome but COMPLETED, where its status counts as OK. -/
theorem test_track_without_status :
    let t : TrackRec := { TrackRec.start defaultRules 2 with state := .collecting, startFound := true, taken := true, buffer := [0x31] }
    trackShown .completed t = { track := 2, status := .ok, endedBy := none, chars := some [0x31] } ∧
    trackShown .armExpired t = { track := 2, status := .noData, endedBy := none, chars := none } ∧
    trackShown .incomplete { t with status := some .ok, parity := true } = { track := 2, status := .parity, endedBy := none, chars := some [0x31] } := by
  decide

theorem wit_KeysInCollecting : (bench.ctx 0).keypad = some pad ∧ (bench.ctx 0).lineId = some .a ∧ (9 : Fin 16).val < 10 ∧ openEntry0.digits.length < openEntry0.max ∧
    closing0.count < closing0.max := by decide +kernel

def collecting0 : Entry := { closing0 with state := .collecting, endKey := none, blockWait := none, block := [] }
theorem wit_KeysThatEndAnEntry : let p := withEntry openEntry0
    let q := withEntry collecting0
    ((p.ctx 0).keypad = some { ({ pad with wanted := .opened } : Keypad) with entry := some openEntry0 } ∧ (p.ctx 0).lineId = some .a ∧
    openEntry0.state = .collecting ∧ .entry 0 ∈ p.queue.reservations ∧ (openEntry0.terms.enter = true ∧ openEntry0.min ≤ openEntry0.digits.length) ∧
    (q.ctx 0).keypad = some { ({ pad with wanted := .masked } : Keypad) with entry := some collecting0 } ∧ collecting0.state = .collecting ∧
    .entry 0 ∈ q.queue.reservations ∧ collecting0.min ≤ collecting0.count ∧ openEntry0.terms.f1 = false) ∧
    -- a control that joins a queue with 7 places in use, with all 8 and a BEEP among them, and with all 8 and none; one that leaves a queue
    (List.replicate 7 (Control.beep 1)).length < 8 ∧
    (8 ≤ ([Control.setForm .masked, .beep 1, .beep 2] ++ List.replicate 5 Control.abandonBlock).length ∧
      ∀ m, Control.beep m ∉ List.replicate 5 Control.abandonBlock) ∧
    (8 ≤ (List.replicate 8 Control.abandonBlock).length ∧ ∀ m, Control.beep m ∉ List.replicate 8 Control.abandonBlock) ∧
    .finishBlock ∉ [Control.beep 2] := by
  refine ⟨by decide +kernel, by decide, ⟨by decide, ?_⟩, ⟨by decide, ?_⟩, by decide⟩ <;> simp

theorem wit_ArmReader : Ready (at_ bench) ∧ (8 = 0 ∨ 7 < 8) ∧ (1 ≤ 1 ∧ 7 ≤ 7) ∧ (bench.position 2).reader = none ∧ (bench.position 1).reader = some 1 ∧
    (bench.ctx 1).lineId = some .a ∧ (bench.ctx 1).reader = some Reader.fresh ∧ (bench.ctx 1).profile.bind (·.rules) = some defaultRules ∧
    (idleBench.ctx 1).attach ≠ .attached ∧ ¬ ((accepted0.line .a).state = .run ∧ (accepted0.line .a).loop.state = .noTest) ∧
    ((withCapture capture0).ctx 1).holder ≠ none ∧ (Claimable fullOfResults 1 .a ∧ (fullOfResults.ctx 1).session = .off ∧ ¬ Room fullOfResults 1) ∧
    (Claimable bench 1 .a ∧ (bench.ctx 1).session = .off ∧ Room bench 1) := by decide +kernel

theorem wit_ChipStart : Ready (at_ bench) ∧ (bench.position 0).reader = some 2 ∧ Claimable bench 2 .a ∧ (bench.ctx 2).kind = some .readerHybrid ∧
    (bench.ctx 2).reader = some card ∧ (bench.ctx 2).chip = some chip ∧ ((card.card = .inserted ∨ card.card = .latched) ∧ chip.reportedPower = .off) ∧
    ¬ ((Reader.fresh.card = .inserted ∨ Reader.fresh.card = .latched) ∧ chip.reportedPower = .off) ∧ Room bench 2 ∧
    (Claimable full31 2 .a ∧ ¬ Room full31 2) ∧ Room full32 2 ∧
    -- no pointer; a stripe reader; not ATTACHED; a test accepted; a holder
    (bench.position 2).reader = none ∧ ((bench.position 1).reader = some 1 ∧ (bench.ctx 1).lineId = some .a ∧ (bench.ctx 1).kind ≠ some .readerHybrid) ∧
    (idleBench.ctx 2).attach ≠ .attached ∧
    ((accepted0.ctx 2).attach = .attached ∧ ¬ ((accepted0.line .a).state = .run ∧ (accepted0.line .a).loop.state = .noTest)) ∧
    (ready0.ctx 2).holder ≠ none := by decide +kernel

theorem wit_ChipExchange : Ready (at_ ready0) ∧ 3 < 4 ∧ (261 < 262) ∧ ([0, 0xA4, 0, 0] : List Byte).length = 4 ∧ (ready0.position 0).reader = some 2 ∧
    (ready0.ctx 2).session = .ready ∧ (bench.ctx 2).session ≠ .ready ∧ (ready0.ctx 2).holder = some 0 ∧
    (ready0.ctx 2).holder ≠ some 1 ∧ Room ready0 1 ∧
    ¬ Room { ready0 with queue := { ready0.queue with records := List.replicate 31 result4 } } 1 ∧ (ready0.position 2).reader = none ∧
    ((ready0.position 1).reader = some 1 ∧ (ready0.ctx 1).chip = none) := by decide +kernel

theorem wit_ChipStop : Ready (at_ ready0) ∧ OperationsSound (at_ ready0) ∧ OperationsSound (at_ (starting0 fun h => { h with atrWait := some 0 })) ∧
    OperationsSound (at_ (awaiting0 fun h => { h with respTimer := some 0 })) ∧ (ready0.position 0).reader = some 2 ∧
    ((ready0.ctx 2).chip.isSome = true ∧ (ready0.ctx 2).session ≠ .off ∧ (ready0.ctx 2).holder = some 0) ∧ (bench.ctx 2).session = .off ∧
    (ready0.ctx 2).holder ≠ some 1 ∧ (ready0.position 2).reader = none ∧ ((ready0.position 1).reader = some 1 ∧ (ready0.ctx 1).chip = none) :=
  ⟨by decide +kernel, ops_ready, ops_starting, ops_awaiting, by decide +kernel⟩

theorem wit_ReleaseCard : Ready (at_ bench) ∧ (bench.position 1).reader = some 1 ∧ (bench.ctx 1).kind ≠ some .readerHybrid ∧ (bench.position 0).reader = some 2 ∧
    (bench.ctx 2).kind = some .readerHybrid ∧ (idleBench.ctx 2).attach ≠ .attached ∧ ((bench.ctx 2).attach = .attached ∧ (bench.ctx 2).chip = some chip ∧
      chip.session = .off) ∧ (ready0.ctx 2).session ≠ .off ∧ (bench.position 2).reader = none := by decide +kernel

theorem wit_LoopStartAndStop : Ready (at_ bench) ∧ (∀ n ∈ some 4095, n ≤ 4095) ∧
    (∀ cs, some [(0 : CtxId)] = some cs → ∀ c ∈ cs, ∃ l, Named 0 l ∧ (bench.ctx c).lineId = some l) ∧
    (∀ l, Named 0 l → (bench.line l).state = .run ∧ (bench.line l).loop.state = .noTest) ∧
    (∀ l, Named 0 l → ∀ c, (bench.ctx c).lineId = some l → (bench.ctx c).holder = none) ∧ Room bench 1 ∧ ¬ Room fullOfResults 1 ∧
    (∃ l, Named 2 l ∧ ¬ ((bench.line l).state = .run ∧ (bench.line l).loop.state = .noTest)) ∧
    ¬ (∀ l, Named 0 l → ∀ c, ((withCapture capture0).ctx c).lineId = some l → ((withCapture capture0).ctx c).holder = none) ∧
    (∀ l, Named 0 l → ((testing0 (loopRec 3)).line l).state = .test ∧ ((testing0 (loopRec 3)).line l).loop.state = .inTest) ∧
    -- fields out of range: the limit, the pattern's length and payloads, a flag; a context that is none, is on another line, or has no profile
    ((¬ ∀ n ∈ some 4096, n ≤ 4095) ∧ (¬ ∀ ws ∈ some [1, 2, 3], ws.length = 4 ∧ ∀ w ∈ ws, w ≤ 65535) ∧
      (¬ ∀ ws ∈ some [0, 65535, 65536, 0], ws.length = 4 ∧ ∀ w ∈ ws, w ≤ 65535) ∧
      (∀ ws ∈ some [0, 65535, 1, 0], ws.length = 4 ∧ ∀ w ∈ ws, w ≤ 65535) ∧ (¬ ∀ n ∈ some 2, n ≤ 1) ∧ ∀ n ∈ some 1, n ≤ 1) ∧
    (¬ ∃ c : CtxId, c.val = 16) ∧ (¬ ∃ l, Named 1 l ∧ (bench.ctx 0).lineId = some l) ∧ (¬ ∃ l, Named 2 l ∧ (bench.ctx 15).lineId = some l) ∧
    (∀ n ∈ [0, 2], ∃ c : CtxId, c.val = n ∧ ∃ l, Named 0 l ∧ (bench.ctx c).lineId = some l) := by
  have only : ∀ l, Named 0 l → l = .a := by intro l; cases l <;> simp [lineCode]
  refine ⟨ready_bench, by decide, ?_, ?_, ?_, by decide +kernel, by decide +kernel, ⟨.b, by decide +kernel, by decide +kernel⟩, ?_, ?_,
    by simp, by decide, ?_, ?_, ?_⟩
  · intro cs h c hc
    cases h
    simp only [List.mem_singleton] at hc
    exact ⟨.a, by decide, by subst hc; decide +kernel⟩
  · intro l h; rw [only l h]; decide +kernel
  · intro l h; rw [only l h]; decide +kernel
  · intro h; exact absurd (h .a (by decide) 1 (by decide +kernel)) (by decide +kernel)
  · intro l h; rw [only l h]; decide +kernel
  · rintro ⟨l, hl, h⟩; cases l <;> first | exact absurd hl (by decide) | exact absurd h (by decide +kernel)
  · rintro ⟨l, _, h⟩; exact absurd h (by cases l <;> decide +kernel)
  · intro n hn
    simp only [List.mem_cons, List.not_mem_nil, or_false] at hn
    rcases hn with rfl | rfl
    · exact ⟨0, rfl, .a, by decide, by decide +kernel⟩
    · exact ⟨2, rfl, .a, by decide, by decide +kernel⟩

theorem wit_ExpiredTimersEndTheirOperations :
    OperationsSound (at_ (withEntry { openEntry0 with interKey := some 0 })) ∧ ({ openEntry0 with interKey := some 0 } : Entry).timer .interKey = some 0 ∧
    openEntry0.timer .total ≠ some 0 ∧ OperationsSound (at_ (withCapture { capture0 with armTimer := some 0 })) ∧
    OperationsSound (at_ (withCapture { capture0 with state := .capturing, armTimer := none, limitTimer := some 0 })) ∧
    OperationsSound (at_ (starting0 fun h => { h with atrWait := some 0 })) ∧ OperationsSound (at_ (awaiting0 fun h => { h with respTimer := some 0 })) ∧
    ¬ NoExpiryDue (withEntry { openEntry0 with interKey := some 0 }) .a :=
  ⟨operationsSound_of_check (by decide +kernel), by decide +kernel, by decide +kernel, operationsSound_of_check (by decide +kernel),
   operationsSound_of_check (by decide +kernel), ops_starting, ops_awaiting,
   fun h => (h 0 (by decide +kernel)).1 { openEntry0 with interKey := some 0 } (by decide +kernel) .interKey (by decide)⟩

def modChip (f : Chip → Chip) : Part := before_ 7 (bench.modCtx 2 fun x => { x with chip := x.chip.map f })
/-- An exchange of this command in SENDING, after `sent` units, latch and power as wanted. -/
def sendingChip (bytes : List Byte) (sent : Nat) : Part :=
  before_ 7 (withSession .sending [.chipEnd 2, .exchange 2] fun h =>
    { h with reportedLatch := .on, reportedPower := .on, command := bytes, unitsSent := sent, exchanges := 1 })
def shown0 (f : Features) (cursor : Nat) : Part := bench.modCtx 0 fun x => { x with features := some f, cursor := cursor }
theorem wit_SlotStartChoosesTheUnit :
    (SlotNext bench .a 0 ∧ SlotNext (before_ 10 bench) .a 11 ∧ SlotNext (before_ 1 (testing0 (loopRec 3))) .a 6 ∧ SlotNext (modChip id) .a 8 ∧
      SlotNext (sendingChip [0, 0xA4, 0, 0] 0) .a 8) ∧
    ((bench.lineA.active[11]? = some none ∧ bench.lineA.active[0]? = some (some 0) ∧ bench.lineA.active[6]? = some (some 1) ∧
      bench.lineA.active[8]? = some (some 2)) ∧
    (((testing0 (loopRec 3)).ctx 1).attach = .looping ∧ (testing0 (loopRec 3)).lineA.loop.setup = some defaultSetup ∧
      (testing0 (loopRec 3)).lineA.loop.records = [] ++ loopRec 3 :: [] ∧ (loopRec 3).ctx = 1) ∧
    ((bench.modCtx 0 fun x => { x with attach := .lost }).ctx 0).attach = .lost ∧
    ((bench.modCtx 0 fun x => { x with attach := .mismatch }).ctx 0).attach = .mismatch ∧ (bench.ctx 0).attach = .attached) ∧
    ((({ pad with wanted := .masked } : Keypad).wanted ≠ pad.reported ∧ (bench.ctx 0).formHold = 0) ∧
    (pad.wanted = pad.reported ∧ (bench.ctx 0).chip = none ∧ (bench.ctx 2).keypad = none ∧ (bench.ctx 2).latchHold = 0 ∧ (bench.ctx 2).powerHold = 0) ∧
    (let h : Chip := { chip with wantedLatch := true }
     ¬ ((h.reportedLatch = .on ∧ h.wantedLatch = true) ∨ (h.reportedLatch = .off ∧ h.wantedLatch = false))) ∧
    (let h : Chip := { chip with reportedLatch := .on, wantedLatch := true, wantedPower := true }
     ((h.reportedLatch = .on ∧ h.wantedLatch = true) ∨ (h.reportedLatch = .off ∧ h.wantedLatch = false)) ∧
      ¬ ((h.reportedPower = .on ∧ h.wantedPower = true) ∨ (h.reportedPower = .off ∧ h.wantedPower = false)))) ∧
    ((((bench.modCtx 0 fun x => { x with controls := [.beep 1] }).ctx 0).controls = .beep 1 :: [] ∧ (bench.ctx 0).controls = []) ∧
    ((((sendingChip [0, 0xA4, 0, 0] 0).ctx 2).chip.map fun h => (h.session, h.command[2 * h.unitsSent]?, h.command[2 * h.unitsSent + 1]?)) =
        some (.sending, some 0, some 0xA4) ∧
      (((sendingChip [0, 0xA4, 0, 0, 1] 2).ctx 2).chip.map fun h => (h.command[2 * h.unitsSent]?, h.command[2 * h.unitsSent + 1]?)) =
        some (some 1, none) ∧
      (((sendingChip [0, 0xA4, 0, 0] 2).ctx 2).chip.map fun h => h.command[2 * h.unitsSent]?) = some none) ∧
    (({ keyCtx with features := none } : Context).features = none ∧ (bench.ctx 0).kind = some .keypad ∧ (bench.ctx 1).kind = some .readerStripe ∧
      ((bench.ctx 1).features = some { display := false, lamps := 1 } ∧ 1 ≤ 1) ∧ ((bench.ctx 2).features = some { display := false, lamps := 0 } ∧ ¬ 1 ≤ 0))) ∧
    -- the next piece at or after the cursor, in a display with lamps; the lamps next after the last piece; piece 0 after the lamps of a bare keypad
    (∃ x, x = (shown0 { display := true, lamps := 4 } 7).ctx 0 ∧ x.image = .keypad (displayText []) #v[.off, .off, .off, .off] ∧ x.cursor ≤ 8 ∧
      ∀ j < 9, x.cursor ≤ j → 7 ≤ j) ∧
    (∃ x, x = (shown0 { display := false, lamps := 1 } 0).ctx 0 ∧ x.cursor ≤ 8 ∧ x.features = some { display := false, lamps := 1 }) :=
  ⟨⟨slotNext_of_check (by decide +kernel), slotNext_of_check (by decide +kernel), slotNext_of_check (by decide +kernel),
    slotNext_of_check (by decide +kernel), slotNext_of_check (by decide +kernel)⟩, by decide +kernel, by decide +kernel, by decide +kernel, ⟨_, rfl, by decide +kernel, by decide +kernel, by decide +kernel⟩, ⟨_, rfl, by decide +kernel, by decide +kernel⟩⟩

def polled (i : Nat) (c : CtxId) (p : Part) : Part := inSlot p (slotOf i c .poll)
def missed (c : CtxId) (n : Nat) (p : Part) : Part := p.modCtx c fun x => { x with miss := n }
def attachedAs (a : Attach) (c : CtxId) : Part := bench.modCtx c fun x => { x with attach := a }
theorem wit_SilentSlotMissesThenLoses :
    (SlotEnds (at_ (polled 0 0 bench)) .a 0 (slotOf 0 0 .poll) keyProfile ∧ OperationsSound (at_ (polled 0 0 bench)) ∧
      (bench.ctx 0).attach = .attached ∧ NotArming (bench.ctx 0) ∧ bench.lineA.state = .run ∧ (bench.ctx 0).miss + 1 < keyProfile.q) ∧
    (Silent .nothing ∧ Silent (.unit 4 24 0)) ∧ (Damaged (.unit 0 23 0) ∧ Damaged (.unit 3 1 0)) ∧
    (SlotEnds (at_ (polled 0 0 (attachedAs .waiting 0))) .a 0 (slotOf 0 0 .poll) keyProfile ∧
      OperationsSound (at_ (polled 0 0 (attachedAs .waiting 0))) ∧ ((attachedAs .waiting 0).ctx 0).attach = .waiting) ∧
    (SlotEnds (at_ (polled 0 0 (testing0 (loopRec 3)))) .a 0 (slotOf 0 0 .poll) keyProfile ∧
      OperationsSound (at_ (polled 0 0 (testing0 (loopRec 3)))) ∧ (testing0 (loopRec 3)).lineA.state = .test ∧
      ((testing0 (loopRec 3)).ctx 0).attach = .attached) ∧
    -- at Q: a keypad with no operation, a reader whose card state is known, a session in READY, an entry
    (OperationsSound (at_ (polled 0 0 (missed 0 7 bench))) ∧ ((missed 0 7 bench).ctx 0).miss + 1 = keyProfile.q) ∧
    (SlotEnds (at_ (polled 8 2 (missed 2 7 bench))) .a 8 (slotOf 8 2 .poll) hybridProfile ∧ OperationsSound (at_ (polled 8 2 (missed 2 7 bench))) ∧
      ((missed 2 7 bench).ctx 2).reader = some card ∧ card.card ≠ .unknown ∧ hybridProfile.q ≤ 7 + 1) ∧
    (SlotEnds (at_ (polled 8 2 (missed 2 7 ready0))) .a 8 (slotOf 8 2 .poll) hybridProfile ∧ OperationsSound (at_ (polled 8 2 (missed 2 7 ready0)))) ∧
    (SlotEnds (at_ (polled 0 0 (missed 0 7 (withEntry closing0)))) .a 0 (slotOf 0 0 .poll) keyProfile ∧
      OperationsSound (at_ (polled 0 0 (missed 0 7 (withEntry closing0))))) ∧
    -- a unit other than HELLO at a WAITING context; completions that find the context PARKED, FREE, or LOOPING after another unit
    (3 < 4 ∧ (2 : BitVec 4) ≠ 1) ∧
    (NoExpiryDue (polled 0 0 (attachedAs .parked 0)) .a ∧ OperationsSound (at_ (polled 0 0 (attachedAs .parked 0))) ∧
      ((attachedAs .parked 0).ctx 0).attach = .parked) ∧
    (NoExpiryDue (polled 0 4 bench) .a ∧ OperationsSound (at_ (polled 0 4 bench)) ∧ (bench.ctx 4).attach = .free) ∧
    (NoExpiryDue (polled 6 1 (testing0 (loopRec 3))) .a ∧ OperationsSound (at_ (polled 6 1 (testing0 (loopRec 3)))) ∧
      ((testing0 (loopRec 3)).ctx 1).attach = .looping ∧ (slotOf 6 1 .poll).fromLoop = false ∧ ((testing0 (loopRec 3)).ctx 1).lineId = some .a) := by
  refine ⟨⟨slotEnds_of_check (by decide +kernel), operationsSound_of_check (by decide +kernel), by decide +kernel, ?_, by decide +kernel, by decide +kernel⟩,
    ⟨trivial, Nat.le_refl 4⟩, ⟨⟨by decide, .inl (by decide)⟩, ⟨by decide, .inl (by decide)⟩⟩,
    ⟨slotEnds_of_check (by decide +kernel), operationsSound_of_check (by decide +kernel), by decide +kernel⟩,
    ⟨slotEnds_of_check (by decide +kernel), operationsSound_of_check (by decide +kernel), by decide +kernel, by decide +kernel⟩,
    ⟨operationsSound_of_check (by decide +kernel), by decide +kernel⟩,
    ⟨slotEnds_of_check (by decide +kernel), operationsSound_of_check (by decide +kernel), by decide +kernel, by decide +kernel, by decide +kernel⟩,
    ⟨slotEnds_of_check (by decide +kernel), operationsSound_of_check (by decide +kernel)⟩,
    ⟨slotEnds_of_check (by decide +kernel), operationsSound_of_check (by decide +kernel)⟩, by decide,
    ⟨noExpiryDue_of_check (by decide +kernel), operationsSound_of_check (by decide +kernel), by decide +kernel⟩,
    ⟨noExpiryDue_of_check (by decide +kernel), operationsSound_of_check (by decide +kernel), by decide +kernel⟩,
    ⟨noExpiryDue_of_check (by decide +kernel), operationsSound_of_check (by decide +kernel), by decide +kernel⟩⟩
  intro e he
  exact absurd he (by rw [show (bench.ctx 0).entry = none by decide +kernel]; simp)

theorem wit_HelloAttachesTheContext :
    (SlotEnds (at_ (polled 0 0 (attachedAs .lost 0))) .a 0 (slotOf 0 0 .poll) keyProfile ∧ OperationsSound (at_ (polled 0 0 (attachedAs .lost 0))) ∧
      ((attachedAs .lost 0).ctx 0).attach = .lost) ∧
    (SlotEnds (at_ (polled 8 2 (attachedAs .mismatch 2))) .a 8 (slotOf 8 2 .poll) hybridProfile ∧
      OperationsSound (at_ (polled 8 2 (attachedAs .mismatch 2))) ∧ ((attachedAs .mismatch 2).ctx 2).attach = .mismatch) ∧
    (SlotEnds (at_ (polled 8 2 ready0)) .a 8 (slotOf 8 2 .poll) hybridProfile ∧ OperationsSound (at_ (polled 8 2 ready0)) ∧
      (ready0.ctx 2).attach = .attached ∧ NotArming (ready0.ctx 2)) ∧
    3 < 4 ∧ ((1 : BitVec 3).toNat = 1 ∧ (3 : BitVec 3).toNat = 3 ∧ (2 : BitVec 3).toNat ≠ 1 ∧ (0 : BitVec 3).toNat ≠ 3) := by
  refine ⟨⟨slotEnds_of_check (by decide +kernel), operationsSound_of_check (by decide +kernel), by decide +kernel⟩,
    ⟨slotEnds_of_check (by decide +kernel), operationsSound_of_check (by decide +kernel), by decide +kernel⟩,
    ⟨slotEnds_of_check (by decide +kernel), operationsSound_of_check (by decide +kernel), by decide +kernel, ?_⟩, by decide, by decide⟩
  intro e he
  exact absurd he (by rw [show (ready0.ctx 2).entry = none by decide +kernel]; simp)

/-- The keypad polled, with this form reported and these keys under debounce, N = 3. -/
def scanning (form : ScanForm) (keys : List KeyState) (p : Part) : Part :=
  polled 0 0 (p.modCtx 0 fun x => { x with keypad := x.keypad.map fun k => { k with reported := form, keys := keys } })
/-- All keys UP but one, which two scans in a row have shown down. -/
def rising (form : ScanForm) (j : Nat) : List KeyState := (keysUnder form { pad with reported := match form with | .opened => .masked | .masked => .opened }).set j { down := false, run := 2 }
def arming0 (n : Option Nat) : Entry :=
  { closing0 with state := .arming, count := 0, endKey := none, blockWait := none, block := [], arming := n, firstMs := 1000 }
def scanOf (p : Part) : Prop :=
  Hears (at_ p) .a 0 (slotOf 0 0 .poll) keyProfile ∧ OperationsSound (at_ p) ∧ AttachSound (at_ p) ∧ (p.ctx 0).keypad.isSome = true
theorem scanOf_of_check {p : Part}
    (h : ((((((at_ p).part.line .a).inSlot = some (slotOf 0 0 .poll) ∧ (slotOf 0 0 .poll).index = 0 ∧
      ((at_ p).part.ctx (slotOf 0 0 .poll).ctx).profile = some keyProfile ∧ keyProfile.line = .a) ∧ ∀ c, notDueAt (at_ p).part .a c = true) ∧
      ((at_ p).part.ctx (slotOf 0 0 .poll).ctx).attach = .attached) ∧
      (((∀ c, opsAt (at_ p) c = true) ∧ opsLine (at_ p) .a = true) ∧ opsLine (at_ p) .b = true) ∧ (∀ c, attachAt (at_ p) c = true)) ∧
      (p.ctx 0).keypad.isSome = true) : scanOf p :=
  ⟨hears_of_check h.1.1, operationsSound_of_check h.1.2.1, attachSound_of_check h.1.2.2, h.2⟩
theorem wit_ScanIsDebounced : let open5 := { pad with keys := rising .opened 5 }
    let masked6 := { pad with reported := .masked, keys := rising .masked 6 }
    -- with no holder: key 5 goes DOWN; nothing is pressed
    (scanOf (scanning .opened (rising .opened 5) bench) ∧ (bench.ctx 0).entry = none ∧ Pressed .opened open5 0x0020 5 ∧
      ∀ j, ¬ Pressed .opened open5 0x0000 j) ∧
    -- an OPEN entry in COLLECTING; SECURE entries in ARMING, COLLECTING, CLOSING
    (scanOf (scanning .opened (rising .opened 5) (withEntry openEntry0)) ∧ openEntry0.state = .collecting ∧ openEntry0.kind = .opened) ∧
    (scanOf (scanning .masked (rising .masked 6) (withEntry (arming0 none))) ∧ (arming0 none).kind = .secure ∧ Pressed .masked masked6 0x0001 6) ∧
    (scanOf (scanning .masked (rising .masked 6) (withEntry collecting0)) ∧ collecting0.state ≠ .arming) ∧
    (scanOf (scanning .masked (rising .masked 6) (withEntry closing0)) ∧ (closing0.state ≠ .collecting ∧ closing0.state ≠ .arming)) ∧
    -- the arming count not started, in its last but one step and in its last
    (scanOf (scanning .opened (rising .opened 5) (withEntry (arming0 (some 6)))) ∧ (arming0 (some 6)).arming = some 6 ∧ 6 < 7) ∧
    (scanOf (scanning .opened (rising .opened 5) (withEntry (arming0 (some 7)))) ∧ (arming0 (some 7)).arming = some 7 ∧ 7 ≤ 7 ∧
      bench.lineA.state = .run ∧ ((withEntry (arming0 (some 7))).ctx 0).miss + 1 < keyProfile.q) ∧
    -- the slot of the entry's own SET_FORM, which starts the count; what else counts: misfits, late block units, a HELLO, silence, damage
    (let run : SlotRun := { slotOf 0 0 (.control (.setForm .masked)) with forEntry := true }
     let p := inSlot (withEntry (arming0 none)) run
     (Hears (at_ p) .a 0 run keyProfile ∧ OperationsSound (at_ p) ∧ AttachSound (at_ p)) ∧ run.forEntry = true ∧ (arming0 none).arming = none ∧
      (Misfit (p.ctx 0) .keypad 15 0 ∧ Misfit (p.ctx 0) .keypad 4 0 ∧ Misfit (p.ctx 0) .keypad 10 0)) ∧
    ({ keyCtx with lateBlock := true, fresh := true } : Context).lateBlock = true ∧ (bench.ctx 0).fresh = false ∧
    Silent .nothing ∧ Damaged (.unit 3 23 0) := by
  refine ⟨⟨scanOf_of_check (by decide +kernel), by decide +kernel, ?_, notPressed_of_check (by decide +kernel)⟩,
    ⟨scanOf_of_check (by decide +kernel), by decide, by decide⟩, ⟨scanOf_of_check (by decide +kernel), by decide, ?_⟩,
    ⟨scanOf_of_check (by decide +kernel), by decide⟩, ⟨scanOf_of_check (by decide +kernel), by decide, by decide⟩,
    ⟨scanOf_of_check (by decide +kernel), by decide, by decide⟩,
    ⟨scanOf_of_check (by decide +kernel), by decide, by decide, by decide +kernel, by decide +kernel⟩,
    ⟨⟨hears_of_check (by decide +kernel), operationsSound_of_check (by decide +kernel), attachSound_of_check (by decide +kernel)⟩, rfl, rfl, ?_⟩,
    rfl, by decide +kernel, trivial, ⟨by decide, .inl (by decide)⟩⟩
  · exact ⟨⟨{ down := false, run := 2 }, by decide +kernel, rfl⟩, ⟨{ down := true, run := 0 }, by decide +kernel, rfl⟩, by decide +kernel, by decide +kernel⟩
  · exact ⟨⟨{ down := false, run := 2 }, by decide +kernel, rfl⟩, ⟨{ down := true, run := 0 }, by decide +kernel, rfl⟩, by decide +kernel, by decide +kernel⟩
  · refine ⟨?_, ?_, ?_⟩ <;> simp [Misfit] <;> decide +kernel

theorem wit_TrackCharacterIsTaken : let p := polled 6 1 (withCapture capture0)
    let q := polled 8 2 (awaiting0 id)
    (Hears (at_ p) .a 6 (slotOf 6 1 .poll) stripeProfile ∧ AttachSound (at_ p) ∧ OperationsSound (at_ p) ∧ stripeProfile.kind ≠ .keypad ∧
      (p.ctx 1).reader = some { Reader.fresh with card := .noCard, capture := some capture0 }) ∧
    (Hears (at_ (polled 6 1 bench)) .a 6 (slotOf 6 1 .poll) stripeProfile ∧ (bench.ctx 1).capture = none) ∧
    ((2 : BitVec 2) ≠ 0 ∧ (2 : BitVec 2) ≠ 3) ∧ (CardState.noCard = .noCard ∧ (q.ctx 2).session ≠ .off) ∧
    -- a card enters a stripe reader with its capture ARMED; at a hybrid reader it is removed, loses power, or stays, in a session and in none
    ((stripeProfile.kind = .readerStripe ∧ (1 : BitVec 3) = 1) ∧ (p.ctx 1).chip = none) ∧
    (Hears (at_ q) .a 8 (slotOf 8 2 .poll) hybridProfile ∧ AttachSound (at_ q) ∧ OperationsSound (at_ q) ∧ (q.ctx 2).reader = some card ∧
      (q.ctx 2).chip.map (fun h => (h.session, h.powerSeen)) = some (.awaiting, true)) ∧
    (Hears (at_ (polled 8 2 bench)) .a 8 (slotOf 8 2 .poll) hybridProfile ∧ OperationsSound (at_ (polled 8 2 bench)) ∧ (bench.ctx 2).chip = some chip ∧
      chip.session = .off ∧ chip.powerSeen = false) ∧ hybridProfile.kind = .readerHybrid :=
  ⟨⟨hears_of_check (by decide +kernel), attachSound_of_check (by decide +kernel), operationsSound_of_check (by decide +kernel), by decide, by decide +kernel⟩,
   ⟨hears_of_check (by decide +kernel), by decide +kernel⟩, by decide, by decide +kernel, ⟨by decide, by decide +kernel⟩,
   ⟨hears_of_check (by decide +kernel), attachSound_of_check (by decide +kernel), operationsSound_of_check (by decide +kernel), by decide +kernel,
    by decide +kernel⟩,
   ⟨hears_of_check (by decide +kernel), operationsSound_of_check (by decide +kernel), by decide +kernel, by decide, by decide⟩, by decide⟩

theorem wit_ChipAndBlockUnits : let p := polled 8 2 (starting0 fun h => { h with atr := List.replicate 31 0 })
    let q := polled 8 2 (awaiting0 fun h => { h with response := List.replicate 258 0 })
    let k := polled 0 0 (withEntry closing0)
    let u := inSlot (sendingChip [0, 0xA4, 0, 0] 2) (slotOf 8 2 (.chipEnd none))
    (Hears (at_ p) .a 8 (slotOf 8 2 .poll) hybridProfile ∧ OperationsSound (at_ p) ∧ AttachSound (at_ p) ∧ (p.ctx 2).session = .starting ∧
      (p.ctx 2).chip.map (·.powerSeen) = some true ∧ (p.ctx 2).chip.map (·.atr.length) = some 31) ∧
    (Hears (at_ q) .a 8 (slotOf 8 2 .poll) hybridProfile ∧ OperationsSound (at_ q) ∧ AttachSound (at_ q) ∧ (q.ctx 2).session = .awaiting ∧
      (q.ctx 2).chip.map (fun h => (h.response.length, h.overrun)) = some (258, false)) ∧
    (Hears (at_ k) .a 0 (slotOf 0 0 .poll) keyProfile ∧ OperationsSound (at_ k) ∧ AttachSound (at_ k) ∧
      (k.ctx 0).keypad = some { ({ pad with wanted := .masked } : Keypad) with entry := some closing0 } ∧ closing0.state = .closing ∧
      closing0.kind = .secure ∧ closing0.block.length = 8) ∧
    ((List.replicate 14 (0 : Byte)).length ≤ 14 ∧ 14 < (List.replicate 15 (0 : Byte)).length) ∧
    -- the completion of CHIP_END; a late unit; units that do not fit and units that are discarded quietly, in no entry that arms
    (Hears (at_ u) .a 8 (slotOf 8 2 (.chipEnd none)) hybridProfile ∧ OperationsSound (at_ u) ∧ AttachSound (at_ u) ∧ (u.ctx 2).session = .sending ∧ NotArming (u.ctx 2)) ∧
    (let h : Chip := { chip with discardLate := true }; h.session = .off ∧ h.discardLate = true) ∧
    (Misfit (u.ctx 2) hybridProfile.kind 15 0 ∧ Misfit (u.ctx 2) hybridProfile.kind 2 0 ∧ Quiet (u.ctx 2) hybridProfile.kind 0 ∧
      ¬ Quiet (u.ctx 2) hybridProfile.kind 15) := by
  refine ⟨⟨hears_of_check (by decide +kernel), operationsSound_of_check (by decide +kernel), attachSound_of_check (by decide +kernel), by decide +kernel, by decide +kernel, by decide +kernel⟩,
    ⟨hears_of_check (by decide +kernel), operationsSound_of_check (by decide +kernel), attachSound_of_check (by decide +kernel), by decide +kernel, by decide +kernel⟩,
    ⟨hears_of_check (by decide +kernel), operationsSound_of_check (by decide +kernel), attachSound_of_check (by decide +kernel), by decide +kernel, by decide, by decide, by decide⟩, by decide,
    ⟨hears_of_check (by decide +kernel), operationsSound_of_check (by decide +kernel), attachSound_of_check (by decide +kernel), by decide +kernel, ?_⟩, by decide, ?_, ?_, .inl rfl, ?_⟩
  · intro e he
    exact absurd he (by rw [show ((inSlot (sendingChip [0, 0xA4, 0, 0] 2) (slotOf 8 2 (.chipEnd none))).ctx 2).entry = none by decide +kernel]; simp)
  · simp [Misfit, hybridProfile]
  · simp [Misfit, hybridProfile]
  · simp [Quiet, hybridProfile]

def loopSlot (m : Nat) : Part := inSlot (testing0 (loopRec m)) { slotOf 6 1 .poll with fromLoop := true }
theorem wit_LoopSlotIsCompared :
    (OperationsSound (at_ (loopSlot 5)) ∧ SlotEnds (at_ (loopSlot 5)) .a 6 { slotOf 6 1 .poll with fromLoop := true } stripeProfile) ∧
    (((loopSlot 5).ctx 1).attach = .looping ∧ (loopSlot 5).lineA.loop.setup = some defaultSetup ∧
      (loopSlot 5).lineA.loop.records = [] ++ loopRec 5 :: [] ∧ (loopRec 5).ctx = 1) ∧
    ((2 ≤ 5 ∧ (defaultSetup.continuous = true ∨ (0 < defaultSetup.passLimit ∧ 5 ≤ 4 * defaultSetup.passLimit + 1))) ∧
    ¬ (2 ≤ 1 ∧ (defaultSetup.continuous = true ∨ (0 < defaultSetup.passLimit ∧ 1 ≤ 4 * defaultSetup.passLimit + 1))) ∧
    ¬ (2 ≤ 6 ∧ (defaultSetup.continuous = true ∨ (0 < defaultSetup.passLimit ∧ 6 ≤ 4 * defaultSetup.passLimit + 1))) ∧
    (defaultSetup.pattern.get ⟨(5 - 2) % 4, by omega⟩ : Payload) = 0x9669) ∧ Damaged (.unit 3 23 0xABCDEF) ∧ 4294967295 < 4294967296 :=
  ⟨⟨operationsSound_of_check (by decide +kernel), slotEnds_of_check (by decide +kernel)⟩, by decide +kernel, by decide,
   ⟨by decide, .inl (by decide)⟩, by decide⟩

/-- Line A with unpadded frames (L = 16 + 32·12), the completion of its last slot still to be taken. -/
def unpadded : Part :=
  (inSlot bench (slotOf 11 2 .poll)).modLine .a fun x =>
    { x with pmin := 0, frameLen := 400, period := 800, active := lineA.active.set 11 (some 2), calls := lineA.calls.set 11 0x3C }
theorem wit_FrameMarkCounts : AddressesFit bench ∧ (MarkNext (framed bench) .a ∧ bench.lineA.waiting = none ∧ bench.lineA.loop.state = .noTest) ∧
    (MarkNext unpadded .a ∧ AddressesFit unpadded) ∧
    (¬ MarkNext bench .b ∧ ¬ MarkNext (polled 0 0 bench) .a) ∧ (bench.ctx 0).lineId = some .a ∧ (bench.ctx 15).lineId ≠ some .a := by
  refine ⟨addressesFit_of_check (by decide +kernel),
    ⟨⟨by decide +kernel, by decide +kernel, .inl (frameSent_of_check (by decide +kernel))⟩, by decide +kernel, by decide +kernel⟩,
    ⟨⟨by decide +kernel, by decide +kernel, .inr ⟨noExpiryDue_of_check (by decide +kernel), by decide +kernel, by decide +kernel,
      slotOf 11 2 .poll, by decide +kernel, by decide +kernel⟩⟩, addressesFit_of_check (by decide +kernel)⟩,
    ⟨fun h => h.1 (by decide +kernel), ?_⟩, by decide +kernel, by decide +kernel⟩
  rintro ⟨_, _, h | h⟩
  · exact absurd h.1 (by decide +kernel)
  · exact absurd h.2.1 (by decide +kernel)

/-- A schedule in which context 3 has its first slot, context 0 keeps one, and contexts 1 and 2 lose theirs. -/
def newSchedule : Schedule := List.replicate 10 none ++ [some 0, some 3]
def swapping (p : Part) : Part := framed (p.modLine .a fun x => { x with waiting := some newSchedule })
theorem markNext_of_check {p : Part} {l : LineId} (h : ((p.line l).state ≠ .idle ∧ (p.line l).stopPending = false) ∧
    ((p.line l).inSlot = none ∧ ∀ j < (p.line l).slots, (p.line l).nextSlot ≤ j → (p.line l).active[j]?.join = none) ∧
      ∀ c, notDueAt p l c = true) : MarkNext p l :=
  ⟨h.1.1, h.1.2, .inl (frameSent_of_check h.2)⟩
theorem wit_MarkChangesAttachment :
    -- a swap that ends a capture and parks its reader; a swap while a test runs; a test accepted; a timer of 1 taken first
    (MarkNext (swapping (withCapture capture0)) .a ∧ OperationsSound (at_ (swapping (withCapture capture0))) ∧
      AddressesFit (swapping (withCapture capture0))) ∧
    (MarkNext (swapping (testing0 (loopRec 3))) .a ∧ OperationsSound (at_ (swapping (testing0 (loopRec 3)))) ∧
      AddressesFit (swapping (testing0 (loopRec 3)))) ∧
    (MarkNext (framed accepted0) .a ∧ OperationsSound (at_ (framed accepted0)) ∧ AddressesFit (framed accepted0)) ∧
    (MarkNext (framed (withEntry { openEntry0 with interKey := some 1 })) .a ∧
      OperationsSound (at_ (framed (withEntry { openEntry0 with interKey := some 1 }))) ∧
      ((after (.frameMark .a [.entry 0 .interKey] .swapFirst) (framed (withEntry { openEntry0 with interKey := some 1 }))).ctx 0).entry = none) ∧
    -- each of these marks is taken: the reader is parked with its result and its notice, the test enters, the running one goes on
    (let p := after (.frameMark .a [] .swapFirst) (swapping (withCapture capture0))
     (p.ctx 1).attach = .parked ∧ (p.ctx 1).capture = none ∧ (p.ctx 3).attach = .waiting ∧
      p.queue.records.map (·.body.kind) = [.captureResult, .drop, .drop, .drop]) ∧
    (after (.frameMark .a [] .testFirst) (framed accepted0)).lineA.state = .test :=
  ⟨⟨markNext_of_check (by decide +kernel), operationsSound_of_check (by decide +kernel), addressesFit_of_check (by decide +kernel)⟩,
   ⟨markNext_of_check (by decide +kernel), operationsSound_of_check (by decide +kernel), addressesFit_of_check (by decide +kernel)⟩,
   ⟨markNext_of_check (by decide +kernel), operationsSound_of_check (by decide +kernel), addressesFit_of_check (by decide +kernel)⟩,
   ⟨markNext_of_check (by decide +kernel), operationsSound_of_check (by decide +kernel), by decide +kernel⟩, by decide +kernel, by decide +kernel⟩

def stopping (p : Part) : Part := p.modLine .a fun x => { x with stopPending := true }
theorem wit_LineEntersIdle :
    (OperationsSound (at_ (framed (stopping (withEntry openEntry0)))) ∧ bench.lineA.state ≠ .idle ∧
      FrameSent (framed (stopping (withEntry openEntry0))) .a ∧ (withEntry openEntry0).lineA.loop.state = .noTest) ∧
    (OperationsSound (at_ (framed (stopping (testing0 (loopRec 3))))) ∧ (testing0 (loopRec 3)).lineA.loop.setup = some defaultSetup) ∧
    (bench.lineA.stopPending = false ∧ bench.lineB.state = .idle ∧ ¬ FrameSent (polled 0 0 bench) .a) :=
  ⟨⟨operationsSound_of_check (by decide +kernel), by decide +kernel, frameSent_of_check (by decide +kernel), by decide +kernel⟩,
   ⟨operationsSound_of_check (by decide +kernel), by decide +kernel⟩, by decide +kernel, by decide +kernel, fun h => absurd h.1 (by decide +kernel)⟩

/-- The bench with a secure entry and a command waiting meets every condition that the steps keep, and takes a step. -/
def busy : State := { at_ (withEntry closing0) with pending := [.slotStart .a 0] }
theorem lineSound_of_check {x : Line}
    (h : (2 ≤ x.slots ∧ x.slots ≤ 16 ∧ x.pmin ≤ 20000 ∧ x.pmin % 100 = 0 ∧
        x.frameLen = max (16 + 32 * x.slots) (x.pmin * x.rate.kbps / 1000) ∧ x.period = x.frameLen * 1000 / x.rate.kbps) ∧
      x.active.length = x.slots ∧ (∀ w ∈ x.waiting, w.length = x.slots) ∧ (x.state = .idle → x.stopPending = false ∧ x.waiting = none)) : LineSound x :=
  let ⟨⟨h1, h2, h3, h4, h5, h6⟩, h7, h8, h9⟩ := h
  ⟨h1, h2, h3, h4, h5, h6, h7, fun w hw => h8 w hw, h9⟩

def bothLines : List LineId := [.a, .b]
theorem mem_bothLines (l : LineId) : l ∈ bothLines := by cases l <;> simp [bothLines]

theorem schedulesSound_of_check {s : State}
    (h : ∀ c : CtxId, ∀ l ∈ bothLines, (some c ∈ (s.part.line l).active → (s.part.ctx c).lineId = some l) ∧
      ∀ w ∈ (s.part.line l).waiting, some c ∈ w → (s.part.ctx c).lineId = some l) : SchedulesSound s := by
  intro l c hc
  obtain ⟨ha, hw⟩ := h c l (mem_bothLines l)
  rcases hc with hc | ⟨w, h1, h2⟩
  · exact ha hc
  · exact hw w h1 h2

def servedAt (s : State) (c : CtxId) : Bool :=
  let x := s.part.ctx c
  let has (l : LineId) : Bool := decide (x.lineId = some l ∧ (s.part.line l).state ≠ .idle ∧ some c ∈ (s.part.line l).active)
  decide (x.attach ≠ .free → x.attach ≠ .parked → has .a = true ∨ has .b = true) &&
  decide (x.attach = .parked → has .a = false ∧ has .b = false)

theorem servedSound_of_check {s : State} (h : ∀ c : CtxId, servedAt s c = true) : ServedSound s := by
  intro c
  have hc := h c
  simp only [servedAt, Bool.and_eq_true, decide_eq_true_eq] at hc
  refine ⟨fun h1 h2 => ?_, fun l h1 h2 h3 h4 => ?_⟩
  · rcases hc.1 h1 h2 with h | h
    · exact ⟨_, h⟩
    · exact ⟨_, h⟩
  · have := hc.2 h1
    cases l <;> simp_all

/-- The fields of one profile, and the shape of its context's image. -/
def profileAt (x : Context) (pr : Profile) : Bool :=
  decide ((2 ≤ pr.q ∧ pr.q ≤ 255) ∧ (pr.d.isSome = true ↔ pr.kind = .keypad) ∧ (∀ n ∈ pr.d, 1 ≤ n ∧ n ≤ 100) ∧
    (pr.rules.isSome = true ↔ pr.kind ≠ .keypad) ∧
    (∀ rl ∈ pr.rules, ∀ t ∈ [rl.t1, rl.t2, rl.t3], (∀ b ∈ t.start, b.toNat ≤ 127) ∧ t.ends.length ≤ 2 ∧ (∀ b ∈ t.ends, b.toNat ≤ 127) ∧
      t.count ≤ 112) ∧
    (pr.chipTimeout.isSome = true ↔ pr.kind = .readerHybrid) ∧ ∀ n ∈ pr.chipTimeout, 100 ≤ n ∧ n ≤ 60000) &&
  match x.image with
  | .blank => false
  | .keypad _ _ => decide (pr.kind = .keypad)
  | .reader _ => decide (pr.kind ≠ .keypad)

theorem profilesSound_of_check {s : State}
    (h : (∀ c : CtxId, ∀ pr ∈ (s.part.ctx c).profile, 1 ≤ pr.address ∧ pr.address ≤ 15) ∧
      (∀ c d : CtxId, c ≠ d → ∀ pc ∈ (s.part.ctx c).profile, ∀ pd ∈ (s.part.ctx d).profile, ¬ (pc.line = pd.line ∧ pc.address = pd.address)) ∧
      ∀ c : CtxId, ∀ pr ∈ (s.part.ctx c).profile, profileAt (s.part.ctx c) pr = true) : ProfilesSound s := by
  refine ⟨addressesFit_of_check h.1, fun c d pc pd hcd h1 h2 => h.2.1 c d hcd pc h1 pd h2, fun c pr hp => ?_⟩
  have hc := h.2.2 c pr hp
  simp only [profileAt, Bool.and_eq_true, decide_eq_true_eq] at hc
  obtain ⟨⟨hq, hd, hn, hr, ht, hk, hm⟩, hi⟩ := hc
  refine ⟨hq, hd, fun n hx => hn n hx, hr, fun rl hx => ht rl hx, hk, fun n hx => hm n hx, fun hkey => ?_, fun hkey => ?_⟩ <;>
    cases hz : (s.part.ctx c).image <;> simp_all

/-- The buffers, counts and queues of one context. -/
def buffersAt (x : Context) : Bool :=
  decide (x.controls.length ≤ 8 ∧ x.formHold ≤ 4 ∧ x.latchHold ≤ 4 ∧ x.powerHold ≤ 4 ∧ x.cursor ≤ 8) &&
  decide ((∀ k ∈ x.keypad, 1 ≤ k.n ∧ k.n ≤ 255 ∧ k.keys.length = (match k.reported with
      | .opened => 16
      | .masked => 7)) ∧
    (∀ e ∈ x.entry, e.min ≤ e.max ∧ e.max ≤ 32 ∧ e.ignored ≤ 255 ∧ e.block.length ≤ 16) ∧ (∀ r ∈ x.reader, r.discarded ≤ 255) ∧
    (∀ u ∈ x.capture, ∀ t ∈ u.tracks, t.buffer.length ≤ 112 ∧ (t.state ≠ .ended → t.buffer.length < 112)) ∧
    ∀ h ∈ x.chip, h.atr.length ≤ 33 ∧ h.response.length ≤ 258 ∧ h.command.length ≤ 261 ∧ h.exchanges ≤ 65535)

theorem buffersSound_of_check {s : State} (h : ∀ c : CtxId, buffersAt (s.part.ctx c) = true) : BuffersSound s := by
  intro c
  have hc := h c
  simp only [buffersAt, Bool.and_eq_true, decide_eq_true_eq] at hc
  obtain ⟨⟨h1, h2, h3, h4, h5⟩, hk, he, hr, hu, hx⟩ := hc
  exact ⟨h1, h2, h3, h4, h5, fun k hp => hk k hp, fun e hp => he e hp, fun r hp => hr r hp, fun u hp => hu u hp, fun x hp => hx x hp⟩

theorem wit_invariants : QueueBound busy ∧ FaultsSound busy ∧ LinesSound busy ∧ SecureSound busy ∧ AttachSound busy ∧ PointersSound busy ∧
    OperationsSound busy ∧ (SchedulesSound busy ∧ ServedSound busy ∧ ProfilesSound busy ∧ HoldersNamed busy ∧ BuffersSound busy) ∧
    ∃ t, step busy = .next t := by
  have hs : ∀ c : CtxId, ∀ e ∈ (busy.part.ctx c).entry, (e.kind = .secure → e.digits = []) ∧ e.digitCount ≤ e.max := by decide +kernel
  have hp : ∀ i : PosId, (∀ c ∈ (busy.part.position i).keypad, (busy.part.ctx c).kind = some .keypad) ∧
      ∀ c ∈ (busy.part.position i).reader, (busy.part.ctx c).kind = some .readerStripe ∨ (busy.part.ctx c).kind = some .readerHybrid := by
    decide +kernel
  refine ⟨by decide +kernel, ⟨fun _ c => ?_, by decide +kernel, by decide +kernel, ?_, fun c => ?_⟩, fun l => ?_, ⟨fun c e h => hs c e h, ?_, ?_⟩,
    attachSound_of_check (by decide +kernel), fun i c => ⟨fun h => (hp i).1 c h, fun h => (hp i).2 c h⟩, operationsSound_of_check (by decide +kernel),
    ⟨schedulesSound_of_check (by decide +kernel), servedSound_of_check (by decide +kernel), profilesSound_of_check (by decide +kernel),
      fun c i => ?_, buffersSound_of_check (by decide +kernel)⟩, _, rfl⟩
  · cases c <;> decide +kernel
  · decide +kernel
  · cases c <;> decide +kernel
  · cases l <;> exact lineSound_of_check (by decide +kernel)
  · decide +kernel
  · intro t r n h
    rw [show busy.part.link.tx = none from rfl] at h
    exact absurd h (by simp)
  · exact (by decide +kernel : ∀ c : CtxId, ∀ i : PosId, (busy.part.ctx c).holder = some i →
      (busy.part.position i).reader = some c ∨ (busy.part.position i).keypad = some c) c i

end Sys2Proof.Tests
end

section
/-! PROOFS. The checks of LINE SETUP in their order (R7). Each way the order can go has its equation; the obligation puts them together. -/

namespace Sys2Proof.Machine

open Sys2Proof.Safety

/-! ### The steps of a check order: one that passes goes on to the next, one that fails decides the refusal -/

section
variable {α β : Type} (code : RefusalCode) (field : Nat)

@[simp] theorem want_some_bind (a : α) (next : α → Check β) : (want (some a) code field >>= next) = next a := rfl

@[simp] theorem want_none_bind (next : α → Check β) : (want none code field >>= next) = .error (code, field) := rfl

theorem need_bind_of {c : Prop} [Decidable c] (h : c) (next : Unit → Check β) : (need c code field >>= next) = next () := by
  rw [need, if_pos h]; rfl

theorem need_bind_of_not {c : Prop} [Decidable c] (h : ¬ c) (next : Unit → Check β) :
    (need c code field >>= next) = .error (code, field) := by
  rw [need, if_neg h]; rfl

end

/-! ### The values of the fields -/

@[simp] theorem readLine_lineCode (l : LineId) : readLine (lineCode l) = some l := by cases l <;> rfl

theorem readLine_eq_none {n : Nat} (h : 1 < n) : readLine n = none := by
  unfold readLine
  split
  · omega
  · omega
  · rfl

theorem exists_lineCode {n : Nat} (h : n ≤ 1) : ∃ l, lineCode l = n := by
  obtain rfl | rfl : n = 0 ∨ n = 1 := by omega
  · exact ⟨.a, rfl⟩
  · exact ⟨.b, rfl⟩

@[simp] theorem readRate_kbps (r : BitRate) : readRate r.kbps = some r := by cases r <;> rfl

theorem exists_kbps_iff (n : Nat) : (∃ r : BitRate, r.kbps = n) ↔ n = 250 ∨ n = 500 ∨ n = 1000 ∨ n = 2000 := by
  constructor
  · rintro ⟨r, rfl⟩
    cases r <;> simp [BitRate.kbps]
  · rintro (rfl | rfl | rfl | rfl)
    · exact ⟨.r250, rfl⟩
    · exact ⟨.r500, rfl⟩
    · exact ⟨.r1000, rfl⟩
    · exact ⟨.r2000, rfl⟩

theorem readRate_eq_none {n : Nat} (h : ¬ ∃ r : BitRate, r.kbps = n) : readRate n = none := by
  unfold readRate
  split
  case h_5 => rfl
  all_goals exact absurd ((exists_kbps_iff _).mpr (by decide)) h

/-! ### The order of LINE SETUP (R7) -/

section
variable (p : Part) (l : LineId) (r : BitRate) {line rate slots : Nat}

theorem Part.checkLineSetup_line (h : 1 < line) : p.checkLineSetup line rate slots = .error (.badField, 1) := by
  rw [Part.checkLineSetup, readLine_eq_none h, want_none_bind]

theorem Part.checkLineSetup_rate (h : ¬ ∃ r : BitRate, r.kbps = rate) :
    p.checkLineSetup (lineCode l) rate slots = .error (.badField, 2) := by
  rw [Part.checkLineSetup, readLine_lineCode, want_some_bind, readRate_eq_none h, want_none_bind]

/-- With a line and a rate in range, S and then the line's state are left to check. -/
theorem Part.checkLineSetup_codes : p.checkLineSetup (lineCode l) r.kbps slots =
    (need (2 ≤ slots ∧ slots ≤ 16) .badField 3 >>= fun _ => need ((p.line l).state = .idle) .wrongState >>= fun _ => pure (l, r)) := by
  rw [Part.checkLineSetup, readLine_lineCode, want_some_bind, readRate_kbps, want_some_bind]

theorem Part.checkLineSetup_slots (h : ¬ (2 ≤ slots ∧ slots ≤ 16)) :
    p.checkLineSetup (lineCode l) r.kbps slots = .error (.badField, 3) := by
  rw [Part.checkLineSetup_codes, need_bind_of_not _ _ h]

theorem Part.checkLineSetup_state (h : 2 ≤ slots ∧ slots ≤ 16) (hi : (p.line l).state ≠ .idle) :
    p.checkLineSetup (lineCode l) r.kbps slots = .error (.wrongState, 0) := by
  rw [Part.checkLineSetup_codes, need_bind_of _ _ h, need_bind_of_not _ _ hi]

theorem Part.checkLineSetup_ok (h : 2 ≤ slots ∧ slots ≤ 16) (hi : (p.line l).state = .idle) :
    p.checkLineSetup (lineCode l) r.kbps slots = .ok (l, r) := by
  rw [Part.checkLineSetup_codes, need_bind_of _ _ h, need_bind_of _ _ hi]; rfl

end

/-! ### The answer -/

section
variable {s : State} (hs : Ready s) (tag : Byte) {line rate slots : Nat} (pmin : Nat)
include hs

/-- A failed check is the refusal, and the part is as it was. -/
theorem exec_lineSetup_refused {code : RefusalCode} {field : Nat} (h : s.part.checkLineSetup line rate slots = .error (code, field)) :
    exec (.lineSetup tag line rate slots pmin) s = .next (Replied s s.part tag 0x12 (.refused code field)) :=
  exec_of_serve hs tag (.lineSetup line rate slots pmin) nofun (by rw [serve, serveLineSetup, h, judge_error])

theorem exec_lineSetup_accepted {x : LineId × BitRate} (h : s.part.checkLineSetup line rate slots = .ok x) :
    ∃ p items, exec (.lineSetup tag line rate slots pmin) s = .next (Replied s p tag 0x12 (.accepted items)) :=
  ⟨_, _, exec_of_serve hs tag (.lineSetup line rate slots pmin) nofun (by rw [serve, serveLineSetup, h, judge_ok])⟩

end

/-- Settles O22: the fields are checked in the order line, R, S, then the line's state. -/
theorem lineSetupChecks : Obligations.LineSetupChecks := by
  unfold Obligations.LineSetupChecks
  intro s tag line rate slots pmin hs
  simp only [← exists_kbps_iff]
  refine ⟨fun hline => ?badLine, fun ⟨hline, hrate⟩ => ?badRate, fun ⟨hline, hrate, hslots⟩ => ?badSlots, fun l hl ⟨hrate, hslots⟩ => ?inRange⟩
  case badLine => exact exec_lineSetup_refused hs tag pmin (s.part.checkLineSetup_line hline)
  case badRate =>
    obtain ⟨l, rfl⟩ := exists_lineCode hline
    exact exec_lineSetup_refused hs tag pmin (s.part.checkLineSetup_rate l hrate)
  case badSlots =>
    obtain ⟨l, rfl⟩ := exists_lineCode hline
    obtain ⟨r, rfl⟩ := hrate
    exact exec_lineSetup_refused hs tag pmin (s.part.checkLineSetup_slots l r hslots)
  case inRange =>
    subst hl
    obtain ⟨r, rfl⟩ := hrate
    exact ⟨fun hstate => exec_lineSetup_refused hs tag pmin (s.part.checkLineSetup_state l r hslots hstate),
      fun hidle => exec_lineSetup_accepted hs tag pmin (s.part.checkLineSetup_ok l r hslots hidle)⟩

end Sys2Proof.Machine
end

section
/-! PROOFS. The keys an entry in COLLECTING takes (R88 to R91): the record each key stores, and BACK for each kind of entry. The obligation
puts them together: an accepted key changes no more than the digits, the count and the two key timers, an ignored one no more than its count. -/

namespace Sys2Proof.Machine

open Sys2Proof.Safety

/-! ### The parts of a press: the line of the keypad, the timer started, the saturating count, the record stored -/

theorem Part.lineOf_eq {p : Part} {c : CtxId} {l : LineId} (h : (p.ctx c).lineId = some l) : p.lineOf c = p.line l := by
  rw [Part.lineOf, h]

theorem Line.startTimer_eq (x : Line) (ms : Nat) : x.startTimer ms = timerFrames x ms := rfl

theorem satInc8_eq_min (n : Nat) : satInc8 n = min 255 (n + 1) := by
  rw [satInc8, Config.maxSmall]
  split <;> omega

theorem Context.setEntry_eq {x : Context} {kp : Keypad} (h : x.keypad = some kp) (o : Option Entry) :
    x.setEntry o = { x with keypad := some { kp with entry := o } } := by
  rw [Context.setEntry, Context.modKeypad, h, Option.map_some]

theorem Part.modCtx_setEntry {p : Part} {c : CtxId} {kp : Keypad} (h : (p.ctx c).keypad = some kp) (o : Option Entry) :
    (p.modCtx c fun x => x.setEntry o) = p.setCtx c { p.ctx c with keypad := some { kp with entry := o } } := by
  rw [Part.modCtx, Context.setEntry_eq h]

/-! ### The record a press stores, by key -/

section
variable (p : Part) (c : CtxId) (e : Entry)

theorem Part.takePress_digitKey {n : Fin 16} (h : n.val < 10) :
    p.takePress c e (.key n) = p.modCtx c fun x => x.setEntry (some (e.takeDigit (p.lineOf c) n.val)) :=
  if_pos h

theorem Part.takePress_masked : p.takePress c e .digit = p.modCtx c fun x => x.setEntry (some (e.takeMasked (p.lineOf c))) := rfl

theorem Part.takePress_back : p.takePress c e (.key 12) = p.modCtx c fun x => x.setEntry (some (e.takeBack (p.lineOf c))) := rfl

theorem Part.takePress_clear : p.takePress c e (.key 11) = p.modCtx c fun x => x.setEntry (some (e.takeClear (p.lineOf c))) := rfl

end

/-! ### BACK for each kind of entry (R89) -/

section
variable (e : Entry) (line : Line)

theorem Entry.takeBack_opened (h : e.kind = .opened) :
    e.takeBack line = if e.digits = [] then e.ignore else { e with digits := e.digits.dropLast }.accept line := by
  simp only [Entry.takeBack, Entry.digitCount, h, List.length_eq_zero_iff]

theorem Entry.takeBack_secure (h : e.kind = .secure) :
    e.takeBack line = if e.count = 0 then e.ignore else { e with count := e.count - 1 }.accept line := by
  simp only [Entry.takeBack, Entry.digitCount, h]

end

/-- Settles O36: each key stores one record, and that record is the accepted or the ignored form of the entry. -/
theorem keysInCollecting : Obligations.KeysInCollecting := by
  unfold Obligations.KeysInCollecting
  intro p c kp e l hkeypad hline put took ignored
  have stored (e' : Entry) : (p.modCtx c fun x => x.setEntry (some e')) = put e' := Part.modCtx_setEntry hkeypad _
  have accepted (ds : List Nat) (n : Nat) : Entry.accept { e with digits := ds, count := n } (p.line l) =
      took { e with digits := ds, count := n } := by
    rw [Entry.accept, Line.startTimer_eq]
  have notTaken : e.ignore = ignored := by rw [Entry.ignore, satInc8_eq_min]
  refine ⟨fun n hn => ?digitKey, ?masked, ?back, ?clear⟩
  case digitKey =>
    rw [Part.takePress_digitKey p c e hn, stored, Part.lineOf_eq hline, Entry.takeDigit, accepted, notTaken]
  case masked =>
    rw [Part.takePress_masked, stored, Part.lineOf_eq hline, Entry.takeMasked, accepted, notTaken]
  case back =>
    rw [Part.takePress_back, stored, Part.lineOf_eq hline]
    split
    case h_1 hopened => rw [Entry.takeBack_opened e _ hopened, accepted, notTaken]
    case h_2 hsecure => rw [Entry.takeBack_secure e _ hsecure, accepted, notTaken]
  case clear =>
    rw [Part.takePress_clear, stored, Part.lineOf_eq hline, Entry.takeClear, accepted]

end Sys2Proof.Machine
end

section
/-! PROOFS. What a step runs, and the resets (R161, R162, R168): every command is an effect on the part, the values a reset gives to every block,
and the conditions of every state in the state right after reset. -/

namespace Sys2Proof.Machine

open Sys2Proof.Safety

/-! ### The effect of a command -/

/-- Settles O1, by the two cases of the command queue. -/
theorem stepRunsTheFrontCommand : Obligations.StepRunsTheFrontCommand := by
  unfold Obligations.StepRunsTheFrontCommand
  exact ⟨fun s c rest h => by rw [step, h], fun s h => by rw [step, h]⟩

/-- What a command makes of the part: a request's message arrives, or an event is taken. -/
inductive PartStep : Part → Part → Prop
  | idle (p : Part) : PartStep p p
  | request (p : Part) (tag : Byte) (r : Request) : PartStep p (p.receive (requestMessage r tag))
  | bytes (p : Part) (bs : List Byte) : PartStep p (bs.foldl Part.takeByte p)
  | gap (p : Part) : PartStep p p.gapTimeout
  | sendStart (p : Part) : PartStep p p.sendStart
  | sent (p : Part) (pins : StrapPins) : PartStep p (p.messageSent pins)
  | restart (p : Part) (pins : StrapPins) : PartStep p (p.restartTimeout pins)
  | cts (p : Part) (level : CtsLevel) : PartStep p (p.modLink fun k => k.changeCts level)
  | powerUp (p : Part) (cause : ResetCause) (pins : StrapPins) : PartStep p (p.powerUp cause pins)
  | release (p : Part) (pins : StrapPins) : PartStep p (p.resetRelease pins)
  | startup (p : Part) : PartStep p p.startupEnd
  | mark (p : Part) (l : LineId) (first : List Expiry) (order : MarkOrder) : PartStep p (p.frameMark l first order)
  | slotStart (p : Part) (l : LineId) (i : Nat) : PartStep p (p.slotStart l i)
  | slotEnd (p : Part) (l : LineId) (i : Nat) (up : Upstream) : PartStep p (p.slotCompletion l i up)
  | expiry (p : Part) (x : Expiry) : PartStep p (p.expire x)
  | frameEnd (p : Part) (l : LineId) : PartStep p (p.stoppedFrameEnd l)
  | trip (p : Part) (l : LineId) : PartStep p (p.driverTrip l)
  | cleared (p : Part) (l : LineId) : PartStep p (p.modLine l fun x => { x with driverTripped := false })

/-- Every command is such an effect, on the part alone. -/
theorem exec_partStep (i : Instr) (s : State) : ∃ p, exec i s = .next { s with part := p } ∧ PartStep s.part p := by
  cases i
  case linkMessageReceived bs => exact ⟨_, rfl, .bytes _ bs⟩
  case linkGapTimeout => exact ⟨_, rfl, .gap _⟩
  case messageSendStart => exact ⟨_, rfl, .sendStart _⟩
  case messageSent pins => exact ⟨_, rfl, .sent _ pins⟩
  case restartTimeout pins => exact ⟨_, rfl, .restart _ pins⟩
  case ctsChange level => exact ⟨_, rfl, .cts _ level⟩
  case powerUpReset cause pins => exact ⟨_, rfl, .powerUp _ cause pins⟩
  case resetRelease pins => exact ⟨_, rfl, .release _ pins⟩
  case startupWaitEnd => exact ⟨_, rfl, .startup _⟩
  case frameMark l first order => exact ⟨_, rfl, .mark _ l first order⟩
  case slotStart l i => exact ⟨_, rfl, .slotStart _ l i⟩
  case slotCompletion l i up => exact ⟨_, rfl, .slotEnd _ l i up⟩
  case entryTimerExpiry c t => exact ⟨_, rfl, .expiry _ (.entry c t)⟩
  case armTimerExpiry c => exact ⟨_, rfl, .expiry _ (.arm c)⟩
  case captureLimitExpiry c => exact ⟨_, rfl, .expiry _ (.captureLimit c)⟩
  case atrWaitExpiry c => exact ⟨_, rfl, .expiry _ (.atrWait c)⟩
  case responseTimeout c => exact ⟨_, rfl, .expiry _ (.response c)⟩
  case stoppedFrameEnd l => exact ⟨_, rfl, .frameEnd _ l⟩
  case driverTrip l => exact ⟨_, rfl, .trip _ l⟩
  case driverFaultInputCleared l => exact ⟨_, rfl, .cleared _ l⟩
  all_goals exact ⟨_, rfl, .request _ _ _⟩

/-- Settles O2: each command is an effect on the part. -/
theorem everyCommandCompletes : Obligations.EveryCommandCompletes := by
  unfold Obligations.EveryCommandCompletes
  intro i s
  obtain ⟨p, h, -⟩ := exec_partStep i s
  exact ⟨p, h⟩

/-- What a step can make of the part. -/
theorem partStep_of_step {s t : State} (h : step s = .next t) : PartStep s.part t.part := by
  rw [step] at h
  split at h
  · cases h
    exact .idle _
  · rename_i c rest _
    obtain ⟨p, he, hp⟩ := exec_partStep c { s with pending := rest }
    rw [he] at h
    cases h
    exact hp

/-! ### The pins -/

/-- Settles O13, pin by pin. -/
theorem pinLevels : Obligations.PinLevels := by
  unfold Obligations.PinLevels
  intro s
  refine ⟨rfl, fun n => ?_, rfl, rfl⟩
  have h : (s.part.link.straps.flow && s.part.link.cts) = decide (s.part.link.straps.flow = true ∧ s.part.link.cts = true) := by
    simp
  simp only [exec, execCtsChange, effect_eq, State.onPart, Part.modLink, Part.setLink, Link.changeCts, h, decide_eq_true_eq]
  rfl

/-! ### Resets -/

section
variable (p : Part) (phase : Phase) (kind : ResetKind) (pins : StrapPins) (faults : FaultRecord)

@[simp] theorem Part.ctx_reset (c : CtxId) : (p.reset phase kind pins faults).ctx c = .free := by
  simp [Part.ctx, Part.reset, Vector.get]

@[simp] theorem Part.position_reset (i : PosId) : (p.reset phase kind pins faults).position i = { reader := none, keypad := none } := by
  simp [Part.position, Part.reset, Vector.get]

@[simp] theorem Part.line_reset (l : LineId) :
    (p.reset phase kind pins faults).line l = (p.line l).afterReset (strapSettings pins).lineRate := by
  cases l <;> rfl

/-- A reset gives every block but the Fault Record the values of the tables (R1, R22, R30, R39, R59, R135, R153, R161). -/
theorem resetValues_reset : ResetValues pins p (p.reset phase kind pins faults) := by
  refine ⟨fun l => ?_, fun c => Part.ctx_reset .., fun i => Part.position_reset .., rfl, rfl, rfl, rfl, rfl, rfl, rfl, rfl, rfl, rfl, ?_, rfl, ?_⟩
  · rw [Part.line_reset]
    cases h : pins.strap2 <;> simp [Line.afterReset, Line.afterPowerUp, LoopTester.fresh, strapSettings, h, framePeriod, BitRate.kbps,
      List.replicate]
  · obtain ⟨strap0, -, -⟩ := pins
    match strap0 with
    | 0 | 1 | 2 | 3 => rfl
  · simp only [Part.reset, Link.afterReset, strapSettings]

end

/-- The Fault Record of a power-up (R146). -/
theorem powerUpFaults_fresh : PowerUpFaults .fresh := ⟨rfl, rfl, rfl, fun c => by cases c <;> rfl⟩

/-- Settles O3: the state right after reset is the reset of itself. -/
theorem resetState : Obligations.ResetState := by
  unfold Obligations.ResetState
  refine ⟨?_, powerUpFaults_fresh, rfl, rfl, fun l => by cases l <;> rfl, rfl, rfl⟩
  exact resetValues_reset .afterPowerUp .startup .power _ .fresh

/-- Settles O4: the power-up, the release of RESET# and the end of the start-up wait in turn. -/
theorem resetsTakeTheTableValues : Obligations.ResetsTakeTheTableValues := by
  unfold Obligations.ResetsTakeTheTableValues
  refine ⟨fun s cause pins => ?powerUp, fun s pins => ⟨fun h => ?released, fun h => ?otherPhase⟩, fun s h => ?startupEnd⟩
  case powerUp =>
    refine ⟨_, rfl, resetValues_reset .., powerUpFaults_fresh, rfl, ?_⟩
    cases cause
    · by_cases h : s.part.link.phase = .held <;> simp [Part.powerUp, Part.reset, Link.afterReset, Link.afterPower, h]
    · rfl
  case released =>
    refine ⟨s.part.reset .startup .power pins s.part.faults, ?_, resetValues_reset .., rfl, rfl, rfl⟩
    simp [exec, execResetRelease, Part.resetRelease, h, State.onPart]
  case otherPhase => simp [exec, execResetRelease, Part.resetRelease, h, State.onPart]
  case startupEnd =>
    refine ⟨s.part.startupEnd, rfl, ?_, fun l => ?_, fun c => ?_, fun i => ?_, ?_⟩
    all_goals simp only [Part.startupEnd, h, if_true, Part.link_offer, Part.line_offer, Part.ctx_offer, Part.position_offer, Part.line_modLink,
      Part.ctx_modLink, Part.position_modLink]
    · simp [Part.modLink, Part.setLink, Link.refreshRts, Link.rtsLevel]
    · exact Part.offerAll_congr [_] rfl rfl

/-- Settles O5: the acceptance, and its effect at either of its two ends. -/
theorem restartInTwoSteps : Obligations.RestartInTwoSteps := by
  unfold Obligations.RestartInTwoSteps
  refine ⟨fun s tag hphase hno hfree => ?accepted, fun s pins hyes => ?takesEffect⟩
  case accepted =>
    simp [exec, execRestart, arrive, State.onPart, Part.receive, Link.listening, hphase, hno, hfree, requestMessage, Part.take,
      Part.judgeMessage, serve, serveRestart, Part.setLink, Part.modLink, Link.refreshRts, Link.rtsLevel, requestKind]
  case takesEffect =>
    refine ⟨s.part.restart pins, resetValues_reset .., rfl, rfl, rfl, ?_, fun r t htx hreply hmay => ?_⟩
    · simp [exec, execRestartTimeout, Part.restartTimeout, hyes, State.onPart]
    · have hholds : s.part.link.holds t = false := by
        cases hflow : s.part.link.straps.flow
        · simp [Link.holds, hflow]
        · rcases hmay t htx hflow with h | h <;> simp [Link.holds, h]
      simp [exec, execMessageSent, Part.messageSent, htx, hholds, hreply, hyes, State.onPart]

/-! ### The state right after reset -/

/-- Settles O60, block by block. -/
theorem resetIsSound : Obligations.ResetIsSound := by
  unfold Obligations.ResetIsSound
  have ctx (c : CtxId) : State.reset.part.ctx c = .free := by simp [State.reset, Part.afterPowerUp, Part.ctx, Vector.get]
  have line (l : LineId) : State.reset.part.line l = .afterPowerUp := by cases l <;> rfl
  have position (i : PosId) : State.reset.part.position i = { reader := none, keypad := none } := by
    simp [State.reset, Part.afterPowerUp, Part.position, Vector.get]
  have queue : State.reset.part.queue = .fresh := rfl
  have link : State.reset.part.link.tx = none := rfl
  refine ⟨⟨by decide, ?faults, fun c => ?buffers⟩, ⟨fun l => ?lines, fun l c h => ?schedules, fun c => ?served⟩, ?secure,
    ⟨fun c => ?attach, fun i c => ?pointers, ?profiles, fun c i h => ?holders⟩, fun c => ?operations, fun l => ?tests⟩
  case faults =>
    refine ⟨fun _ c => ?_, rfl, by decide, by simp [State.reset, Part.afterPowerUp, FaultRecord.fresh], fun c => ?_⟩
    all_goals cases c <;> decide
  case buffers => simp [ctx, Context.free, Context.entry, Context.capture]
  case lines => rw [line]; unfold LineSound; simp [Line.afterPowerUp, BitRate.kbps]
  case schedules => simp [line, Line.afterPowerUp] at h
  case served => simp [ctx, Context.free]
  case secure => simp [SecureSound, ctx, queue, link, Context.free, Context.entry, EventQueue.fresh]
  case attach => simp [ctx, Context.free, Context.kind]
  case pointers => simp [position]
  case profiles => simp [ProfilesSound, AddressesFit, ctx, Context.free]
  case holders => simp [ctx, Context.free] at h
  case operations => simp [ctx, queue, Context.free, Context.entry, Context.capture, Context.session, EventQueue.fresh]
  case tests => simp [line, queue, EventQueue.fresh, Line.afterPowerUp, LoopTester.fresh]

end Sys2Proof.Machine
end

section
/-! PROOFS. What serving can do: an ending of an operation, a unit, a timer or a request that starts or ends an operation changes a context
within its sizes (R14, R30, R72, R82, R104, R118), keeps its profile, leaves PARKED and FREE contexts so, and touches no schedule and no position.
`Serves` says this of two parts; it holds of nothing, and of one change after another. -/

namespace Sys2Proof.Machine

open Sys2Proof.Safety

/-! ### Sizes and digits of one context -/

def EntryBuf (e : Entry) : Prop := e.min ≤ e.max ∧ e.max ≤ 32 ∧ e.ignored ≤ 255 ∧ e.block.length ≤ 16

/-- No digit value of a SECURE entry, and a digit count within max (R82, R88). -/
def EntrySecure (e : Entry) : Prop := (e.kind = .secure → e.digits = []) ∧ e.digitCount ≤ e.max

def KeypadBuf (k : Keypad) : Prop :=
  1 ≤ k.n ∧ k.n ≤ 255 ∧ k.keys.length = k.reported.keyCount ∧ ∀ e, k.entry = some e → EntryBuf e

def KeypadSecure (k : Keypad) : Prop := ∀ e, k.entry = some e → EntrySecure e

def TrackBuf (t : TrackRec) : Prop := t.buffer.length ≤ 112 ∧ (t.state ≠ .ended → t.buffer.length < 112)

def CaptureBuf (u : Capture) : Prop := ∀ t ∈ u.tracks, TrackBuf t

def ReaderBuf (r : Reader) : Prop := r.discarded ≤ 255 ∧ ∀ u, r.capture = some u → CaptureBuf u

def ChipBuf (h : Chip) : Prop :=
  h.atr.length ≤ 33 ∧ h.response.length ≤ 258 ∧ h.command.length ≤ 261 ∧ h.exchanges ≤ 65535

def ServiceBuf (x : Context) : Prop :=
  x.controls.length ≤ 8 ∧ x.formHold ≤ 4 ∧ x.latchHold ≤ 4 ∧ x.powerHold ≤ 4 ∧ x.cursor ≤ 8

/-- The sizes of a context, block by block. -/
def CtxBuf (x : Context) : Prop :=
  ServiceBuf x ∧ (∀ k, x.keypad = some k → KeypadBuf k) ∧ (∀ r, x.reader = some r → ReaderBuf r) ∧ ∀ h, x.chip = some h → ChipBuf h

def CtxSecure (x : Context) : Prop := ∀ k, x.keypad = some k → KeypadSecure k

/-- What is kept of a keypad: its sizes, and that no digit of a PIN is held. -/
structure KeypadKept (k k' : Keypad) : Prop where
  buf    : KeypadBuf k → KeypadBuf k'
  secure : KeypadSecure k → KeypadSecure k'

/-- What is kept of a reader, and of a chip session: its sizes. -/
def ReaderKept (r r' : Reader) : Prop := ReaderBuf r → ReaderBuf r'

def ChipKept (h h' : Chip) : Prop := ChipBuf h → ChipBuf h'

theorem ReaderKept.refl (r : Reader) : ReaderKept r r := id

theorem ReaderKept.trans {r r' r'' : Reader} (h : ReaderKept r r') (g : ReaderKept r' r'') : ReaderKept r r'' := g ∘ h

theorem ChipKept.refl (h : Chip) : ChipKept h h := id

theorem ChipKept.trans {h h' h'' : Chip} (f : ChipKept h h') (g : ChipKept h' h'') : ChipKept h h'' := g ∘ f

structure EntryKept (e e' : Entry) : Prop where
  buf    : EntryBuf e → EntryBuf e'
  secure : EntrySecure e → EntrySecure e'

theorem KeypadKept.refl (k : Keypad) : KeypadKept k k := ⟨id, id⟩

theorem KeypadKept.trans {k k' k'' : Keypad} (h : KeypadKept k k') (g : KeypadKept k' k'') : KeypadKept k k'' :=
  ⟨g.buf ∘ h.buf, g.secure ∘ h.secure⟩

theorem EntryKept.refl (e : Entry) : EntryKept e e := ⟨id, id⟩

/-- The entry of a keypad gives way to one that keeps its sizes. -/
theorem KeypadKept.withEntry {k : Keypad} {e e' : Entry} (h : k.entry = some e) (he : EntryKept e e') :
    KeypadKept k { k with entry := some e' } where
  buf := by
    rintro ⟨h1, h2, h3, h4⟩
    refine ⟨h1, h2, h3, fun x hx => ?_⟩
    obtain rfl : e' = x := by simpa using hx
    exact he.buf (h4 e h)
  secure := by
    intro hk x hx
    obtain rfl : e' = x := by simpa using hx
    exact he.secure (hk e h)

theorem KeypadKept.noEntry (k : Keypad) (f : ScanForm) : KeypadKept k { k with wanted := f, entry := none } where
  buf := fun ⟨h1, h2, h3, _⟩ => ⟨h1, h2, h3, fun _ h => absurd h (by simp)⟩
  secure := fun _ _ h => absurd h (by simp)

/-! ### Options related place by place -/

section
variable {α : Type} {R : α → α → Prop}

theorem optRel_refl (h : ∀ a, R a a) (o : Option α) : Option.Rel R o o := by
  cases o
  · exact .none
  · exact .some (h _)

theorem optRel_trans (h : ∀ a b c, R a b → R b c → R a c) {o1 o2 o3 : Option α} (h1 : Option.Rel R o1 o2) (h2 : Option.Rel R o2 o3) :
    Option.Rel R o1 o3 := by
  cases h1 <;> cases h2
  · exact .some (h _ _ _ ‹_› ‹_›)
  · exact .none

theorem optRel_map {f : α → α} {o : Option α} (h : ∀ a, o = some a → R a (f a)) : Option.Rel R o (o.map f) := by
  cases o
  · exact .none
  · exact .some (h _ rfl)

theorem isSome_of_optRel {o o' : Option α} (h : Option.Rel R o o') : o'.isSome = o.isSome := by cases h <;> rfl

theorem optRel_to {o o' : Option α} (h : Option.Rel R o o') {a' : α} (ha : o' = some a') : ∃ a, o = some a ∧ R a a' := by
  subst ha
  cases h
  exact ⟨_, rfl, ‹_›⟩

end

/-! ### One context -/

/-- Images of one shape (R59). -/
def SameShape : Image → Image → Prop
  | .blank, .blank => True
  | .keypad _ _, .keypad _ _ => True
  | .reader _, .reader _ => True
  | _, _ => False

theorem SameShape.refl (i : Image) : SameShape i i := by cases i <;> trivial

theorem SameShape.trans : ∀ {i j k : Image}, SameShape i j → SameShape j k → SameShape i k
  | .blank, .blank, _, _, g => g
  | .keypad .., .keypad .., .keypad .., _, _ => trivial
  | .reader _, .reader _, .reader _, _, _ => trivial

/-- What serving keeps of a context. -/
structure CtxServes (x y : Context) : Prop where
  profile : y.profile = x.profile
  parked  : y.attach = .parked ↔ x.attach = .parked
  free    : y.attach = .free ↔ x.attach = .free
  shape   : SameShape x.image y.image
  service : ServiceBuf x → ServiceBuf y
  keypad  : Option.Rel KeypadKept x.keypad y.keypad
  reader  : Option.Rel ReaderKept x.reader y.reader
  chip    : Option.Rel ChipKept x.chip y.chip

theorem CtxServes.refl (x : Context) : CtxServes x x :=
  ⟨rfl, Iff.rfl, Iff.rfl, .refl _, id, optRel_refl .refl _, optRel_refl .refl _, optRel_refl .refl _⟩

theorem CtxServes.trans {x y z : Context} (h : CtxServes x y) (g : CtxServes y z) : CtxServes x z where
  profile := g.profile.trans h.profile
  parked := g.parked.trans h.parked
  free := g.free.trans h.free
  shape := h.shape.trans g.shape
  service := g.service ∘ h.service
  keypad := optRel_trans (R := KeypadKept) (fun _ _ _ => KeypadKept.trans) h.keypad g.keypad
  reader := optRel_trans (R := ReaderKept) (fun _ _ _ => ReaderKept.trans) h.reader g.reader
  chip := optRel_trans (R := ChipKept) (fun _ _ _ => ChipKept.trans) h.chip g.chip

theorem CtxServes.buf {x y : Context} (h : CtxServes x y) : CtxBuf x → CtxBuf y := by
  rintro ⟨hs, hk, hr, hc⟩
  refine ⟨h.service hs, fun k' hk' => ?_, fun r' hr' => ?_, fun c' hc' => ?_⟩
  · obtain ⟨k, hx, hkk⟩ := optRel_to h.keypad hk'
    exact hkk.buf (hk k hx)
  · obtain ⟨r, hx, hrr⟩ := optRel_to h.reader hr'
    exact hrr (hr r hx)
  · obtain ⟨c, hx, hcc⟩ := optRel_to h.chip hc'
    exact hcc (hc c hx)

theorem CtxServes.secure {x y : Context} (h : CtxServes x y) : CtxSecure x → CtxSecure y := by
  intro hk k' hk'
  obtain ⟨k, hx, hkk⟩ := optRel_to h.keypad hk'
  exact hkk.secure (hk k hx)

/-- A change of a context that spares profile, attachment, image and working state, and keeps the Slot Service's sizes. -/
theorem CtxServes.of_service {x y : Context} (hp : y.profile = x.profile) (ha : y.attach = x.attach) (hi : y.image = x.image)
    (hk : y.keypad = x.keypad) (hr : y.reader = x.reader) (hc : y.chip = x.chip) (hs : ServiceBuf x → ServiceBuf y) : CtxServes x y :=
  ⟨hp, by rw [ha], by rw [ha], hi ▸ .refl _, hs, hk ▸ optRel_refl .refl _, hr ▸ optRel_refl .refl _,
    hc ▸ optRel_refl .refl _⟩

theorem CtxServes.modKeypad {x : Context} {f : Keypad → Keypad} (h : ∀ k, x.keypad = some k → KeypadKept k (f k)) :
    CtxServes x (x.modKeypad f) :=
  ⟨rfl, Iff.rfl, Iff.rfl, .refl _, id, optRel_map h, optRel_refl .refl _, optRel_refl .refl _⟩

theorem CtxServes.modReader {x : Context} {f : Reader → Reader} (h : ∀ r, x.reader = some r → ReaderKept r (f r)) :
    CtxServes x (x.modReader f) :=
  ⟨rfl, Iff.rfl, Iff.rfl, .refl _, id, optRel_refl .refl _, optRel_map h, optRel_refl .refl _⟩

theorem CtxServes.modChip {x : Context} {f : Chip → Chip} (h : ∀ c, x.chip = some c → ChipKept c (f c)) :
    CtxServes x (x.modChip f) :=
  ⟨rfl, Iff.rfl, Iff.rfl, .refl _, id, optRel_refl .refl _, optRel_refl (fun _ => id) _, optRel_map h⟩

theorem Context.entry_eq {x : Context} {k : Keypad} (h : x.keypad = some k) : x.entry = k.entry := by simp [Context.entry, h]

theorem Context.capture_eq {x : Context} {r : Reader} (h : x.reader = some r) : x.capture = r.capture := by simp [Context.capture, h]

theorem Context.session_eq {x : Context} {h : Chip} (hc : x.chip = some h) : x.session = h.session := by simp [Context.session, hc]

theorem CtxServes.setEntry {x : Context} {e e' : Entry} (h : x.entry = some e) (he : EntryKept e e') : CtxServes x (x.setEntry (some e')) :=
  .modKeypad fun _ hk => .withEntry (by rw [← Context.entry_eq hk, h]) he

/-! ### The Fault Record and the queue -/

/-- The conditions of the Fault Record (R146, R148, R149, R151). -/
def FaultsOk (f : FaultRecord) : Prop :=
  (f.first = none → ∀ c : FaultClass, (f.classes.get c.index).later = false) ∧
  (f.classes.get FaultClass.lineDrive.index).detect = true ∧ f.log.length ≤ 10 ∧ (∀ e ∈ f.log, 1 ≤ e.repeats ∧ e.repeats ≤ 255) ∧
  ∀ c : FaultClass, (f.classes.get c.index).count ≤ 65535

theorem ite_of_iff {α : Type} {P Q : Prop} [Decidable P] [Decidable Q] {x y : α} (h : P ↔ Q) :
    (if P then x else y) = if Q then x else y :=
  ite_congr (propext h) (fun _ => rfl) fun _ => rfl

theorem beq_eq_decide_eq {α : Type} [BEq α] [LawfulBEq α] [DecidableEq α] (a b : α) : (a == b) = decide (a = b) := by
  rw [Bool.eq_iff_iff, beq_iff_eq, decide_eq_true_iff]

theorem vector_get_eq {α : Type} {n : Nat} (v : Vector α n) (i : Fin n) : v.get i = v[i.val] := rfl

theorem vector_get_set {α : Type} {n : Nat} (v : Vector α n) (i j : Fin n) (a : α) :
    (v.set i.val a i.isLt).get j = if j = i then a else v.get j := by
  by_cases h : j = i
  · subst h
    rw [vector_get_eq, Vector.getElem_set_self, if_pos rfl]
  · have : i.val ≠ j.val := fun e => h (Fin.ext e.symm)
    rw [vector_get_eq, Vector.getElem_set_ne _ _ this, if_neg h, vector_get_eq]

theorem FaultClass.index_inj {c d : FaultClass} : c.index = d.index ↔ c = d := by
  cases c <;> cases d <;> decide

theorem satInc_le (n : Nat) : satInc n ≤ 65535 := by unfold satInc; split <;> simp only [Config.maxCount] at * <;> omega

theorem satInc8_le (n : Nat) : satInc8 n ≤ 255 := by unfold satInc8; split <;> simp only [Config.maxSmall] at * <;> omega

/-- The log keeps at most ten entries of 1 to 255 repeats (R149). -/
theorem logTake_ok (style : LogStyle) {log : List LogEntry} (d : Detection) (hl : log.length ≤ 10)
    (hr : ∀ e ∈ log, 1 ≤ e.repeats ∧ e.repeats ≤ 255) :
    (logTake style log d).length ≤ 10 ∧ ∀ e ∈ logTake style log d, 1 ≤ e.repeats ∧ e.repeats ≤ 255 := by
  have new : (1 : Nat) ≤ 1 ∧ (1 : Nat) ≤ 255 := by decide
  have repeated (newest : LogEntry) : 1 ≤ newest.repeated.repeats ∧ newest.repeated.repeats ≤ 255 :=
    ⟨by simp only [LogEntry.repeated, satInc8]; split <;> simp [Config.maxSmall], satInc8_le _⟩
  have appended {l : List LogEntry} (hl : ∀ e ∈ l, e ∈ log) {x : LogEntry} (hx : 1 ≤ x.repeats ∧ x.repeats ≤ 255) :
      ∀ e ∈ l ++ [x], 1 ≤ e.repeats ∧ e.repeats ≤ 255 := by
    intro e he
    rcases List.mem_append.mp he with h | h
    · exact hr e (hl e h)
    · rw [List.mem_singleton.mp h]
      exact hx
  unfold logTake
  split
  · exact ⟨hl, hr⟩
  · split
    · rename_i newest hlast
      have hpos : log ≠ [] := fun h => by simp [h] at hlast
      split
      · refine ⟨?_, appended (fun e he => List.dropLast_subset _ he) (repeated newest)⟩
        have := List.length_pos_iff.mpr hpos
        simp only [List.length_append, List.length_dropLast, List.length_singleton]
        omega
      · split
        · rename_i hlt
          refine ⟨?_, appended (fun e he => he) new⟩
          simp only [Config.logSize] at hlt
          simp only [List.length_append, List.length_singleton]
          omega
        · split
          · refine ⟨?_, appended (fun e he => List.drop_subset _ _ he) new⟩
            have := List.length_pos_iff.mpr hpos
            simp only [List.length_append, List.length_drop, List.length_singleton]
            omega
          · exact ⟨hl, hr⟩
    · exact ⟨by simp, by simp⟩

/-- A detection keeps the Fault Record sound (R148). -/
theorem FaultsOk.take {f : FaultRecord} (h : FaultsOk f) (d : Detection) : FaultsOk (f.take d).1 := by
  obtain ⟨hlater, hdrive, hlen, hrep, hcount⟩ := h
  unfold FaultRecord.take
  simp only
  split
  · obtain ⟨hlen', hrep'⟩ := logTake_ok f.style d hlen hrep
    refine ⟨fun hnone => ?_, ?_, hlen', hrep', fun c => ?_⟩
    · exfalso
      cases hf : f.first <;> simp [hf] at hnone
    · rw [vector_get_set]
      split <;> simp_all
    · rw [vector_get_set]
      split
      · exact satInc_le _
      · exact hcount c
  · exact ⟨hlater, hdrive, hlen, hrep, hcount⟩

/-- Every record queued, and the one being sent, holds no digit of a PIN (R80, R101). -/
def Hides (p : Part) : Prop :=
  (∀ r ∈ p.queue.records, hidesDigits r = true) ∧ ∀ t r n, p.link.tx = some t → t.what = .record r n → hidesDigits r = true

/-! ### Two parts -/

/-- What serving keeps of a line: its setup, its schedules, and whether it is IDLE. -/
structure LineServes (x y : Line) : Prop where
  rate     : y.rate = x.rate
  slots    : y.slots = x.slots
  pmin     : y.pmin = x.pmin
  frameLen : y.frameLen = x.frameLen
  period   : y.period = x.period
  active   : y.active = x.active
  waiting  : y.waiting = x.waiting
  idle     : y.state = .idle ↔ x.state = .idle
  stop     : x.state = .idle → y.stopPending = x.stopPending

theorem LineServes.refl (x : Line) : LineServes x x := ⟨rfl, rfl, rfl, rfl, rfl, rfl, rfl, Iff.rfl, fun _ => rfl⟩

theorem LineServes.trans {x y z : Line} (h : LineServes x y) (g : LineServes y z) : LineServes x z :=
  ⟨g.rate.trans h.rate, g.slots.trans h.slots, g.pmin.trans h.pmin, g.frameLen.trans h.frameLen, g.period.trans h.period,
    g.active.trans h.active, g.waiting.trans h.waiting, g.idle.trans h.idle, fun hi => (g.stop (h.idle.mpr hi)).trans (h.stop hi)⟩

/-- A pointer of position i names context c (R59). -/
def Names (p : Part) (i : PosId) (c : CtxId) : Prop := (p.position i).reader = some c ∨ (p.position i).keypad = some c

/-- What is kept of the Event Queue and the Fault Record, and of every context its sizes and its digits. -/
structure Calm (p q : Part) : Prop where
  used    : p.queue.used ≤ 32 → q.queue.used ≤ 32
  faults  : FaultsOk p.faults → FaultsOk q.faults
  hides   : Hides p → Hides q
  buf     : ∀ c, CtxBuf (p.ctx c) → CtxBuf (q.ctx c)
  secure  : ∀ c, CtxSecure (p.ctx c) → CtxSecure (q.ctx c)

theorem Calm.trans {p q r : Part} (h : Calm p q) (g : Calm q r) : Calm p r :=
  ⟨g.used ∘ h.used, g.faults ∘ h.faults, g.hides ∘ h.hides, fun c => g.buf c ∘ h.buf c, fun c => g.secure c ∘ h.secure c⟩

/-- What serving keeps of the part. -/
structure Serves (p q : Part) : Prop where
  used     : p.queue.used ≤ 32 → q.queue.used ≤ 32
  faults   : FaultsOk p.faults → FaultsOk q.faults
  hides    : Hides p → Hides q
  line     : ∀ l, LineServes (p.line l) (q.line l)
  position : ∀ i, q.position i = p.position i
  ctx      : ∀ c, CtxServes (p.ctx c) (q.ctx c)
  holder   : ∀ c i, (q.ctx c).holder = some i → (p.ctx c).holder = some i ∨ Names p i c

theorem Serves.refl (p : Part) : Serves p p :=
  ⟨id, id, id, fun _ => .refl _, fun _ => rfl, fun _ => .refl _, fun _ _ => .inl⟩

theorem Serves.trans {p q r : Part} (h : Serves p q) (g : Serves q r) : Serves p r where
  used := g.used ∘ h.used
  faults := g.faults ∘ h.faults
  hides := g.hides ∘ h.hides
  line l := (h.line l).trans (g.line l)
  position i := (g.position i).trans (h.position i)
  ctx c := (h.ctx c).trans (g.ctx c)
  holder c i hi := by
    rcases g.holder c i hi with h1 | h1
    · exact h.holder c i h1
    · exact .inr (by simpa only [Names, h.position] using h1)

theorem Serves.calm {p q : Part} (h : Serves p q) : Calm p q :=
  ⟨h.used, h.faults, h.hides, fun c => (h.ctx c).buf, fun c => (h.ctx c).secure⟩

theorem Serves.foldl {α : Type} (l : List α) (f : Part → α → Part) (h : ∀ q a, Serves q (f q a)) (p : Part) : Serves p (l.foldl f p) := by
  induction l generalizing p with
  | nil => exact .refl p
  | cons a l ih => exact (h p a).trans (ih _)

theorem Serves.forContexts (f : CtxId → Part → Part) (h : ∀ c q, Serves q (f c q)) (p : Part) : Serves p (p.forContexts f) :=
  Serves.foldl allCtx _ (fun q c => h c q) p

/-! ### One change -/

/-- A change of one context that gives it no new holder but a position that names it. -/
theorem Serves.setCtx {p : Part} {c : CtxId} {y : Context} (h : CtxServes (p.ctx c) y)
    (hh : ∀ i, y.holder = some i → (p.ctx c).holder = some i ∨ Names p i c) : Serves p (p.setCtx c y) where
  used := id
  faults := id
  hides := id
  line _ := .refl _
  position _ := rfl
  ctx d := by
    by_cases hd : d = c
    · subst hd; simpa using h
    · simpa [hd] using .refl _
  holder d i := by
    by_cases hd : d = c
    · subst hd; simpa using hh i
    · simpa [hd] using .inl

/-- A change of one context that leaves its holder or releases it. -/
theorem Serves.modCtx {p : Part} {c : CtxId} {f : Context → Context} (h : CtxServes (p.ctx c) (f (p.ctx c)))
    (hh : (f (p.ctx c)).holder = (p.ctx c).holder ∨ (f (p.ctx c)).holder = none) : Serves p (p.modCtx c f) :=
  .setCtx h fun i hi => by
    rcases hh with hh | hh
    · exact .inl (hh ▸ hi)
    · rw [hh] at hi
      cases hi

theorem Serves.modLine {p : Part} {l : LineId} {f : Line → Line} (h : LineServes (p.line l) (f (p.line l))) : Serves p (p.modLine l f) where
  used := by simp
  faults := by simp
  hides := by simp [Hides]
  line m := by
    by_cases hm : m = l
    · subst hm; simpa using h
    · simpa [hm] using .refl _
  position _ := by simp
  ctx c := by simpa using .refl _
  holder c i := by simpa using .inl

theorem Serves.modLoop (p : Part) (l : LineId) (f : LoopTester → LoopTester) : Serves p (p.modLoop l f) :=
  .modLine ⟨rfl, rfl, rfl, rfl, rfl, rfl, rfl, Iff.rfl, fun _ => rfl⟩

/-- A change of the Event Queue alone. -/
theorem Serves.setQueue {p : Part} {q : EventQueue} (hu : p.queue.used ≤ 32 → q.used ≤ 32)
    (hr : (∀ r ∈ p.queue.records, hidesDigits r = true) → ∀ r ∈ q.records, hidesDigits r = true) : Serves p (p.setQueue q) :=
  ⟨hu, id, fun h => ⟨hr h.1, h.2⟩, fun _ => .refl _, fun _ => rfl, fun _ => .refl _, fun _ _ => .inl⟩

theorem Serves.setFaults {p : Part} {f : FaultRecord} (h : FaultsOk p.faults → FaultsOk f) : Serves p (p.setFaults f) :=
  ⟨id, h, id, fun _ => .refl _, fun _ => rfl, fun _ => .refl _, fun _ _ => .inl⟩

/-- A change of the link that begins to send no record. -/
theorem Serves.setLink {p : Part} {k : Link}
    (h : ∀ t r n, k.tx = some t → t.what = .record r n → ∃ t', p.link.tx = some t' ∧ t'.what = .record r n) : Serves p (p.setLink k) :=
  ⟨id, id, fun hp => ⟨hp.1, fun t r n ht hw => let ⟨t', h1, h2⟩ := h t r n ht hw; hp.2 t' r n h1 h2⟩,
    fun _ => .refl _, fun _ => rfl, fun _ => .refl _, fun _ _ => .inl⟩

theorem Serves.forgetArming (p : Part) (c : CtxId) : Serves p (p.forgetArming c) := by
  unfold Part.forgetArming
  split
  · exact .modLine ⟨rfl, rfl, rfl, rfl, rfl, rfl, rfl, Iff.rfl, fun _ => rfl⟩
  · exact .refl p

end Sys2Proof.Machine
end

section
/-! PROOFS. Every operation of the blocks serves: the queue's own, the endings, the entry's keys and block, the capture, the chip session, the
attachment of a served context, the loop test, scans, slots and timers. -/

namespace Sys2Proof.Machine

open Sys2Proof.Safety

/-! ### Notices and reservations -/

theorem hides_append {q : EventQueue} {r : Rec} (hq : ∀ x ∈ q.records, hidesDigits x = true) (hr : hidesDigits r = true) :
    ∀ x ∈ (q.append r).records, hidesDigits x = true := by
  intro x hx
  rcases List.mem_append.mp hx with h | h
  · exact hq x h
  · rw [List.mem_singleton.mp h]
    exact hr

/-- The notice of a detection is a FAULT notice, which holds no digit. -/
theorem hides_faultNotice {f : FaultRecord} {d : Detection} {b : Body} (h : (f.take d).2 = some b) : hidesDigits (faultNotice d b) = true := by
  unfold FaultRecord.take at h
  simp only at h
  split at h
  · simp only at h
    split at h
    · cases h
      rfl
    · cases h
  · cases h

theorem hides_admitIfFree {q : EventQueue} {r : Rec} (hq : ∀ x ∈ q.records, hidesDigits x = true) (hr : hidesDigits r = true) :
    ∀ x ∈ (q.admitIfFree r).records, hidesDigits x = true := by
  unfold EventQueue.admitIfFree
  simp only
  split
  · exact hq
  · split
    · exact hides_append hq hr
    · exact hq

theorem hides_evictNotice {l : Nat} {rs : List Rec} (h : ∀ x ∈ rs, hidesDigits x = true) : ∀ x ∈ evictNotice l rs, hidesDigits x = true :=
  fun x hx => h x (List.mem_of_mem_eraseP hx)

theorem hides_takeNotice {q : EventQueue} {r : Rec} (hq : ∀ x ∈ q.records, hidesDigits x = true) (hr : hidesDigits r = true) :
    ∀ x ∈ (q.takeNotice r).1.records, hidesDigits x = true := by
  unfold EventQueue.takeNotice
  simp only
  split
  · exact hq
  · split
    · exact hides_append hq hr
    · split
      · split
        · exact hides_append (q := { q with records := evictNotice _ q.records }) (hides_evictNotice hq) hr
        · exact hq
      · exact hq

/-- The detection of a lost notice (R141). -/
def lossDetection (l : Nat) : Detection := { cls := .eventDiscard, line := none, ctx := none, stamp := none, detail := some (.level l) }

theorem Serves.loseNotice (p : Part) (l : Nat) : Serves p (p.loseNotice l) := by
  have hf (f : FaultsOk p.faults) := f.take (lossDetection l)
  change Serves p (match p.faults.take (lossDetection l) with
    | (f, some body) => { p with queue := (p.queue.countLoss l).admitIfFree (faultNotice (lossDetection l) body), faults := f }
    | (f, none) => { p with queue := p.queue.countLoss l, faults := f })
  split
  · rename_i f body ht
    rw [ht] at hf
    have hu := EventQueue.used_admitIfFree (p.queue.countLoss l) (faultNotice (lossDetection l) body)
    rw [EventQueue.used_countLoss] at hu
    simp only [Config.queuePlaces] at hu
    exact (Serves.setQueue (p := p) (q := (p.queue.countLoss l).admitIfFree (faultNotice (lossDetection l) body)) (fun hb => by omega)
      fun hq => hides_admitIfFree hq (hides_faultNotice (f := p.faults) (by rw [ht]))).trans (.setFaults (f := f) hf)
  · rename_i f ht
    rw [ht] at hf
    exact (Serves.setQueue (p := p) (q := p.queue.countLoss l) id id).trans (.setFaults (f := f) hf)

theorem Serves.offer {p : Part} {r : Rec} (hr : hidesDigits r = true) : Serves p (p.offer r) := by
  have ha := EventQueue.used_admit p.queue r
  have hh := fun hq => hides_takeNotice (q := p.queue) (r := r) hq hr
  simp only [Config.queuePlaces] at ha
  unfold Part.offer
  split
  · rename_i q h
    rw [h] at ha hh
    simp only at ha
    exact .setQueue (fun hb => by omega) hh
  · rename_i q l h
    rw [h] at ha hh
    simp only at ha
    exact (Serves.setQueue (q := q) (fun hb => by omega) hh).trans (.loseNotice _ _)

theorem Serves.offerAll {p : Part} {rs : List Rec} (hr : ∀ r ∈ rs, hidesDigits r = true) : Serves p (p.offerAll rs) := by
  induction rs generalizing p with
  | nil => exact .refl p
  | cons r rs ih => exact (Serves.offer (hr r (by simp))).trans (ih fun x hx => hr x (by simp [hx]))

theorem Serves.convert (p : Part) (r : Reservation) {rec : Rec} (hr : hidesDigits rec = true) : Serves p (p.convert r rec) := by
  obtain ⟨q, he, hu⟩ := p.convert_eq r rec
  have hq : (∀ x ∈ p.queue.records, hidesDigits x = true) → ∀ x ∈ (p.convert r rec).queue.records, hidesDigits x = true := by
    intro h
    unfold Part.convert
    split
    · exact hides_append (q := { p.queue with reservations := p.queue.reservations.erase r }) h hr
    · exact h
  rw [he] at hq ⊢
  exact .setQueue (fun hb => by omega) hq

theorem Serves.release (p : Part) (r : Reservation) : Serves p (p.release r) := by
  refine .setQueue (fun hb => ?_) id
  have := List.length_erase_le (a := r) (l := p.queue.reservations)
  simp only [EventQueue.used] at hb ⊢
  omega

theorem Serves.reserve (p : Part) (r : Reservation) : Serves p (p.reserve r) := by
  have hu := fun h => Part.used_reserveAll p [r] h
  simp only [Config.queuePlaces] at hu
  unfold Part.reserve
  simp only
  split
  · rename_i h
    refine .setQueue (fun _ => ?_) id
    simp only [EventQueue.used, Config.queuePlaces, List.length_append, List.length_singleton] at h ⊢
    omega
  · split
    · rename_i l hl
      refine Serves.trans (q := p.setQueue _) (.setQueue (fun hb => ?_) hides_evictNotice) (.loseNotice _ _)
      have := length_evictNotice hl
      simp only [EventQueue.used, List.length_append, List.length_singleton] at hb ⊢
      omega
    · exact .refl p

theorem Serves.reserveAll (p : Part) (rs : List Reservation) : Serves p (p.reserveAll rs) := Serves.foldl rs _ Serves.reserve p

/-! ### Events -/

/-- An event goes on serving: so does its part, and the notices still to be offered hold no digit. -/
structure EvServes (e e' : Ev) : Prop where
  part    : Serves e.part e'.part
  notices : (∀ r ∈ e.faults ++ e.tail, hidesDigits r = true) → ∀ r ∈ e'.faults ++ e'.tail, hidesDigits r = true

theorem EvServes.refl (e : Ev) : EvServes e e := ⟨.refl _, id⟩

theorem EvServes.trans {e e' e'' : Ev} (h : EvServes e e') (g : EvServes e' e'') : EvServes e e'' :=
  ⟨h.part.trans g.part, g.notices ∘ h.notices⟩

theorem EvServes.map {e : Ev} {f : Part → Part} (h : Serves e.part (f e.part)) : EvServes e (e.map f) := ⟨h, id⟩

theorem EvServes.detect (e : Ev) (d : Detection) : EvServes e (e.detect d) := by
  unfold Ev.detect
  split
  · rename_i f body ht
    refine ⟨.setFaults fun hf => by simpa [ht] using hf.take d, fun h r hr => ?_⟩
    simp only [List.mem_append, List.mem_singleton] at hr h
    rcases hr with (hr | rfl) | hr
    · exact h r (.inl hr)
    · exact hides_faultNotice (f := e.part.faults) (by rw [ht])
    · exact h r (.inr hr)
  · rename_i f ht
    exact ⟨.setFaults fun hf => by simpa [ht] using hf.take d, id⟩

theorem EvServes.detectAt (e : Ev) (cls : FaultClass) (c : CtxId) (detail : Option Detail) : EvServes e (e.detectAt cls c detail) := .detect _ _

theorem EvServes.misfit (e : Ev) (c : CtxId) (kind : Nat) : EvServes e (e.misfit c kind) := .detectAt ..

theorem EvServes.close {e : Ev} {r : Rec} (hr : hidesDigits r = true) : EvServes e (e.close r) := by
  refine ⟨.refl _, fun h x hx => ?_⟩
  simp only [Ev.close, List.mem_append, List.mem_singleton] at hx h
  rcases hx with hx | hx | rfl
  · exact h x (.inl hx)
  · exact h x (.inr hx)
  · exact hr

theorem EvServes.closeDrop (e : Ev) (c : CtxId) (cause : DropCause) (restart : Bool) (hello : Option HelloInfo) :
    EvServes e (e.closeDrop c cause restart hello) := .close rfl

/-- An event that serves ends in a part that does. -/
theorem EvServes.finish {p : Part} {e : Ev} (h : EvServes (Ev.of p) e) : Serves p e.finish := by
  have hn := h.notices (by simp [Ev.of])
  rw [Ev.finish_eq]
  exact h.part.trans (.offerAll hn)

/-! ### The chip session -/

section
variable {p : Part} {c : CtxId}

theorem CtxServes.withChip {x : Context} {h h' : Chip} (hc : x.chip = some h) (hk : ChipKept h h') (o : Option PosId) :
    CtxServes x { x with holder := o, chip := some h' } :=
  ⟨rfl, Iff.rfl, Iff.rfl, .refl _, id, optRel_refl .refl _, optRel_refl .refl _, by rw [hc]; exact .some hk⟩

theorem ChipKept.toOff (h : Chip) : ChipKept h h.toOff := fun ⟨_, _, _, hn⟩ => ⟨Nat.zero_le _, Nat.zero_le _, Nat.zero_le _, hn⟩

theorem ChipKept.respond (h : Chip) (b : Byte) : ChipKept h (h.respond b) := by
  rintro ⟨ha, hr, hc, hn⟩
  unfold Chip.respond
  split
  · rename_i hlt
    simp only [Config.responseSize] at hlt
    exact ⟨ha, by simp; omega, hc, hn⟩
  · exact ⟨ha, hr, hc, hn⟩

theorem ChipKept.respondAll (h : Chip) (bs : List Byte) : ChipKept h (bs.foldl Chip.respond h) := by
  induction bs generalizing h with
  | nil => exact .refl h
  | cons b bs ih => exact (ChipKept.respond h b).trans (ih _)

theorem ChipKept.seePower (h : Chip) (power : Bool) : ChipKept h (h.seePower power) := by rw [Chip.seePower_eq]; exact id

theorem Serves.modChip {f : Chip → Chip} (h : ∀ x, (p.ctx c).chip = some x → ChipKept x (f x)) : Serves p (p.modCtx c fun x => x.modChip f) :=
  .modCtx (.modChip h) (.inl rfl)

/-- The session of a context changes within its sizes. -/
theorem Serves.setChip {h h' : Chip} (hc : (p.ctx c).chip = some h) (hk : ChipKept h h') :
    Serves p (p.modCtx c fun x => { x with chip := some h' }) :=
  .modCtx (.withChip hc hk _) (.inl rfl)

/-- The session of a context changes within its sizes, and its holder is released. -/
theorem Serves.freeChip {h h' : Chip} (hc : (p.ctx c).chip = some h) (hk : ChipKept h h') :
    Serves p (p.modCtx c fun x => { x with holder := none, chip := some h' }) :=
  .modCtx (.withChip hc hk none) (.inr rfl)

theorem Serves.startFails (p : Part) (c : CtxId) (o : StartOutcome) : Serves p (p.startFails c o) := by
  unfold Part.startFails
  split
  · rename_i h hc
    exact ((Serves.convert _ _ rfl).trans (.release _ _)).trans (.freeChip (by simpa using hc) (.toOff h))
  · exact .refl p

theorem Serves.endExchange (p : Part) (c : CtxId) (st : ExchangeStatus) : Serves p (p.endExchange c st) := by
  unfold Part.endExchange
  split
  · rename_i h hc
    exact (Serves.convert _ _ rfl).trans (.setChip (h := h) (by simpa using hc) fun ⟨ha, _, _, hn⟩ => ⟨ha, Nat.zero_le _, Nat.zero_le _, hn⟩)
  · exact .refl p

theorem Serves.endSession (p : Part) (c : CtxId) (r : EndReason) (inFlight : Bool) : Serves p (p.endSession c r inFlight) := by
  unfold Part.endSession
  split
  · rename_i h hc
    exact (Serves.convert _ _ rfl).trans (.freeChip (by simpa using hc) (.toOff h))
  · exact .refl p

theorem Serves.cutSession (p : Part) (c : CtxId) (o : StartOutcome) (st : ExchangeStatus) (r : EndReason) :
    Serves p (p.cutSession c o st r) := by
  unfold Part.cutSession
  split
  · exact .refl p
  · exact .startFails ..
  · exact .endSession ..
  · exact (Serves.endExchange ..).trans (.endSession ..)
  · exact (Serves.endExchange ..).trans (.endSession ..)

theorem Serves.atrData {h : Chip} (hc : (p.ctx c).chip = some h) (b1 b2 : Byte) : Serves p (p.atrData c h b1 b2) := by
  unfold Part.atrData
  split
  · exact .refl p
  · split
    · exact .startFails ..
    · rename_i hlt
      simp only [Config.atrSize] at hlt
      refine .modChip fun x hx => ?_
      obtain rfl : h = x := Option.some.inj (hc.symm.trans hx)
      exact fun ⟨_, hr, hl, hn⟩ => ⟨by simp; omega, hr, hl, hn⟩

theorem Serves.startReady (h : Chip) (atr : List Byte) : Serves p (p.startReady c h atr) := by
  unfold Part.startReady
  exact (Serves.convert _ _ rfl).trans (.modChip fun _ _ => fun ⟨_, hr, hl, hn⟩ => ⟨Nat.zero_le _, hr, hl, hn⟩)

theorem Serves.atrEnd (h : Chip) (st : DropStatus) (last : Option Byte) : Serves p (p.atrEnd c h st last) := by
  unfold Part.atrEnd
  simp only
  split
  · exact .refl p
  · split
    · exact .startFails ..
    · split
      · split
        · exact .startFails ..
        · exact .startReady ..
      · exact .startFails ..

theorem Serves.responseEnd (st : DropStatus) (last : Option Byte) : Serves p (p.responseEnd c st last) := by
  unfold Part.responseEnd
  simp only
  have h (st : ExchangeStatus) :=
    (Serves.modChip (p := p) (c := c) fun h _ => ChipKept.respondAll h last.toList).trans (.endExchange _ c st)
  split
  · exact (h _).trans (.endSession ..)
  · exact h _

theorem EvServes.chipOutOfTurn (e : Ev) (c : CtxId) (h : Chip) (isEnd : Bool) (kind : Nat) : EvServes e (e.chipOutOfTurn c h isEnd kind) := by
  unfold Ev.chipOutOfTurn
  split
  · split
    · exact .map (.modChip fun _ _ => id)
    · exact .refl e
  · exact .misfit ..

theorem EvServes.chipData {e : Ev} {h : Chip} (hc : (e.part.ctx c).chip = some h) (kind : Nat) (b1 b2 : Byte) :
    EvServes e (e.chipData c h kind b1 b2) := by
  unfold Ev.chipData
  split
  · exact .map (.atrData hc b1 b2)
  · exact .map (.modChip fun x _ => (ChipKept.respond x b1).trans (.respond _ b2))
  · exact .chipOutOfTurn ..

theorem EvServes.chipEnd (e : Ev) (h : Chip) (kind : Nat) (st : DropStatus) (last : Option Byte) :
    EvServes e (e.chipEnd c h kind st last) := by
  unfold Ev.chipEnd
  split
  · exact .map (.atrEnd ..)
  · exact .map (.responseEnd ..)
  · exact .chipOutOfTurn ..

theorem Serves.chipCard (p : Part) (c : CtxId) (card : CardState) (power : Bool) : Serves p (p.chipCard c card power) := by
  unfold Part.chipCard
  split
  · simp only
    have seen : Serves p (p.modCtx c fun x => x.modChip fun h => h.seePower power) := .modChip fun x _ => .seePower x power
    split
    · split
      · exact seen.trans (.modChip fun _ _ => id)
      · exact seen.trans (.cutSession ..)
    · split
      · exact seen
      · split
        · exact (seen.trans (.modChip (f := fun h => { h with powerSeen := false }) fun _ _ => id)).trans (.cutSession ..)
        · exact seen
  · exact .refl p

theorem Serves.commandSent (p : Part) (c : CtxId) (u : DownUnit) : Serves p (p.commandSent c u) := by
  refine .modChip fun x _ => ?_
  split
  · split <;> exact id
  · exact id

theorem Serves.atrExpiry (p : Part) (c : CtxId) : Serves p (p.atrExpiry c) := by
  unfold Part.atrExpiry
  split
  · split
    · exact .startFails ..
    · exact .refl p
  · exact .refl p

theorem Serves.responseExpiry (p : Part) (c : CtxId) : Serves p (p.responseExpiry c) := by
  unfold Part.responseExpiry
  split
  · split
    · exact (Serves.endExchange ..).trans (.endSession ..)
    · exact .refl p
  · exact .refl p

end

/-! ### The entry -/

section
variable (e : Entry) (line : Line)

/-- An entry that changes neither its kind, bounds and digits. -/
theorem EntryKept.sameDigits {e e' : Entry} (h : e'.kind = e.kind ∧ e'.min = e.min ∧ e'.max = e.max ∧ e'.digits = e.digits ∧ e'.count = e.count)
    (hi : e.ignored ≤ 255 → e'.ignored ≤ 255) (hb : e.block.length ≤ 16 → e'.block.length ≤ 16) : EntryKept e e' := by
  obtain ⟨h1, h2, h3, h4, h5⟩ := h
  constructor
  · rintro ⟨g1, g2, g3, g4⟩
    exact ⟨by omega, by omega, hi g3, hb g4⟩
  · simp only [EntrySecure, Entry.digitCount, h1, h3, h4, h5]
    exact id

theorem EntryKept.ignore : EntryKept e e.ignore := .sameDigits ⟨rfl, rfl, rfl, rfl, rfl⟩ (fun _ => satInc8_le _) id

theorem EntryKept.takeDigit (n : Nat) : EntryKept e (e.takeDigit line n) := by
  unfold Entry.takeDigit
  split
  · rename_i h
    exact ⟨id, fun _ => ⟨by simp [Entry.accept, h.1], by simp [Entry.accept, Entry.digitCount, h.1]; omega⟩⟩
  · exact .ignore e

theorem EntryKept.takeMasked : EntryKept e (e.takeMasked line) := by
  unfold Entry.takeMasked
  split
  · rename_i h
    exact ⟨id, fun hs => ⟨hs.1, by simp [Entry.accept, Entry.digitCount, h.1]; omega⟩⟩
  · exact .ignore e

theorem EntryKept.takeBack : EntryKept e (e.takeBack line) := by
  unfold Entry.takeBack
  split
  · exact .ignore e
  · split
    · rename_i h
      refine ⟨id, fun hs => ⟨by simp [Entry.accept, h], ?_⟩⟩
      have := hs.2
      simp only [Entry.digitCount, h, Entry.accept, List.length_dropLast] at this ⊢
      omega
    · rename_i h
      refine ⟨id, fun hs => ⟨hs.1, ?_⟩⟩
      have := hs.2
      simp only [Entry.digitCount, h, Entry.accept] at this ⊢
      omega

theorem EntryKept.takeClear : EntryKept e (e.takeClear line) := by
  refine ⟨id, fun _ => ⟨fun _ => rfl, ?_⟩⟩
  cases h : e.kind <;> simp [Entry.digitCount, Entry.takeClear, Entry.accept, h]

theorem EntryKept.close (key : Nat) : EntryKept e (e.close line key) := .sameDigits ⟨rfl, rfl, rfl, rfl, rfl⟩ id fun _ => Nat.zero_le _

theorem EntryKept.armed : EntryKept e (e.armed line) := .sameDigits ⟨rfl, rfl, rfl, rfl, rfl⟩ id id

theorem EntryKept.arming (n : Option Nat) : EntryKept e { e with arming := n } := .sameDigits ⟨rfl, rfl, rfl, rfl, rfl⟩ id id

theorem EntryKept.tick : EntryKept e e.tick := .sameDigits ⟨rfl, rfl, rfl, rfl, rfl⟩ id id

end

theorem length_removeLast_le {α : Type} (f : α → Bool) (l : List α) : (removeLast f l).length ≤ l.length := by
  simpa [removeLast] using (List.length_eraseP_le (p := f) (l := l.reverse))

theorem length_removeLast {α : Type} {f : α → Bool} {l : List α} (h : l.any f = true) : (removeLast f l).length + 1 = l.length := by
  obtain ⟨a, ha, hf⟩ := List.any_eq_true.mp h
  have := List.length_eraseP_of_mem (List.mem_reverse.mpr ha) hf
  have := List.length_pos_of_mem ha
  simp only [removeLast, List.length_reverse] at *
  omega

/-- A control queue stays within its places as FINISH_BLOCK or ABANDON_BLOCK joins (R34). -/
theorem length_joinControl {b : Control} {q : List Control} (h : q.length ≤ 8) : (joinControl b q).length ≤ 8 := by
  unfold joinControl
  by_cases h1 : q.length < Config.controlPlaces
  · rw [if_pos h1]
    simp only [Config.controlPlaces] at h1
    simp only [List.length_append, List.length_singleton]
    omega
  · rw [if_neg h1]
    simp only [Config.controlPlaces] at h1
    by_cases h2 : q.any Control.isBeep
    · have := length_removeLast h2
      rw [if_pos h2]
      simp only [List.length_append, List.length_singleton]
      omega
    · rw [if_neg h2]
      simp only [List.length_append, List.length_singleton, List.length_drop]
      omega

theorem length_abandonBlock {q : List Control} (h : q.length ≤ 8) : (abandonBlock q).length ≤ 8 := by
  unfold abandonBlock
  split
  · exact Nat.le_trans (length_removeLast_le _ _) h
  · exact length_joinControl h

theorem CtxServes.afterEntry (x : Context) (e : Entry) (o : EntryEnding) : CtxServes x (x.afterEntry e o) where
  profile := rfl
  parked := Iff.rfl
  free := Iff.rfl
  shape := .refl _
  service := by
    rintro ⟨hc, hs⟩
    refine ⟨?_, hs⟩
    simp only [Context.afterEntry]
    split
    · exact length_abandonBlock hc
    · exact hc
  keypad := optRel_map fun k _ => .noEntry k _
  reader := optRel_refl .refl _
  chip := optRel_refl .refl _

section
variable (p : Part) (c : CtxId)

theorem hides_entryResult (e : Entry) (o : EntryEnding) (pos : Option PosId) (c : Option CtxId) (l : Option LineId) :
    hidesDigits (.of (.entry (e.result o)) pos c l) = true := by
  cases h : e.kind <;> simp [hidesDigits, Rec.of, Entry.result, h]

theorem Serves.endEntry (o : EntryEnding) : Serves p (p.endEntry c o) := by
  unfold Part.endEntry
  split
  · refine ((Serves.convert _ _ (hides_entryResult ..)).trans (.modCtx ?_ (.inr rfl))).trans (.forgetArming _ _)
    exact .afterEntry ..
  · exact .refl p

theorem EvServes.unmasked (ev : Ev) (why : Unmask) : EvServes ev (ev.unmasked c why) := (EvServes.map (.endEntry ..)).trans (.detectAt ..)

variable {p c}

theorem Serves.setEntry {e e' : Entry} (h : (p.ctx c).entry = some e) (he : EntryKept e e') :
    Serves p (p.modCtx c fun x => x.setEntry (some e')) := .modCtx (.setEntry h he) (.inl rfl)

theorem CtxServes.close {x : Context} {e : Entry} (h : x.entry = some e) (line : Line) (key : Nat) :
    CtxServes x { x.setEntry (some (e.close line key)) with controls := joinControl .finishBlock x.controls, lateBlock := false } :=
  (CtxServes.setEntry h (.close e line key)).trans
    (.of_service rfl rfl rfl rfl rfl rfl fun ⟨hc, hs⟩ => ⟨length_joinControl hc, hs⟩)

theorem Serves.takePress {e : Entry} (h : (p.ctx c).entry = some e) (v : VKey) : Serves p (p.takePress c e v) := by
  unfold Part.takePress
  simp only
  split
  · exact .setEntry h (.takeMasked ..)
  · split
    · exact .setEntry h (.takeDigit ..)
    · split
      · exact .setEntry h (.takeBack ..)
      · split
        · exact .setEntry h (.takeClear ..)
        · split
          · exact .endEntry ..
          · split
            · split
              · exact .endEntry ..
              · exact .modCtx (.close h _ _) (.inl rfl)
            · exact .setEntry h (.ignore e)

theorem Serves.blockData {e : Entry} (h : (p.ctx c).entry = some e) (b1 b2 : Byte) : Serves p (p.blockData c e b1 b2) := by
  unfold Part.blockData
  split
  · exact .endEntry ..
  · rename_i hlt
    simp only [Config.blockSize] at hlt
    exact .setEntry h (.sameDigits ⟨rfl, rfl, rfl, rfl, rfl⟩ id fun _ => by simp; omega)

theorem Serves.blockEnd (e : Entry) (refused : Bool) : Serves p (p.blockEnd c e refused) := by
  unfold Part.blockEnd
  split
  · exact .endEntry ..
  · split <;> exact .endEntry ..

theorem Serves.entryExpiry (t : EntryTimer) : Serves p (p.entryExpiry c t) := by
  unfold Part.entryExpiry
  split
  · split
    · exact .endEntry ..
    · exact .refl p
  · exact .refl p

end

/-! ### The capture -/

section
variable (t : TrackRec)

theorem TrackBuf.takeChar (parity : Bool) (ch : Byte) (h : TrackBuf t) : TrackBuf (t.takeChar parity ch) := by
  unfold TrackRec.takeChar
  split
  · exact h
  · rename_i hs
    split
    · exact ⟨h.1, fun _ => h.2 (by simp [hs])⟩
    · exact h
  · rename_i hs
    have hlt := h.2 (by simp [hs])
    simp only
    split
    · exact ⟨h.1, fun hn => absurd rfl hn⟩
    · simp only [TrackRec.store, Config.trackSize]
      split
      · exact ⟨by simp [TrackRec.finish]; omega, fun hn => absurd rfl hn⟩
      · rename_i h112
        split
        · exact ⟨by simp [TrackRec.finish]; omega, fun hn => absurd rfl hn⟩
        · exact ⟨by simp only [List.length_append, List.length_singleton]; omega, fun _ => by simp at h112 ⊢; omega⟩

theorem TrackBuf.takeEnd (st : ReaderStatus) (h : TrackBuf t) : TrackBuf (t.takeEnd st) := by
  unfold TrackRec.takeEnd
  split
  · exact h
  · simp only
    split
    · exact h
    · exact ⟨h.1, fun hn => absurd rfl hn⟩

theorem TrackBuf.start (rules : Rules) (n : Nat) : TrackBuf (.start rules n) := ⟨Nat.zero_le _, fun _ => by simp [TrackRec.start]⟩

variable (u : Capture)

theorem CaptureBuf.begin (line : Line) (h : CaptureBuf u) : CaptureBuf (u.begin line) := by
  unfold Capture.begin
  split <;> exact h

theorem CaptureBuf.onTrack {n : Nat} {f : TrackRec → TrackRec} (hf : ∀ t, TrackBuf t → TrackBuf (f t)) (h : CaptureBuf u) :
    CaptureBuf (u.onTrack n f) := by
  intro t ht
  obtain ⟨t', ht', rfl⟩ := List.mem_map.mp ht
  split
  · exact hf _ (h t' ht')
  · exact h t' ht'

end

/-- A capture gives way to one that keeps its sizes. -/
theorem ReaderKept.withCapture {r : Reader} {u u' : Capture} (h : r.capture = some u) (hu : CaptureBuf u → CaptureBuf u') :
    ReaderKept r { r with capture := some u' } := by
  rintro ⟨hd, hc⟩
  refine ⟨hd, fun x hx => ?_⟩
  obtain rfl : u' = x := by simpa using hx
  exact hu (hc u h)

theorem ReaderKept.clearTally (r : Reader) : ReaderKept r r.clearTally := fun ⟨_, hc⟩ => ⟨Nat.zero_le _, hc⟩

theorem ReaderKept.noCapture (r : Reader) : ReaderKept r ({ r with capture := none } : Reader).clearTally :=
  fun _ => ⟨Nat.zero_le _, fun _ h => absurd h (by simp [Reader.clearTally])⟩

theorem ReaderKept.mapCapture {r : Reader} {f : Capture → Capture} (h : ∀ u, CaptureBuf u → CaptureBuf (f u)) :
    ReaderKept r { r with capture := r.capture.map f } := by
  rintro ⟨hd, hc⟩
  refine ⟨hd, fun x hx => ?_⟩
  obtain ⟨u, hu, rfl⟩ := Option.map_eq_some_iff.mp hx
  exact h u (hc u hu)

section
variable {p : Part} {c : CtxId}

theorem Serves.modReader {f : Reader → Reader} (h : ∀ x, (p.ctx c).reader = some x → ReaderKept x (f x)) :
    Serves p (p.modCtx c fun x => x.modReader f) := .modCtx (.modReader h) (.inl rfl)

theorem Serves.endCapture (p : Part) (c : CtxId) (o : CaptureOutcome) : Serves p (p.endCapture c o) := by
  unfold Part.endCapture
  split
  · refine (Serves.convert _ _ rfl).trans (.modCtx ?_ (.inr rfl))
    exact ⟨rfl, Iff.rfl, Iff.rfl, .refl _, id, optRel_refl .refl _, optRel_map fun r _ => .noCapture r, optRel_refl .refl _⟩
  · exact .refl p

theorem Serves.trackChar (track : Nat) (parity : Bool) (ch : Byte) : Serves p (p.trackChar c track parity ch) := by
  refine .modReader fun r _ => ?_
  split
  · rename_i u hu
    exact .withCapture hu fun h => .onTrack _ (fun t => .takeChar t parity ch) (.begin _ _ h)
  · exact fun ⟨_, hc⟩ => ⟨satInc8_le _, hc⟩

theorem Serves.trackEnd (track : Nat) (st : ReaderStatus) : Serves p (p.trackEnd c track st) := by
  refine .modReader fun r _ => ?_
  split
  · rename_i u hu
    exact .withCapture hu fun h => .onTrack _ (fun t => .takeEnd t st) (.begin _ _ h)
  · exact fun ⟨hd, hc⟩ => ⟨hd, hc⟩

theorem Serves.swipeEnd (p : Part) (c : CtxId) : Serves p (p.swipeEnd c) := by
  unfold Part.swipeEnd
  split
  · split
    · exact .endCapture ..
    · exact (Serves.offer rfl).trans (.modReader fun r _ => .clearTally r)
  · exact .refl p

theorem Serves.takeCard (p : Part) (c : CtxId) (card : CardState) : Serves p (p.takeCard c card) := by
  unfold Part.takeCard
  split
  · split
    · exact .refl p
    · refine ((Serves.modReader (f := fun r => { r with card := card }) fun _ _ => id).trans (.offer ?_)).trans
        (.modReader fun r _ => ?_)
      · rfl
      split
      · exact .mapCapture fun u => .begin u _
      · exact .refl r
  · exact .refl p

theorem Serves.cardLost (p : Part) (c : CtxId) : Serves p (p.cardLost c) := by
  unfold Part.cardLost
  split
  · split
    · exact .refl p
    · refine (Serves.modReader (f := fun r => { r with card := .unknown }) fun _ _ => id).trans (.offer ?_)
      rfl
  · exact .refl p

theorem Serves.armExpiry (p : Part) (c : CtxId) : Serves p (p.armExpiry c) := by
  unfold Part.armExpiry
  split
  · split
    · exact .endCapture ..
    · exact .refl p
  · exact .refl p

theorem Serves.limitExpiry (p : Part) (c : CtxId) : Serves p (p.limitExpiry c) := by
  unfold Part.limitExpiry
  split
  · split
    · exact .endCapture ..
    · exact .refl p
  · exact .refl p

end

/-! ### Attachment -/

/-- The context is served: it is neither FREE nor PARKED (R45). -/
def Live (x : Context) : Prop := x.attach ≠ .parked ∧ x.attach ≠ .free

theorem CtxServes.live {x y : Context} (h : CtxServes x y) (hx : Live x) : Live y :=
  ⟨fun e => hx.1 (h.parked.mp e), fun e => hx.2 (h.free.mp e)⟩

/-- A served context in another served state. -/
theorem CtxServes.moved {x : Context} (hx : Live x) {a : Attach} (h1 : a ≠ .parked) (h2 : a ≠ .free) : CtxServes x { x with attach := a } where
  profile := rfl
  parked := iff_of_false h1 hx.1
  free := iff_of_false h2 hx.2
  shape := .refl _
  service := id
  keypad := optRel_refl .refl _
  reader := optRel_refl .refl _
  chip := optRel_refl .refl _

theorem serviceBuf_clearService (x : Context) : ServiceBuf x.clearService := by
  simp [ServiceBuf, Context.clearService]

theorem length_allUp (f : ScanForm) : f.allUp.length = f.keyCount := by simp [ScanForm.allUp]

theorem chipBuf_fresh : ChipBuf .fresh := by simp [ChipBuf, Chip.fresh]

theorem CtxServes.dropAnew (x : Context) : CtxServes x x.dropAnew where
  profile := rfl
  parked := Iff.rfl
  free := Iff.rfl
  shape := .refl _
  service _ := serviceBuf_clearService x
  keypad := optRel_map fun _ _ => ⟨fun ⟨h1, h2, _, h4⟩ => ⟨h1, h2, length_allUp _, h4⟩, id⟩
  reader := optRel_map fun _ _ => fun ⟨_, hc⟩ => ⟨Nat.zero_le _, hc⟩
  chip := optRel_map fun _ _ _ => chipBuf_fresh

theorem CtxServes.enterAttached {x : Context} (hx : Live x) (f : Features) : CtxServes x (x.enterAttached f) :=
  ((CtxServes.dropAnew x).trans (.moved (a := .attached) ((CtxServes.dropAnew x).live hx) nofun nofun)).trans
    (.of_service rfl rfl rfl rfl rfl rfl id)

theorem CtxServes.attachFresh {x : Context} (hx : Live x) (f : Features) : CtxServes x { x.enterAttached f with fresh := true } :=
  (CtxServes.enterAttached hx f).trans (y := x.enterAttached f) (.of_service rfl rfl rfl rfl rfl rfl id)

theorem CtxServes.leaveAttached {x : Context} (hx : Live x) {a : Attach} (h1 : a ≠ .parked) (h2 : a ≠ .free) :
    CtxServes x (x.leaveAttached a) where
  profile := rfl
  parked := iff_of_false h1 hx.1
  free := iff_of_false h2 hx.2
  shape := .refl _
  service _ := serviceBuf_clearService x
  keypad := optRel_refl .refl _
  reader := optRel_map fun _ _ => id
  chip := optRel_map fun _ _ => id

theorem CtxServes.afterLoss {x : Context} (hx : Live x) : CtxServes x x.afterLoss where
  profile := rfl
  parked := iff_of_false nofun hx.1
  free := iff_of_false nofun hx.2
  shape := .refl _
  service _ := serviceBuf_clearService x
  keypad := optRel_refl .refl _
  reader := optRel_refl .refl _
  chip := optRel_map fun _ _ => id

section
variable {p : Part} {c : CtxId}

theorem Serves.live {q : Part} (h : Serves p q) (hx : Live (p.ctx c)) : Live (q.ctx c) := (h.ctx c).live hx

theorem Serves.endOps (p : Part) (c : CtxId) (why : Cause) : Serves p (p.endOps c why) :=
  ((Serves.endEntry ..).trans (.endCapture ..)).trans (.cutSession ..)

theorem EvServes.helloAttach {e : Ev} (hx : Live (e.part.ctx c)) (code : Nat) (display : Bool) (lamps : Nat) :
    EvServes e (e.helloAttach c code display lamps) := by
  unfold Ev.helloAttach
  simp only
  split
  · exact (EvServes.map (.modCtx (.attachFresh hx _) (.inl rfl))).trans (.closeDrop ..)
  · have h := (EvServes.map (e := e) (f := fun p => p.modCtx c fun x => { x with attach := .mismatch })
      (.modCtx (.moved hx nofun nofun) (.inl rfl))).trans (.detectAt _ .dropKind c (some (.kindCode code)))
    split
    · exact h
    · exact h.trans (.closeDrop ..)

theorem EvServes.helloRestart {e : Ev} (hx : Live (e.part.ctx c)) (code : Nat) (display : Bool) (lamps : Nat) :
    EvServes e (e.helloRestart c code display lamps) := by
  unfold Ev.helloRestart
  simp only
  have hl := (Serves.endOps e.part c .dropRestarted).live hx
  have h1 : EvServes e (e.map fun p => p.endOps c .dropRestarted) := .map (.endOps ..)
  split
  · exact (((h1.trans (.map (.modCtx (.enterAttached hl _) (.inl rfl)))).trans (.detectAt ..)).trans (.closeDrop ..))
  · refine ((((h1.trans (.map (.modCtx ?_ (.inl rfl)))).trans (.detectAt ..)).trans (.detectAt ..)).trans (.closeDrop ..))
    exact ((CtxServes.dropAnew _).trans (.moved (a := .mismatch) ((CtxServes.dropAnew _).live hl) nofun nofun)).trans
      (.of_service rfl rfl rfl rfl rfl rfl id)

theorem EvServes.dropLost {e : Ev} (hx : Live (e.part.ctx c)) (q : Nat) : EvServes e (e.dropLost c q) := by
  have h := Serves.endOps e.part c .dropLost
  exact ((EvServes.map ((h.trans (.modCtx (.afterLoss (h.live hx)) (.inl rfl))).trans (.cardLost ..))).trans (.detectAt ..)).trans (.closeDrop ..)

theorem EvServes.miss {e : Ev} (hx : Live (e.part.ctx c)) : EvServes e (e.miss c) := by
  unfold Ev.miss
  split
  · split
    · simp only
      have h : EvServes e (e.map fun p => p.modCtx c fun x => { x with miss := x.miss + 1 }) :=
        .map (.modCtx (.of_service rfl rfl rfl rfl rfl rfl id) (.inl rfl))
      split
      · exact h.trans (.dropLost (h.part.live hx) _)
      · exact h
    · exact .refl e
  · exact .refl e

theorem Serves.heard (p : Part) (c : CtxId) : Serves p (p.heard c) := by
  unfold Part.heard
  split
  · split
    · exact .modCtx (.of_service rfl rfl rfl rfl rfl rfl id) (.inl rfl)
    · exact .refl p
  · exact .refl p

end

/-! ### The loop test -/

section
variable (p : Part) (l : LineId)

theorem EvServes.loopCompletion (e : Ev) (c : CtxId) (cls : SlotClass) : EvServes e (e.loopCompletion l c cls) := by
  unfold Ev.loopCompletion
  simp only
  split
  · split
    · exact (EvServes.map (.modLoop ..)).trans (.detectAt ..)
    · exact .map (.modLoop ..)
  · exact .refl e

theorem Serves.loopResult (o : LoopOutcome) : Serves p (p.loopResult l o) := by
  unfold Part.loopResult
  simp only
  exact (Serves.convert _ _ rfl).trans (.modLoop ..)

theorem Serves.abortTest : Serves p (p.abortTest l) := by
  unfold Part.abortTest
  split
  · exact .refl p
  · exact .loopResult ..

/-- A pass over served contexts. -/
theorem Serves.foldl_live {f : Part → CtxId → Part} (hf : ∀ q c, Live (q.ctx c) → Serves q (f q c)) (cs : List CtxId)
    (h : ∀ c ∈ cs, Live (p.ctx c)) : Serves p (cs.foldl f p) := by
  induction cs generalizing p with
  | nil => exact .refl p
  | cons c cs ih =>
    have h1 := hf p c (h c (by simp))
    exact h1.trans (ih _ fun d hd => h1.live (h d (by simp [hd])))

theorem attach_of_mem_participants {c : CtxId} (h : c ∈ p.participants l) : (p.ctx c).attach = .attached := by
  have := (List.mem_filter.mp h).2
  simp only [Bool.and_eq_true, beq_iff_eq] at this
  exact this.1

theorem live_of_attach {x : Context} {a : Attach} (h : x.attach = a) (h1 : a ≠ .parked := by nofun) (h2 : a ≠ .free := by nofun) : Live x :=
  ⟨h ▸ h1, h ▸ h2⟩

theorem Serves.enterTest (hl : (p.line l).state ≠ .idle) : Serves p (p.enterTest l) := by
  unfold Part.enterTest
  simp only
  have h1 : Serves p ((p.participants l).foldl (fun q c => q.modCtx c fun x => x.leaveAttached .looping) p) :=
    .foldl_live p (fun q c hc => .modCtx (.leaveAttached hc (a := .looping) nofun nofun) (.inl rfl)) _
      fun c hc => live_of_attach (attach_of_mem_participants p l hc)
  refine (h1.trans (.modLine ?_)).trans (.offer rfl)
  have hi : ((List.foldl (fun q c => q.modCtx c fun x => x.leaveAttached .looping) p (p.participants l)).line l).state ≠ .idle :=
    fun e => hl ((h1.line l).idle.mp e)
  exact ⟨rfl, rfl, rfl, rfl, rfl, rfl, rfl, iff_of_false nofun hi, fun e => absurd e hi⟩

theorem Serves.endTest (hl : (p.line l).state ≠ .idle) (o : LoopOutcome) : Serves p (p.endTest l o) := by
  unfold Part.endTest
  simp only
  have h1 := (Serves.loopResult p l o).trans (.forContexts (fun c q =>
    if (q.ctx c).onLine l ∧ (q.ctx c).attach = .looping then q.modCtx c fun x => { x with attach := .waiting } else q)
    (fun c q => by
      split
      · rename_i h
        exact .modCtx (.moved (live_of_attach h.2) nofun nofun) (.inl rfl)
      · exact .refl q) _)
  refine (h1.trans (.modLine ?_)).trans (.offer rfl)
  have hi := fun e => hl ((h1.line l).idle.mp e)
  exact ⟨rfl, rfl, rfl, rfl, rfl, rfl, rfl, iff_of_false nofun hi, fun e => absurd e hi⟩

theorem Serves.testMark (hl : (p.line l).state ≠ .idle) : Serves p (p.testMark l) := by
  unfold Part.testMark
  split
  · exact .refl p
  · exact .enterTest p l hl
  · split
    · exact .endTest p l hl _
    · exact .refl p

end

/-! ### Scans -/

section
variable {p : Part} {c : CtxId}

/-- The key is no digit key of a MASKED scan (R71, R80). -/
def KeyHidden (form : ScanForm) (v : VKey) : Prop := form = .masked → ∀ n, v = .key n → 10 ≤ n.val

theorem hides_keyNotice {form : ScanForm} {v : VKey} (h : KeyHidden form v) (pos : Option PosId) :
    hidesDigits (p.keyNotice c pos form v) = true := by
  cases form
  · cases v <;> rfl
  · cases v
    · simpa [hidesDigits, Part.keyNotice, Rec.of] using h rfl _ rfl
    · rfl

theorem keyHidden_vkey (form : ScanForm) (i : Nat) : KeyHidden form (form.vkey i) := by
  rintro rfl n hn
  simp only [ScanForm.vkey] at hn
  split at hn
  · cases hn
    simp only [Fin.ofNat]
    omega
  · cases hn

theorem Serves.deliver {form : ScanForm} {v : VKey} (hv : KeyHidden form v) : Serves p (p.deliver c form v) := by
  unfold Part.deliver
  split
  · rename_i pos e _ he
    split
    · simp only
      split
      · exact (Serves.takePress he v).trans (.offer (hides_keyNotice hv _))
      · exact .takePress he v
    · exact .refl p
  · exact .offer (hides_keyNotice hv _)

theorem EvServes.reportForm (ev : Ev) (c : CtxId) (form : ScanForm) : EvServes ev (ev.reportForm c form) := by
  unfold Ev.reportForm
  split
  · rename_i e he
    split
    · split
      · exact .map (.modCtx (.setEntry he (.armed ..)) (.inl rfl))
      · exact .refl ev
      · exact .unmasked ..
      · exact .refl ev
    · exact .refl ev
  · exact .refl ev

/-- The keys that a scan of a form reports. -/
def Scan.Reports (s : Scan) : Prop := s.raw.length = s.form.keyCount

theorem length_debounceAll {n : Nat} {keys : List KeyState} {raw : List Bool} (h : keys.length = raw.length) :
    (debounceAll n keys raw).length = keys.length := by
  simp [debounceAll, h]

theorem KeypadKept.debounced {k : Keypad} {s : Scan} (hs : s.Reports) (hf : k.reported = s.form) :
    KeypadKept k { k with keys := (debounceAll k.n k.keys s.raw).map (·.1) } where
  buf := by
    rintro ⟨h1, h2, h3, h4⟩
    refine ⟨h1, h2, ?_, h4⟩
    simp only [List.length_map]
    rw [length_debounceAll (by rw [h3, hf, hs]), h3]
  secure := id

theorem Serves.debounceScan {s : Scan} (hs : s.Reports) (hf : ∀ k, (p.ctx c).keypad = some k → k.reported = s.form) :
    Serves p (p.debounceScan c s) := by
  unfold Part.debounceScan
  split
  · rename_i k hk
    simp only
    have h : Serves p (p.modCtx c fun x => x.modKeypad fun k' => { k' with keys := (debounceAll k.n k.keys s.raw).map (·.1) }) := by
      refine .modCtx (.modKeypad fun k' hk' => ?_) (.inl rfl)
      obtain rfl : k = k' := Option.some.inj (hk.symm.trans hk')
      exact .debounced hs (hf k hk)
    split
    · rename_i v hv
      refine h.trans (.deliver ?_)
      unfold deliveredPress at hv
      split at hv
      · obtain ⟨i, -, rfl⟩ := Option.map_eq_some_iff.mp hv
        exact keyHidden_vkey _ _
      · cases hv
    · exact h
  · exact .refl p

theorem KeypadKept.takeForm (k : Keypad) (form : ScanForm) : KeypadKept k (k.takeForm form) := by
  unfold Keypad.takeForm
  split
  · exact .refl k
  · exact ⟨fun ⟨h1, h2, _, h4⟩ => ⟨h1, h2, length_allUp _, h4⟩, id⟩

theorem Keypad.reported_takeForm (k : Keypad) (form : ScanForm) : (k.takeForm form).reported = form := by
  unfold Keypad.takeForm
  split
  · assumption
  · rfl

/-- An ending of an entry leaves the keypad's reported form. -/
theorem reported_endEntry {o : EntryEnding} {k : Keypad} (h : ((p.endEntry c o).ctx c).keypad = some k) :
    ∃ k', (p.ctx c).keypad = some k' ∧ k'.reported = k.reported := by
  unfold Part.endEntry at h
  split at h
  · simp only [Part.ctx_forgetArming, Part.ctx_modCtx_self, Part.ctx_convert, Context.afterEntry] at h
    obtain ⟨k', hk', rfl⟩ := Option.map_eq_some_iff.mp h
    exact ⟨k', hk', rfl⟩
  · exact ⟨k, h, rfl⟩

theorem reported_reportForm {ev : Ev} {form : ScanForm} {k : Keypad} (h : ((ev.reportForm c form).part.ctx c).keypad = some k) :
    ∃ k', (ev.part.ctx c).keypad = some k' ∧ k'.reported = k.reported := by
  unfold Ev.reportForm at h
  split at h
  · split at h
    · split at h
      · simp only [Ev.map, Part.ctx_modCtx_self, Context.setEntry, Context.keypad_modKeypad] at h
        obtain ⟨k', hk', rfl⟩ := Option.map_eq_some_iff.mp h
        exact ⟨k', hk', rfl⟩
      · exact ⟨k, h, rfl⟩
      · simp only [Ev.unmasked, Ev.detectAt, Ev.ctx_detect, Ev.map] at h
        exact reported_endEntry h
      · exact ⟨k, h, rfl⟩
    · exact ⟨k, h, rfl⟩
  · exact ⟨k, h, rfl⟩

theorem CtxServes.takeForm (x : Context) (form : ScanForm) :
    CtxServes x ({ x with lateBlock := false }.modKeypad fun k => k.takeForm form) :=
  (CtxServes.of_service (x := x) (y := { x with lateBlock := false }) rfl rfl rfl rfl rfl rfl id).trans (.modKeypad fun k _ => .takeForm k form)

theorem EvServes.scan (ev : Ev) (c : CtxId) {s : Scan} (hs : s.Reports) : EvServes ev (ev.scan c s) := by
  unfold Ev.scan
  simp only
  have h1 : EvServes ev (ev.map fun p => p.modCtx c fun x => { x with lateBlock := false }.modKeypad fun k => k.takeForm s.form) :=
    .map (.modCtx (.takeForm (ev.part.ctx c) s.form) (.inl rfl))
  have h2 := h1.trans (.reportForm _ c s.form)
  split
  · exact h2
  · refine h2.trans (.map (.debounceScan hs fun k hk => ?_))
    obtain ⟨k', hk', hr⟩ := reported_reportForm hk
    simp only [Ev.map, Part.ctx_modCtx_self, Context.keypad_modKeypad] at hk'
    obtain ⟨k'', -, rfl⟩ := Option.map_eq_some_iff.mp hk'
    rw [← hr, Keypad.reported_takeForm]

end

/-! ### Slots -/

section
variable {p : Part} {c : CtxId}

theorem CtxServes.chooseRefresh (x : Context) : CtxServes x x.chooseRefresh.2 := by
  unfold Context.chooseRefresh
  split
  · rename_i kind f _ _
    split
    · rename_i piece _
      refine .of_service rfl rfl rfl rfl rfl rfl fun ⟨h1, h2, h3, h4, _⟩ => ⟨h1, h2, h3, h4, ?_⟩
      have := Nat.mod_lt (piece + 1) (show 0 < pieceCount kind by cases kind <;> decide)
      have : pieceCount kind ≤ 9 := by cases kind <;> decide
      simp only
      omega
    · exact .refl x
  · exact .refl x

theorem CtxServes.chooseAttached (x : Context) : CtxServes x x.chooseAttached.2 := by
  unfold Context.chooseAttached
  split
  · exact .refl x
  · split
    · exact .refl x
    · split
      · rename_i rest h
        refine .of_service rfl rfl rfl rfl rfl rfl fun ⟨h1, hs⟩ => ⟨?_, hs⟩
        rw [h, List.length_cons] at h1
        simp only
        omega
      · split
        · split
          · exact .refl x
          · exact .chooseRefresh x
        · exact .chooseRefresh x

theorem Context.holder_chooseRefresh (x : Context) : x.chooseRefresh.2.holder = x.holder := by
  unfold Context.chooseRefresh
  split
  · split <;> rfl
  · rfl

theorem Context.holder_chooseAttached (x : Context) : x.chooseAttached.2.holder = x.holder := by
  unfold Context.chooseAttached
  split
  · rfl
  · split
    · rfl
    · split
      · rfl
      · split
        · split
          · rfl
          · exact x.holder_chooseRefresh
        · exact x.holder_chooseRefresh

theorem CtxServes.chooseUnit (p : Part) (l : LineId) (c : CtxId) : CtxServes (p.ctx c) (p.chooseUnit l c).2 := by
  unfold Part.chooseUnit
  simp only
  split
  case h_4 => exact .chooseAttached _
  all_goals exact .refl _

theorem Part.holder_chooseUnit (p : Part) (l : LineId) (c : CtxId) : (p.chooseUnit l c).2.holder = (p.ctx c).holder := by
  unfold Part.chooseUnit
  simp only
  split
  case h_4 => exact Context.holder_chooseAttached _
  all_goals rfl

theorem Serves.slotStart (p : Part) (l : LineId) (i : Nat) : Serves p (p.slotStart l i) := by
  unfold Part.slotStart
  split
  · split
    · exact .modLine ⟨rfl, rfl, rfl, rfl, rfl, rfl, rfl, Iff.rfl, fun _ => rfl⟩
    · rename_i c _
      refine Serves.trans (.setCtx (.chooseUnit p l c) fun i hi => .inl ?_) (.modLine ⟨rfl, rfl, rfl, rfl, rfl, rfl, rfl, Iff.rfl, fun _ => rfl⟩)
      rwa [Part.holder_chooseUnit] at hi
  · exact .refl p

/-- A completion steps the three holds, within 4 (R32). -/
theorem Context.stepHolds_eq (x : Context) (u : DownUnit) : ∃ f l w, x.stepHolds u = { x with formHold := f, latchHold := l, powerHold := w } ∧
    (x.formHold ≤ 4 → f ≤ 4) ∧ (x.latchHold ≤ 4 → l ≤ 4) ∧ (x.powerHold ≤ 4 → w ≤ 4) := by
  have full : Config.controlHold ≤ 4 := by decide
  have down (n : Nat) : n ≤ 4 → n - 1 ≤ 4 := by omega
  unfold Context.stepHolds
  split
  · exact ⟨_, _, _, rfl, id, id, id⟩
  · split
    · exact ⟨_, _, _, rfl, fun _ => full, down _, down _⟩
    · exact ⟨_, _, _, rfl, down _, fun _ => full, down _⟩
    · exact ⟨_, _, _, rfl, down _, fun _ => full, down _⟩
    · exact ⟨_, _, _, rfl, down _, down _, fun _ => full⟩
    · exact ⟨_, _, _, rfl, down _, down _, fun _ => full⟩
    · exact ⟨_, _, _, rfl, down _, down _, down _⟩

theorem CtxServes.stepHolds (x : Context) (u : DownUnit) : CtxServes x (x.stepHolds u) := by
  obtain ⟨f, l, w, he, h2, h3, h4⟩ := x.stepHolds_eq u
  rw [he]
  exact .of_service rfl rfl rfl rfl rfl rfl fun ⟨hc, hf, hl, hw, hr⟩ => ⟨hc, h2 hf, h3 hl, h4 hw, hr⟩

theorem Context.holder_stepHolds (x : Context) (u : DownUnit) : (x.stepHolds u).holder = x.holder := by
  obtain ⟨f, l, w, he, -⟩ := x.stepHolds_eq u
  rw [he]

theorem EvServes.blockUnit {e : Ev} {f : Entry → Part → Part} (hf : ∀ en, (e.part.ctx c).entry = some en → Serves e.part (f en e.part))
    (kind : Nat) : EvServes e (e.blockUnit c kind f) := by
  unfold Ev.blockUnit
  split
  · rename_i en hen
    split
    · exact .map (hf en hen)
    · split
      · exact .refl e
      · exact .misfit ..
  · split
    · exact .refl e
    · exact .misfit ..

theorem EvServes.cardState (e : Ev) (c : CtxId) (drop : DropKind) (kind code : Nat) (latch power : Bool) :
    EvServes e (e.cardState c drop kind code latch power) := by
  unfold Ev.cardState
  split
  · exact .map (((Serves.modChip (f := fun h => { h with reportedLatch := if latch then .on else .off, reportedPower := if power then .on else .off })
      fun _ _ => id).trans (.takeCard ..)).trans (.chipCard ..))
  · exact .misfit ..

theorem EvServes.trackUnit {e : Ev} {f : Part → Part} (hf : Serves e.part (f e.part)) (kind track : Nat) :
    EvServes e (e.trackUnit c kind track f) := by
  unfold Ev.trackUnit
  split
  · exact .map hf
  · exact .misfit ..

theorem EvServes.keypadUnit (e : Ev) (c : CtxId) (kind : Nat) (u : UpUnit) : EvServes e (e.keypadUnit c kind u) := by
  unfold Ev.keypadUnit
  split
  · exact .refl e
  · exact .scan e c rfl
  · exact .scan e c rfl
  · exact .blockUnit (fun en hen => .blockData hen ..) kind
  · exact .blockUnit (fun en _ => .blockEnd en _) kind
  · exact .misfit ..

theorem EvServes.readerUnit (e : Ev) (c : CtxId) (drop : DropKind) (kind : Nat) (u : UpUnit) : EvServes e (e.readerUnit c drop kind u) := by
  unfold Ev.readerUnit
  split
  · exact .refl e
  · exact .cardState ..
  · exact .trackUnit (.trackChar ..) ..
  · split
    · exact .trackUnit (.trackEnd ..) ..
    · exact .misfit ..
  · exact .map (.swipeEnd ..)
  · split
    · exact .chipData ‹_› ..
    · exact .misfit ..
  · split
    · exact .chipEnd ..
    · exact .misfit ..
  · exact .misfit ..

theorem EvServes.attachedUnit {e : Ev} (hx : Live (e.part.ctx c)) (first : Bool) (kind : Nat) (w : Payload) :
    EvServes e (e.attachedUnit c first kind w) := by
  unfold Ev.attachedUnit
  simp only
  have h1 : EvServes e (e.map fun p => p.heard c) := .map (.heard ..)
  split
  · split
    · exact h1.trans (.helloRestart (h1.part.live hx) ..)
    · split
      · exact h1
      · exact h1.trans (.misfit ..)
  · split
    · exact h1.trans (.keypadUnit ..)
    · exact h1.trans (.readerUnit ..)
    · exact h1

theorem EvServes.takeUnit (e : Ev) (l : LineId) (run : SlotRun) (cls : SlotClass) : EvServes e (e.takeUnit l run cls) := by
  have old : EvServes e (e.map fun p => p.modCtx run.ctx fun x => { x with fresh := false }) :=
    .map (.modCtx (.of_service rfl rfl rfl rfl rfl rfl id) (.inl rfl))
  unfold Ev.takeUnit
  simp only
  split
  · exact .refl e
  · exact .refl e
  · rename_i h
    exact old.trans (.attachedUnit (old.part.live (live_of_attach h)) ..)
  · rename_i h _
    exact old.trans (.miss (old.part.live (live_of_attach h)))
  · split
    · exact .loopCompletion ..
    · exact .refl e
  · rename_i hf hp _ _
    split
    · exact .helloAttach ⟨fun h => hp h, fun h => hf h⟩ ..
    · exact .refl e
  · exact .refl e

theorem EvServes.damagedUnit (e : Ev) (run : SlotRun) (cls : SlotClass) : EvServes e (e.damagedUnit run cls) := by
  unfold Ev.damagedUnit
  split
  · split
    · exact .refl e
    · exact .refl e
    · exact .detectAt ..
  · exact .refl e

theorem EvServes.stepArming (e : Ev) (run : SlotRun) : EvServes e (e.stepArming run) := by
  unfold Ev.stepArming
  split
  · rename_i en hen
    split
    · split
      · simp only
        have h (n : Nat) : EvServes e (e.map fun p => p.modCtx run.ctx fun x => x.setEntry (some { en with arming := some n })) :=
          .map (.setEntry hen (.arming ..))
        split
        · exact (h _).trans (.unmasked ..)
        · exact h _
      · split
        · exact .map (.setEntry hen (.arming ..))
        · exact .refl e
    · exact .refl e
  · exact .refl e

theorem Serves.completeSlot (p : Part) (l : LineId) (run : SlotRun) (cls : SlotClass) : Serves p (p.completeSlot l run cls) := by
  unfold Part.completeSlot
  simp only
  refine Serves.trans ?_ (EvServes.finish ((((EvServes.damagedUnit _ run cls).trans (.takeUnit _ l run cls)).trans
    (.map (.commandSent ..))).trans (.stepArming ..)))
  refine Serves.trans (.modLine ⟨rfl, rfl, rfl, rfl, rfl, rfl, rfl, Iff.rfl, fun _ => rfl⟩) (.modCtx (.stepHolds ..) (.inl ?_))
  exact Context.holder_stepHolds ..

theorem Serves.slotCompletion (p : Part) (l : LineId) (i : Nat) (up : Upstream) : Serves p (p.slotCompletion l i up) := by
  unfold Part.slotCompletion
  split
  · split
    · exact .completeSlot ..
    · exact .refl p
  · exact .refl p

end

/-! ### Timers and marks -/

section
variable (p : Part) (l : LineId)

theorem CtxServes.tick (x : Context) : CtxServes x x.tick where
  profile := rfl
  parked := Iff.rfl
  free := Iff.rfl
  shape := .refl _
  service := id
  keypad := optRel_map fun k _ => by
    cases h : k.entry with
    | none => exact ⟨fun ⟨h1, h2, h3, _⟩ => ⟨h1, h2, h3, fun _ hx => absurd hx (by simp)⟩, fun _ _ hx => absurd hx (by simp)⟩
    | some e => exact .withEntry h (.tick e)
  reader := optRel_map fun r _ => .mapCapture fun _ h => h
  chip := optRel_map fun _ _ => id

theorem Serves.tickLine : Serves p (p.tickLine l) :=
  .forContexts _ (fun c q => by
    split
    · exact .modCtx (.tick _) (.inl rfl)
    · exact .refl q) p

theorem Serves.expire (x : Expiry) : Serves p (p.expire x) := by
  cases x
  · exact .entryExpiry _
  · exact .armExpiry ..
  · exact .limitExpiry ..
  · exact .atrExpiry ..
  · exact .responseExpiry ..

theorem Serves.expireFirst (first : List Expiry) : Serves p (p.expireFirst l first) :=
  .foldl _ _ (fun q x => by
    split
    · exact .expire q x
    · exact .refl q) p

theorem Serves.openFrame : Serves p (p.openFrame l) := .modLine ⟨rfl, rfl, rfl, rfl, rfl, rfl, rfl, Iff.rfl, fun _ => rfl⟩

end

end Sys2Proof.Machine
end

section
/-! PROOFS. The requests that serve (chapters 4, 6 to 10): what the checks of each have found when they pass, and that its effect serves. -/

namespace Sys2Proof.Machine

open Sys2Proof.Safety

/-! ### Checks that pass -/

section
variable {α β : Type} {code : RefusalCode} {field : Nat}

theorem want_ok {o : Option α} {a : α} : want o code field = .ok a ↔ o = some a := by
  cases o <;> simp [want]

theorem need_ok {c : Prop} [Decidable c] {u : Unit} : need c code field = .ok u ↔ c := by
  by_cases h : c <;> simp [need, h]

theorem bind_ok {x : Check α} {k : α → Check β} {b : β} : (x >>= k) = .ok b ↔ ∃ a, x = .ok a ∧ k a = .ok b := by
  cases x with
  | error r => simp [bind, Except.bind]
  | ok a => simp [bind, Except.bind]

theorem pure_ok {a b : α} : (pure a : Check α) = .ok b ↔ a = b := by simp [pure, Except.pure]

theorem map_ok {x : Check α} {f : α → β} {b : β} : x.map f = .ok b ↔ ∃ a, x = .ok a ∧ f a = b := by
  cases x <;> simp [Except.map]

/-- A request leaves the part as it was, or takes its effect on what its checks found. -/
theorem judge_keeps {R : Part → Part → Prop} {p : Part} {check : Check α} {run : α → Part × Items} (refl : R p p)
    (h : ∀ a, check = .ok a → R p (run a).1) : R p (judge p check run).1 := by
  cases check with
  | error r => exact refl
  | ok a => exact h a rfl

end

section
variable {p : Part} {pos : Nat}

theorem checkEntryFields_found {f : EntryFields} {t : EntryTaken} (h : checkEntryFields f = .ok t) :
    t.min ≤ t.max ∧ t.max ≤ 32 := by
  simp only [checkEntryFields, bind_ok, want_ok, need_ok] at h
  obtain ⟨kind, -, -, -, -, hmax, -, hle, h⟩ := h
  have ht : t.min = f.min ∧ t.max = f.max := by
    split at h <;> simp only [bind_ok, want_ok, pure_ok] at h <;> obtain ⟨-, -, -, -, rfl⟩ := h <;> exact ⟨rfl, rfl⟩
  have h32 : f.max ≤ 32 := by
    cases kind <;> simp only [EntryKind.bounds, Bool.and_eq_true, decide_eq_true_eq] at hmax <;> omega
  omega

theorem checkOpenEntry_found {f : EntryFields} {i : PosId} {c : CtxId} {t : EntryTaken} (h : p.checkOpenEntry pos f = .ok (i, c, t)) :
    (p.position i).keypad = some c ∧ (p.ctx c).attach = .attached ∧ p.takesClaims c = true ∧ (p.ctx c).holder = none ∧
    p.queue.canReserve 1 = true ∧ t.min ≤ t.max ∧ t.max ≤ 32 := by
  simp only [Part.checkOpenEntry, bind_ok, want_ok, need_ok, pure_ok] at h
  obtain ⟨i', -, t', ht, c', hc, -, ha, -, hcl, -, hh, -, hr, he⟩ := h
  cases he
  exact ⟨hc, ha, hcl, by simpa using hh, hr, checkEntryFields_found ht⟩

theorem checkCancelEntry_found {i : PosId} {c : CtxId} {e : Entry} (h : p.checkCancelEntry pos = .ok (i, c, e)) :
    (p.position i).keypad = some c ∧ (p.ctx c).holder = some i ∧ (p.ctx c).entry = some e := by
  simp only [Part.checkCancelEntry, bind_ok, want_ok, need_ok, pure_ok] at h
  obtain ⟨i', -, c', hc, -, hh, e', he, heq⟩ := h
  cases heq
  exact ⟨hc, hh, he⟩

theorem checkArmReader_found {mask : Nat} {i : PosId} {c : CtxId} {m : TrackSet} (h : p.checkArmReader pos mask = .ok (i, c, m)) :
    (p.position i).reader = some c ∧ (p.ctx c).attach = .attached ∧ p.takesClaims c = true ∧ (p.ctx c).holder = none ∧
    (p.ctx c).session = .off ∧ p.queue.canReserve 1 = true := by
  simp only [Part.checkArmReader, bind_ok, want_ok, need_ok, pure_ok] at h
  obtain ⟨i', -, m', -, c', hc, -, ha, -, hcl, -, ⟨hh, hs⟩, -, hr, he⟩ := h
  cases he
  exact ⟨hc, ha, hcl, by simpa using hh, hs, hr⟩

theorem checkDisarmReader_found {i : PosId} {c : CtxId} {u : Capture} (h : p.checkDisarmReader pos = .ok (i, c, u)) :
    (p.position i).reader = some c ∧ (p.ctx c).capture = some u ∧ (p.ctx c).holder = some i := by
  simp only [Part.checkDisarmReader, bind_ok, want_ok, need_ok, pure_ok] at h
  obtain ⟨i', -, c', hc, u', hu, -, hh, he⟩ := h
  cases he
  exact ⟨hc, hu, hh⟩

theorem checkChipStart_found {i : PosId} {c : CtxId} (h : p.checkChipStart pos = .ok (i, c)) :
    (p.position i).reader = some c ∧ (p.ctx c).kind = some .readerHybrid ∧ (p.ctx c).attach = .attached ∧ p.takesClaims c = true ∧
    (p.ctx c).holder = none ∧ (p.ctx c).cardReady = true ∧ p.queue.canReserve 2 = true := by
  simp only [Part.checkChipStart, bind_ok, want_ok, need_ok, pure_ok] at h
  obtain ⟨i', -, c', hc, -, hk, -, ha, -, hcl, -, hh, -, hcard, -, hr, he⟩ := h
  cases he
  exact ⟨hc, hk, ha, hcl, by simpa using hh, hcard, hr⟩

theorem checkChipExchange_found {command : List Byte} {i : PosId} {c : CtxId} (h : p.checkChipExchange pos command = .ok (i, c)) :
    (4 ≤ command.length ∧ command.length ≤ 261) ∧ (p.position i).reader = some c ∧ (p.ctx c).session = .ready ∧
    (p.ctx c).holder = some i ∧ p.queue.canReserve 1 = true := by
  simp only [Part.checkChipExchange, bind_ok, want_ok, need_ok, pure_ok] at h
  obtain ⟨i', -, -, hl, c', hc, -, hs, -, hh, -, hr, he⟩ := h
  cases he
  exact ⟨hl, hc, hs, hh, hr⟩

theorem checkChipStop_found {i : PosId} {c : CtxId} (h : p.checkChipStop pos = .ok (i, c)) :
    (p.position i).reader = some c ∧ (p.ctx c).session ≠ .off ∧ (p.ctx c).holder = some i := by
  simp only [Part.checkChipStop, bind_ok, want_ok, need_ok, pure_ok] at h
  obtain ⟨i', -, c', hc, -, hs, -, hh, he⟩ := h
  cases he
  exact ⟨hc, hs, hh⟩

theorem checkReleaseCard_found {i : PosId} {c : CtxId} (h : p.checkReleaseCard pos = .ok (i, c)) :
    (p.position i).reader = some c ∧ (p.ctx c).kind = some .readerHybrid ∧ (p.ctx c).attach = .attached ∧ (p.ctx c).session = .off := by
  simp only [Part.checkReleaseCard, bind_ok, want_ok, need_ok, pure_ok] at h
  obtain ⟨i', -, c', hc, -, hk, -, ha, -, hs, he⟩ := h
  cases he
  exact ⟨hc, hk, ha, hs⟩

theorem target_found {α : Type} {part : Option α} {ptr : Option CtxId} {write : α → Image → Image} {beep : α → Option Nat} {ts : List Target}
    (h : p.target part ptr write beep = .ok ts) :
    (part = none ∧ ts = []) ∨ ∃ a c, part = some a ∧ ptr = some c ∧ ts = [{ ctx := c, image := write a (p.ctx c).image, beep := beep a }] := by
  cases part with
  | none => exact .inl ⟨rfl, (Except.ok.inj h).symm⟩
  | some a =>
    simp only [Part.target, map_ok, want_ok] at h
    obtain ⟨c, hc, rfl⟩ := h
    exact .inr ⟨a, c, rfl, hc, rfl⟩

theorem checkIndicators_found {keypad : Option KeypadPart} {reader : Option ReaderPart} {ts : List Target}
    (h : p.checkIndicators pos keypad reader = .ok ts) : ∃ (i : PosId) (ks rs : List Target), ts = ks ++ rs ∧
      p.target keypad (p.position i).keypad writeKeypadPart (·.beep) = .ok ks ∧
      p.target reader (p.position i).reader writeReaderPart (·.beep) = .ok rs ∧
      (∀ t ∈ ts, p.mayWrite i t = true) ∧ ∀ t ∈ ts, p.beepFits t = true := by
  simp only [Part.checkIndicators, bind_ok, want_ok, need_ok, pure_ok] at h
  obtain ⟨i, -, -, -, -, -, -, -, ks, hk, rs, hr, -, hw, -, hb, rfl⟩ := h
  exact ⟨i, ks, rs, rfl, hk, hr, List.all_eq_true.mp hw, List.all_eq_true.mp hb⟩

/-- The last checks of LOOP START, those of the state. -/
theorem loopStart_state {ls ls' : List LineId} {s s' : LoopSetup}
    (h : (do
      need (ls.all fun l => (p.line l).state == .run && (p.line l).loop.state == .noTest) .wrongState
      need (ls.all fun l => (p.contextsOn l).all fun c => (p.ctx c).holder.isNone) .busy
      need (p.queue.canReserve ls.length) .noResultRoom
      pure (ls, s) : Check (List LineId × LoopSetup)) = .ok (ls', s')) :
    ls' = ls ∧ (∀ l ∈ ls, (p.line l).state = .run ∧ (p.line l).loop.state = .noTest) ∧
    (∀ l ∈ ls, ∀ c, (p.ctx c).lineId = some l → (p.ctx c).holder = none) ∧ p.queue.canReserve ls.length = true := by
  simp only [bind_ok, need_ok, pure_ok] at h
  obtain ⟨-, hst, -, hho, -, hr, he⟩ := h
  cases he
  refine ⟨rfl, fun l hl => by simpa using List.all_eq_true.mp hst l hl, fun l hl c hc => ?_, hr⟩
  have := List.all_eq_true.mp (List.all_eq_true.mp hho l hl) c
    (List.mem_filter.mpr ⟨mem_allCtx c, (Context.onLine_iff l _).mpr hc⟩)
  simpa using this

theorem checkLoopStart_found {lines : Nat} {f : LoopFields} {ls : List LineId} {s : LoopSetup} (h : p.checkLoopStart lines f = .ok (ls, s)) :
    readLines lines = some ls ∧ (∀ l ∈ ls, (p.line l).state = .run ∧ (p.line l).loop.state = .noTest) ∧
    (∀ l ∈ ls, ∀ c, (p.ctx c).lineId = some l → (p.ctx c).holder = none) ∧ p.queue.canReserve ls.length = true := by
  simp only [Part.checkLoopStart, bind_ok, want_ok, need_ok] at h
  obtain ⟨ls', hls, -, -, h⟩ := h
  suffices hs : ls = ls' ∧ (∀ l ∈ ls', (p.line l).state = .run ∧ (p.line l).loop.state = .noTest) ∧
      (∀ l ∈ ls', ∀ c, (p.ctx c).lineId = some l → (p.ctx c).holder = none) ∧ p.queue.canReserve ls'.length = true by
    obtain ⟨rfl, hst, hho, hr⟩ := hs
    exact ⟨hls, hst, hho, hr⟩
  split at h
  all_goals
    obtain ⟨_, _, h⟩ := bind_ok.mp h
    obtain ⟨_, _, h⟩ := bind_ok.mp h
    obtain ⟨_, _, h⟩ := bind_ok.mp h
    split at h
    all_goals
      obtain ⟨_, _, h⟩ := bind_ok.mp h
      exact loopStart_state h

theorem checkLoopStop_found {lines : Nat} {ls : List LineId} (h : p.checkLoopStop lines = .ok ls) :
    readLines lines = some ls ∧ ∀ l ∈ ls, (p.line l).inLoopTest = true := by
  simp only [Part.checkLoopStop, bind_ok, want_ok, need_ok, pure_ok] at h
  obtain ⟨ls', hls, -, hst, rfl⟩ := h
  exact ⟨hls, List.all_eq_true.mp hst⟩

end

/-! ### Images -/

theorem SameShape.symm : ∀ {i j : Image}, SameShape i j → SameShape j i
  | .blank, .blank, _ => trivial
  | .keypad .., .keypad .., _ => trivial
  | .reader _, .reader _, _ => trivial

theorem sameShape_writeText (img : Image) (t : List Byte) : SameShape img (img.writeText t) := by cases img <;> trivial

theorem sameShape_writeReaderPart (r : ReaderPart) (img : Image) : SameShape img (writeReaderPart r img) := by cases img <;> trivial

theorem sameShape_writeKeypadPart (k : KeypadPart) (img : Image) : SameShape img (writeKeypadPart k img) := by
  cases img <;> cases h : k.text <;> simp [writeKeypadPart, h, Image.writeText, SameShape]

theorem CtxServes.writeImage {x : Context} {img : Image} (h : SameShape x.image img) : CtxServes x (x.writeImage img) := by
  unfold Context.writeImage
  split
  · exact .refl x
  · exact ⟨rfl, Iff.rfl, Iff.rfl, h, fun ⟨h1, h2, h3, h4, _⟩ => ⟨h1, h2, h3, h4, Nat.zero_le _⟩, optRel_refl .refl _, optRel_refl .refl _,
      optRel_refl .refl _⟩

theorem CtxServes.writePrompt (x : Context) (o : Option (List Byte)) : CtxServes x (x.writePrompt o) := by
  unfold Context.writePrompt
  split
  · exact .writeImage (sameShape_writeText _ _)
  · exact .refl x

theorem Context.holder_writeImage (x : Context) (img : Image) : (x.writeImage img).holder = x.holder := by
  unfold Context.writeImage; split <;> rfl

theorem Context.controls_writeImage (x : Context) (img : Image) : (x.writeImage img).controls = x.controls := by
  unfold Context.writeImage; split <;> rfl

theorem Context.attach_writeImage (x : Context) (img : Image) : (x.writeImage img).attach = x.attach := by
  unfold Context.writeImage; split <;> rfl

/-- A beep joins a queue with a place for it. -/
theorem CtxServes.takeBeep {x : Context} {o : Option Nat} (h : o.isSome = true → x.attach = .attached → x.controls.length ≤ 7) :
    CtxServes x (x.takeBeep o) := by
  unfold Context.takeBeep
  split
  · split
    · rename_i ha
      refine .of_service rfl rfl rfl rfl rfl rfl fun ⟨_, hs⟩ => ⟨?_, hs⟩
      have := h rfl ha
      simp only [List.length_append, List.length_singleton]
      omega
    · exact .refl x
  · exact .refl x

theorem Context.holder_takeBeep (x : Context) (o : Option Nat) : (x.takeBeep o).holder = x.holder := by
  unfold Context.takeBeep
  split
  · split <;> rfl
  · rfl

theorem Serves.indicate {p : Part} {t : Target} (hi : SameShape (p.ctx t.ctx).image t.image)
    (hb : t.beep.isSome = true → (p.ctx t.ctx).attach = .attached → (p.ctx t.ctx).controls.length ≤ 7) : Serves p (p.indicate t) := by
  refine .modCtx ((CtxServes.writeImage hi).trans (.takeBeep ?_)) (.inl ?_)
  · rwa [Context.attach_writeImage, Context.controls_writeImage]
  · rw [Context.holder_takeBeep, Context.holder_writeImage]

theorem beepFits_iff {p : Part} {t : Target} : p.beepFits t = true ↔
    (t.beep.isSome = true → (p.ctx t.ctx).attach = .attached → (p.ctx t.ctx).controls.length ≤ 5) := by
  simp only [Part.beepFits, Config.beepPlaces, Bool.or_eq_true, bne_iff_ne, Option.isNone_iff_eq_none,
    Option.isSome_iff_ne_none]
  by_cases h1 : t.beep = none <;> by_cases h2 : (p.ctx t.ctx).attach = .attached <;>
    simp only [h1, h2, ne_eq, not_true, not_false_iff, true_or, false_or, or_false, forall_const, false_implies, Nat.lt_succ_iff, decide_eq_true_eq]

/-- What writing one target makes of another one's context: the image keeps its shape, and the queue is one beep longer at most. -/
theorem ctx_indicate (p : Part) (t : Target) (d : CtxId) (hi : SameShape (p.ctx t.ctx).image t.image) :
    SameShape (p.ctx d).image ((p.indicate t).ctx d).image ∧ ((p.indicate t).ctx d).attach = (p.ctx d).attach ∧
    ((p.indicate t).ctx d).controls.length ≤ (p.ctx d).controls.length + 1 := by
  by_cases hd : d = t.ctx
  · subst hd
    simp only [Part.indicate, Part.ctx_modCtx_self, Context.takeBeep, Context.writeImage]
    split
    · split
      · split
        · exact ⟨.refl _, rfl, by simp⟩
        · exact ⟨.refl _, rfl, by simp⟩
      · split
        · exact ⟨hi, rfl, by simp⟩
        · exact ⟨hi, rfl, by simp⟩
    · split
      · exact ⟨.refl _, rfl, by simp⟩
      · exact ⟨hi, rfl, by simp⟩
  · simp [Part.indicate, hd, SameShape.refl]

/-! ### The requests -/

section
variable (p : Part)

theorem Serves.setIndicators (pos : Nat) (keypad : Option KeypadPart) (reader : Option ReaderPart) :
    Serves p (serveSetIndicators pos keypad reader p).1 := by
  refine judge_keeps (.refl p) fun ts hts => ?_
  obtain ⟨i, ks, rs, rfl, hk, hr, -, hb⟩ := checkIndicators_found hts
  rcases target_found hk with ⟨-, rfl⟩ | ⟨a, c, -, -, rfl⟩ <;> rcases target_found hr with ⟨-, rfl⟩ | ⟨b, d, -, -, rfl⟩
  · exact .refl p
  · exact .indicate (sameShape_writeReaderPart ..) fun h1 h2 => Nat.le_trans (beepFits_iff.mp (hb _ (by simp)) h1 h2) (by decide)
  · exact .indicate (sameShape_writeKeypadPart ..) fun h1 h2 => Nat.le_trans (beepFits_iff.mp (hb _ (by simp)) h1 h2) (by decide)
  · have hs : SameShape (p.ctx c).image (writeKeypadPart a (p.ctx c).image) := sameShape_writeKeypadPart ..
    obtain ⟨h1, h2, h3⟩ := ctx_indicate p { ctx := c, image := writeKeypadPart a (p.ctx c).image, beep := a.beep } d hs
    refine (Serves.indicate hs fun h1 h2 => Nat.le_trans (beepFits_iff.mp (hb _ (by simp)) h1 h2) (by decide)).trans
      (.indicate (h1.symm.trans (sameShape_writeReaderPart ..)) fun g1 g2 => ?_)
    have := beepFits_iff.mp (hb { ctx := d, image := writeReaderPart b (p.ctx d).image, beep := b.beep } (by simp)) g1 (h2 ▸ g2)
    simp only at this h3 ⊢
    omega

theorem entryBuf_record {t : EntryTaken} (h : t.min ≤ t.max ∧ t.max ≤ 32) (i : PosId) (line : Line) (form : ScanForm) :
    EntryBuf (t.record i line form) := ⟨h.1, h.2, Nat.zero_le _, Nat.zero_le _⟩

theorem entrySecure_record (t : EntryTaken) (i : PosId) (line : Line) (form : ScanForm) : EntrySecure (t.record i line form) := by
  refine ⟨fun _ => rfl, ?_⟩
  cases h : t.kind <;> simp [EntryTaken.record, Entry.digitCount, h]

theorem CtxServes.openEntry (x : Context) {t : EntryTaken} (h : t.min ≤ t.max ∧ t.max ≤ 32) (i : PosId) (line : Line)
    (prompt : Option (List Byte)) : CtxServes x (x.openEntry i t line prompt) := by
  have hp := CtxServes.writePrompt x prompt
  refine ⟨hp.profile, hp.parked, hp.free, hp.shape, hp.service, optRel_map fun k _ => ?_, hp.reader, hp.chip⟩
  constructor
  · rintro ⟨h1, h2, h3, -⟩
    refine ⟨h1, h2, h3, fun e he => ?_⟩
    cases he
    exact entryBuf_record h ..
  · intro _ e he
    cases he
    exact entrySecure_record ..

/-- A change of one context that makes a position its holder which names it. -/
theorem Serves.claim {p : Part} {c : CtxId} {i : PosId} {f : Context → Context} (h : CtxServes (p.ctx c) (f (p.ctx c)))
    (hh : (f (p.ctx c)).holder = some i) (hn : Names p i c) : Serves p (p.modCtx c f) :=
  .setCtx h fun j hj => .inr (by
    rw [hh] at hj
    cases hj
    exact hn)

theorem names_reserve (r : Reservation) {i : PosId} {c : CtxId} (h : Names p i c) : Names (p.reserve r) i c := by
  simpa [Names] using h

theorem Serves.openEntryRequest (pos : Nat) (f : EntryFields) : Serves p (serveOpenEntry pos f p).1 := by
  refine judge_keeps (.refl p) fun ⟨i, c, t⟩ h => ?_
  obtain ⟨hc, -, -, -, -, hb⟩ := checkOpenEntry_found h
  exact (Serves.reserve p (.entry c)).trans
    (.claim (f := fun x => x.openEntry i t (p.lineOf c) f.prompt) (.openEntry _ hb ..) rfl (names_reserve p _ (.inr hc)))

theorem Serves.cancelEntry (pos : Nat) : Serves p (serveCancelEntry pos p).1 :=
  judge_keeps (.refl p) fun _ _ => .endEntry ..

theorem CtxServes.arm (x : Context) (i : PosId) (m : TrackSet) (timer : Option Nat) : CtxServes x (x.arm i m timer) := by
  refine ⟨rfl, Iff.rfl, Iff.rfl, .refl _, id, optRel_refl .refl _, optRel_map fun r _ => ?_, optRel_refl .refl _⟩
  refine fun _ => ⟨Nat.zero_le _, fun u hu => ?_⟩
  cases hu
  intro t ht
  obtain ⟨n, -, rfl⟩ := List.mem_map.mp ht
  exact .start ..

theorem Serves.armReader (pos mask : Nat) (timeout : Option Nat) : Serves p (serveArmReader pos mask timeout p).1 := by
  refine judge_keeps (.refl p) fun ⟨i, c, m⟩ h => ?_
  obtain ⟨hc, -⟩ := checkArmReader_found h
  exact (Serves.reserve p (.capture c)).trans
    (.claim (f := fun x => x.arm i m ((p.lineOf c).startTimer (takeTimeout timeout))) (.arm ..) rfl (names_reserve p _ (.inl hc)))

theorem Serves.disarmReader (pos : Nat) : Serves p (serveDisarmReader pos p).1 :=
  judge_keeps (.refl p) fun _ _ => .endCapture ..

theorem Serves.chipStart (pos : Nat) : Serves p (serveChipStart pos p).1 := by
  refine judge_keeps (.refl p) fun ⟨i, c⟩ h => ?_
  obtain ⟨hc, -⟩ := checkChipStart_found h
  refine (Serves.reserveAll p [.chipStart c, .chipEnd c]).trans (.claim (i := i)
    (f := fun x => x.startChip i ((p.lineOf c).startTimer Config.atrWaitMs)) ?_ rfl (names_reserve _ _ (names_reserve p _ (.inl hc))))
  exact ⟨rfl, Iff.rfl, Iff.rfl, .refl _, id, optRel_refl .refl _, optRel_refl .refl _,
    optRel_map fun h _ => fun ⟨_, hr, hl, _⟩ => ⟨Nat.zero_le _, hr, hl, Nat.zero_le _⟩⟩

theorem Serves.chipExchange (pos : Nat) (command : List Byte) : Serves p (serveChipExchange pos command p).1 := by
  refine judge_keeps (.refl p) fun ⟨i, c⟩ h => ?_
  obtain ⟨⟨-, hl⟩, -⟩ := checkChipExchange_found h
  exact (Serves.reserve p _).trans (.modChip fun x _ => fun ⟨ha, _, _, _⟩ => ⟨ha, Nat.zero_le _, hl, satInc_le _⟩)

theorem Serves.chipStop (pos : Nat) : Serves p (serveChipStop pos p).1 :=
  judge_keeps (.refl p) fun _ _ => .cutSession ..

theorem Serves.releaseCard (pos : Nat) : Serves p (serveReleaseCard pos p).1 :=
  judge_keeps (.refl p) fun _ _ => .modChip fun _ _ => id

theorem LineServes.requestStop (x : Line) : LineServes x x.requestStop := by
  unfold Line.requestStop
  split
  · exact .refl x
  · rename_i h
    exact ⟨rfl, rfl, rfl, rfl, rfl, rfl, rfl, Iff.rfl, fun e => absurd e h⟩

theorem Serves.lineStop (lines : Nat) : Serves p (serveLineStop lines p).1 :=
  judge_keeps (.refl p) fun ls _ => Serves.foldl ls _ (fun q l => .modLine (.requestStop (q.line l))) p

theorem Serves.loopStart (lines : Nat) (f : LoopFields) : Serves p (serveLoopStart lines f p).1 :=
  judge_keeps (.refl p) fun x _ => (Serves.reserveAll p _).trans (Serves.foldl x.1 _ (fun q l => .modLoop q l _) _)

theorem Serves.loopStop (lines : Nat) : Serves p (serveLoopStop lines p).1 :=
  judge_keeps (.refl p) fun ls _ => Serves.foldl ls _ (fun q l => .modLoop q l _) p

theorem Serves.setLevels (kind level : Nat) : Serves p (serveSetLevels kind level p).1 :=
  judge_keeps (.refl p) fun _ _ => .setQueue id id

/-- A setting turns no detection of LINE_DRIVE off (R151). -/
theorem readSetting_found {x : ClassSetting} {t : SettingTaken} (h : readSetting x = .ok t) :
    t.cls = .lineDrive → t.detect.getD true = true := by
  simp only [readSetting, bind_ok, want_ok, need_ok, pure_ok] at h
  obtain ⟨cls, -, -, -, d, -, r, -, -, hd, rfl⟩ := h
  rintro rfl
  cases d with
  | none => rfl
  | some b => cases b <;> simp_all

theorem readSettingList_found {xs : List ClassSetting} {ts : List SettingTaken} (h : readSettingList xs = .ok ts) :
    ∀ t ∈ ts, t.cls = .lineDrive → t.detect.getD true = true := by
  induction xs generalizing ts with
  | nil =>
    cases h
    simp
  | cons x xs ih =>
    simp only [readSettingList, bind_ok, pure_ok] at h
    obtain ⟨t, ht, ts', hts, rfl⟩ := h
    intro y hy
    rcases List.mem_cons.mp hy with rfl | hy
    · exact readSetting_found ht
    · exact ih hts y hy

theorem FaultsOk.apply {f : FaultRecord} (h : FaultsOk f) {t : SettingTaken} (ht : t.cls = .lineDrive → t.detect.getD true = true) :
    FaultsOk (f.apply t) := by
  obtain ⟨h1, h2, h3, h4, h5⟩ := h
  refine ⟨fun hf c => ?_, ?_, h3, h4, fun c => ?_⟩
  · simp only [FaultRecord.apply, vector_get_set]
    split
    · exact h1 hf t.cls
    · exact h1 hf c
  · simp only [FaultRecord.apply, vector_get_set, FaultClass.index_inj]
    split
    · rename_i hc
      simp only [ClassRow.set]
      rw [← hc, h2]
      exact ht hc.symm
    · exact h2
  · simp only [FaultRecord.apply, vector_get_set]
    split
    · exact h5 t.cls
    · exact h5 c

theorem FaultsOk.applyAll {ts : List SettingTaken} (ht : ∀ t ∈ ts, t.cls = .lineDrive → t.detect.getD true = true) {f : FaultRecord}
    (h : FaultsOk f) : FaultsOk (ts.foldl FaultRecord.apply f) := by
  induction ts generalizing f with
  | nil => exact h
  | cons t ts ih => exact ih (fun x hx => ht x (by simp [hx])) (h.apply (ht t (by simp)))

theorem Serves.faultSetup (settings : Option (List ClassSetting)) (style : Option Nat) : Serves p (serveFaultSetup settings style p).1 := by
  refine judge_keeps (.refl p) fun ⟨xs, st⟩ h => ?_
  simp only [checkFaultSetup, bind_ok, need_ok, pure_ok] at h
  obtain ⟨-, -, ts, hts, s, -, he⟩ := h
  cases he
  exact .setFaults fun hf => hf.applyAll (readSettingList_found hts)

theorem FaultsOk.cleared {f : FaultRecord} (h : FaultsOk f) : FaultsOk f.cleared := by
  have get (i : Fin 10) : (f.cleared.classes.get i) = { f.classes.get i with count := 0, later := false } := by
    simp [FaultRecord.cleared, vector_get_eq]
  refine ⟨fun _ c => by rw [get], by rw [get]; exact h.2.1, by simp [FaultRecord.cleared], by simp [FaultRecord.cleared], fun c => by
    rw [get]; exact Nat.zero_le _⟩

theorem Serves.clearFaults : Serves p (serveClearFaults p).1 := .setFaults .cleared

end

end Sys2Proof.Machine
end

section
/-! PROOFS. What a step is made of: deeds that serve, and the few that change a line's setup, its state, a schedule, a profile, a pointer or the
message being sent. Every step is such deeds one after another (`deeds_of_partStep`), so that a condition which every deed keeps is kept by every step. -/

namespace Sys2Proof.Machine

open Sys2Proof.Safety

/-! ### Scan counts and activations -/

section
variable (p : Part) (l : LineId)

theorem KeypadKept.withN (k : Keypad) {n : Nat} (h : 1 ≤ n ∧ n ≤ 255) : KeypadKept k { k with n := n } :=
  ⟨fun ⟨_, _, h3, h4⟩ => ⟨h.1, h.2, h3, h4⟩, id⟩

theorem scanCount_bounds (x : Line) (d k : Nat) : 1 ≤ scanCount x d k ∧ scanCount x d k ≤ 255 := by
  unfold scanCount clamp
  omega

theorem Serves.recomputeScan (c : CtxId) (k : Nat) : Serves p (p.recomputeScan c k) := by
  unfold Part.recomputeScan
  split
  · exact .modCtx (.modKeypad fun kp _ => .withN kp (scanCount_bounds ..)) (.inl rfl)
  · exact .refl p

theorem Serves.recomputeLine : Serves p (p.recomputeLine l) :=
  .forContexts _ (fun c q => by
    split
    · exact .recomputeScan ..
    · exact .refl q) p

/-- An activation is the change of the active schedule, and scan counts after it. -/
theorem Serves.activate (s : Schedule) : Serves (p.modLine l fun x => { x with active := s }) (p.activate l s) :=
  .forContexts _ (fun c q => by
    split
    · exact .recomputeScan ..
    · exact .refl q) _

end

/-! ### Contexts that move

A change of attachment that the line or the swap makes: what serving keeps, but for PARKED (R18, R25). -/

structure CtxMoves (x y : Context) : Prop where
  profile : y.profile = x.profile
  free    : (x.attach = .free ↔ x.profile = none) → (y.attach = .free ↔ y.profile = none)
  shape   : SameShape x.image y.image
  service : ServiceBuf x → ServiceBuf y
  keypad  : Option.Rel KeypadKept x.keypad y.keypad
  reader  : Option.Rel ReaderKept x.reader y.reader
  chip    : Option.Rel ChipKept x.chip y.chip

theorem CtxServes.moves {x y : Context} (h : CtxServes x y) : CtxMoves x y :=
  ⟨h.profile, fun hf => by rw [h.free, h.profile, hf], h.shape, h.service, h.keypad, h.reader, h.chip⟩

theorem CtxMoves.trans {x y z : Context} (h : CtxMoves x y) (g : CtxMoves y z) : CtxMoves x z where
  profile := g.profile.trans h.profile
  free := g.free ∘ h.free
  shape := h.shape.trans g.shape
  service := g.service ∘ h.service
  keypad := optRel_trans (R := KeypadKept) (fun _ _ _ => KeypadKept.trans) h.keypad g.keypad
  reader := optRel_trans (R := ReaderKept) (fun _ _ _ => ReaderKept.trans) h.reader g.reader
  chip := optRel_trans (R := ChipKept) (fun _ _ _ => ChipKept.trans) h.chip g.chip

theorem CtxMoves.buf {x y : Context} (h : CtxMoves x y) : CtxBuf x → CtxBuf y := by
  rintro ⟨hs, hk, hr, hc⟩
  refine ⟨h.service hs, fun k' hk' => ?_, fun r' hr' => ?_, fun c' hc' => ?_⟩
  · obtain ⟨k, hx, hkk⟩ := optRel_to h.keypad hk'
    exact hkk.buf (hk k hx)
  · obtain ⟨r, hx, hrr⟩ := optRel_to h.reader hr'
    exact hrr (hr r hx)
  · obtain ⟨c, hx, hcc⟩ := optRel_to h.chip hc'
    exact hcc (hc c hx)

theorem CtxMoves.secure {x y : Context} (h : CtxMoves x y) : CtxSecure x → CtxSecure y := by
  intro hk k' hk'
  obtain ⟨k, hx, hkk⟩ := optRel_to h.keypad hk'
  exact hkk.secure (hk k hx)

/-- A profiled context takes another attachment state than FREE. -/
theorem CtxMoves.attach {x : Context} (hp : x.profile ≠ none) {a : Attach} (ha : a ≠ .free) : CtxMoves x { x with attach := a } :=
  ⟨rfl, fun _ => iff_of_false ha hp, .refl _, id, optRel_refl .refl _, optRel_refl .refl _, optRel_refl .refl _⟩

theorem CtxMoves.moveTo {x : Context} (hp : x.profile ≠ none) {a : Attach} (ha : a ≠ .free) : CtxMoves x (x.moveTo a) := by
  unfold Context.moveTo
  split
  · exact ⟨rfl, fun _ => iff_of_false ha hp, .refl _, fun _ => serviceBuf_clearService x, optRel_refl .refl _, optRel_map fun _ _ => id,
      optRel_map fun _ _ => id⟩
  · exact .attach hp ha

theorem Context.holder_moveTo (x : Context) (a : Attach) : (x.moveTo a).holder = x.holder := by
  unfold Context.moveTo
  split <;> rfl

theorem Context.attach_moveTo (x : Context) (a : Attach) : (x.moveTo a).attach = a := by
  unfold Context.moveTo
  split <;> rfl

structure Moves (p q : Part) : Prop where
  used     : p.queue.used ≤ 32 → q.queue.used ≤ 32
  faults   : FaultsOk p.faults → FaultsOk q.faults
  hides    : Hides p → Hides q
  line     : ∀ l, LineServes (p.line l) (q.line l)
  position : ∀ i, q.position i = p.position i
  ctx      : ∀ c, CtxMoves (p.ctx c) (q.ctx c)
  holder   : ∀ c i, (q.ctx c).holder = some i → (p.ctx c).holder = some i ∨ Names p i c

theorem Serves.moves {p q : Part} (h : Serves p q) : Moves p q :=
  ⟨h.used, h.faults, h.hides, h.line, h.position, fun c => (h.ctx c).moves, h.holder⟩

theorem Moves.trans {p q r : Part} (h : Moves p q) (g : Moves q r) : Moves p r where
  used := g.used ∘ h.used
  faults := g.faults ∘ h.faults
  hides := g.hides ∘ h.hides
  line l := (h.line l).trans (g.line l)
  position i := (g.position i).trans (h.position i)
  ctx c := (h.ctx c).trans (g.ctx c)
  holder c i hi := by
    rcases g.holder c i hi with h1 | h1
    · exact h.holder c i h1
    · exact .inr (by simpa only [Names, h.position] using h1)

theorem Moves.calm {p q : Part} (h : Moves p q) : Calm p q :=
  ⟨h.used, h.faults, h.hides, fun c => (h.ctx c).buf, fun c => (h.ctx c).secure⟩

theorem Moves.modCtx {p : Part} {c : CtxId} {f : Context → Context} (h : CtxMoves (p.ctx c) (f (p.ctx c)))
    (hh : (f (p.ctx c)).holder = (p.ctx c).holder) : Moves p (p.modCtx c f) where
  used := id
  faults := id
  hides := id
  line _ := .refl _
  position _ := rfl
  ctx d := by
    by_cases hd : d = c
    · subst hd; simpa using h
    · simpa [hd] using (CtxServes.refl _).moves
  holder d i hi := by
    by_cases hd : d = c
    · subst hd
      rw [Part.ctx_modCtx_self, hh] at hi
      exact .inl hi
    · exact .inl (by simpa [hd] using hi)

/-- A pass over contexts that a profile names. -/
theorem Moves.foldl_profiled {f : Part → CtxId → Part} (hf : ∀ q c, (q.ctx c).profile ≠ none → Moves q (f q c)) (cs : List CtxId)
    (p : Part) (h : ∀ c ∈ cs, (p.ctx c).profile ≠ none) : Moves p (cs.foldl f p) := by
  induction cs generalizing p with
  | nil => exact (Serves.refl p).moves
  | cons c cs ih =>
    have h1 := hf p c (h c (by simp))
    exact h1.trans (ih _ fun d hd => by rw [(h1.ctx d).profile]; exact h d (by simp [hd]))

theorem Moves.foldl {α : Type} (l : List α) (f : Part → α → Part) (h : ∀ q a, Moves q (f q a)) (p : Part) : Moves p (l.foldl f p) := by
  induction l generalizing p with
  | nil => exact (Serves.refl p).moves
  | cons a l ih => exact (h p a).trans (ih _)

section
variable (p : Part) (l : LineId)

theorem profile_of_lineId {x : Context} (h : x.lineId = some l) : x.profile ≠ none := by
  intro e
  simp [Context.lineId, e] at h

theorem profile_of_mem_contextsOn {c : CtxId} (h : c ∈ p.contextsOn l) : (p.ctx c).profile ≠ none :=
  profile_of_lineId l ((Context.onLine_iff l _).mp (List.mem_filter.mp h).2)

theorem Moves.park (why : Cause) {c : CtxId} (h : (p.ctx c).profile ≠ none) :
    Moves p ((p.endOps c why).modCtx c fun x => x.moveTo .parked) := by
  have he := Serves.endOps p c why
  exact he.moves.trans (.modCtx (.moveTo (by rw [(he.ctx c).profile]; exact h) nofun) (Context.holder_moveTo ..))

theorem Moves.parkForSwap {c : CtxId} (h : (p.ctx c).profile ≠ none) : Moves p (p.parkForSwap l c) :=
  (Moves.park p .unscheduled h).trans (Serves.modLoop ..).moves

theorem Moves.gain {c : CtxId} (h : (p.ctx c).profile ≠ none) : Moves p (p.modCtx c fun x => { x with attach := .waiting }) :=
  .modCtx (.attach h nofun) rfl

/-- The schedule of a swap is active, and no other waits. -/
def Part.swapped (l : LineId) (new : Schedule) : Part := (p.activate l new).modLine l fun x => { x with waiting := none }

/-- The swap is a change of schedules, and moves of the contexts that lose or gain their slots (R25). -/
theorem moves_swapTo (new : Schedule) : Moves (p.swapped l new) (p.swapTo l new) := by
  have same (c : CtxId) : ((p.swapped l new).ctx c).profile = (p.ctx c).profile := by
    simp only [Part.swapped, Part.ctx_modLine, ((Serves.activate p l new).ctx c).profile]
  have losers : ∀ c ∈ p.swapLosers l (p.line l).active new, ((p.swapped l new).ctx c).profile ≠ none := fun c hc => by
    rw [same]
    exact profile_of_mem_contextsOn p l (List.mem_filter.mp hc).1
  have gainers : ∀ c ∈ p.swapGainers l (p.line l).active new, ((p.swapped l new).ctx c).profile ≠ none := fun c hc => by
    rw [same]
    exact profile_of_mem_contextsOn p l (List.mem_filter.mp hc).1
  have h1 := Moves.foldl_profiled (fun q c h => Moves.parkForSwap q l h) _ (p.swapped l new) losers
  have h2 := Moves.foldl_profiled (fun q c h => Moves.gain q h) _ _ fun c hc => by
    rw [(h1.ctx c).profile]
    exact gainers c hc
  refine (h1.trans h2).trans (Serves.offerAll fun r hr => ?_).moves
  obtain ⟨c, -, rfl⟩ := List.mem_map.mp hr
  rfl

theorem idle_swapTo (new : Schedule) : ((p.swapTo l new).line l).state = .idle ↔ (p.line l).state = .idle := by
  rw [((moves_swapTo p l new).line l).idle]
  simp [Part.swapped]

end

/-! ### Deeds -/

/-- One deed of a step. -/
inductive Deed : Part → Part → Prop
  | serves {p q : Part} (h : Serves p q) : Deed p q
  | send (p : Part) : Deed p p.sendStart
  | reset (p : Part) (phase : Phase) (kind : ResetKind) (pins : StrapPins) (f : FaultRecord) (h : FaultsOk p.faults → FaultsOk f) :
      Deed p (p.reset phase kind pins f)
  | bind (p : Part) {pos : Nat} {reader keypad : Option Nat} {i : PosId} {r k : Option (Option CtxId)}
      (h : p.checkBind pos reader keypad = .ok (i, r, k)) :
      Deed p (p.setPosition i { reader := r.getD (p.position i).reader, keypad := k.getD (p.position i).keypad })
  | setup (p : Part) {line rate slots : Nat} {l : LineId} {r : BitRate} (h : p.checkLineSetup line rate slots = .ok (l, r)) (pmin : Nat) :
      Deed p (p.modLine l fun x => x.setup r slots (takePmin pmin))
  | start (p : Part) (l : LineId) (h : (p.line l).state = .idle) : Deed p (p.startLine l)
  | load (p : Part) {line : Nat} {entries : List Nat} {l : LineId} {s : Schedule} (h : p.checkLoadSchedule line entries = .ok (l, s))
      (hi : (p.line l).state = .idle) : Deed p (p.modLine l fun x => { x with active := s })
  | wait (p : Part) {line : Nat} {entries : List Nat} {l : LineId} {s : Schedule} (h : p.checkLoadSchedule line entries = .ok (l, s))
      (hi : (p.line l).state ≠ .idle) : Deed p (p.modLine l fun x => { x with waiting := some s })
  | profile (p : Part) {ctx : Nat} {f : ProfileFields} {c : CtxId} {pr : Profile} (h : p.checkDropProfile ctx f = .ok (c, pr)) :
      Deed p (p.profile c pr)
  | release (p : Part) {ctx : Nat} {c : CtxId} (h : p.checkDropRelease ctx = .ok c) : Deed p (p.releaseCtx c)
  | swap (p : Part) (l : LineId) {new : Schedule} (hi : (p.line l).state ≠ .idle) (hw : (p.line l).waiting = some new) :
      Deed p (p.swapTo l new)
  | idle (p : Part) (l : LineId) (why : LineReason) : Deed p (p.enterIdle l why)

/-- One deed after another, from the first part to the last. -/
inductive Deeds : Part → Part → Prop
  | refl {p : Part} : Deeds p p
  | tail {p q r : Part} : Deeds p q → Deed q r → Deeds p r

theorem Deeds.single {p q : Part} (h : Deed p q) : Deeds p q := .tail .refl h

theorem Deeds.trans {p q r : Part} (h : Deeds p q) (g : Deeds q r) : Deeds p r := by
  induction g with
  | refl => exact h
  | tail _ hd ih => exact .tail ih hd

theorem Deeds.head {p q r : Part} (h : Deed p q) (g : Deeds q r) : Deeds p r := (Deeds.single h).trans g

theorem Deeds.of {p q : Part} (h : Deed p q) : Deeds p q := .single h

theorem Deeds.serves {p q : Part} (h : Serves p q) : Deeds p q := .single (.serves h)

/-- A condition that every deed keeps. -/
theorem Deeds.keeps {I : Part → Prop} (h : ∀ p q, Deed p q → I p → I q) {p q : Part} (hd : Deeds p q) (hp : I p) : I q := by
  induction hd with
  | refl => exact hp
  | tail _ hd ih => exact h _ _ hd ih

/-! ### Requests -/

section
variable (p : Part)

theorem checkLineSetup_found {line rate slots : Nat} {l : LineId} {r : BitRate} (h : p.checkLineSetup line rate slots = .ok (l, r)) :
    (2 ≤ slots ∧ slots ≤ 16) ∧ (p.line l).state = .idle := by
  simp only [Part.checkLineSetup, bind_ok, want_ok, need_ok, pure_ok] at h
  obtain ⟨l', -, r', -, -, hs, -, hi, he⟩ := h
  cases he
  exact ⟨hs, hi⟩

theorem checkLineStart_found {lines : Nat} {ls : List LineId} (h : p.checkLineStart lines = .ok ls) :
    readLines lines = some ls ∧ ∀ l ∈ ls, (p.line l).state = .idle := by
  simp only [Part.checkLineStart, bind_ok, want_ok, need_ok, pure_ok] at h
  obtain ⟨ls', hls, -, hi, rfl⟩ := h
  exact ⟨hls, fun l hl => by simpa using List.all_eq_true.mp hi l hl⟩

theorem checkLoadSchedule_found {line : Nat} {entries : List Nat} {l : LineId} {s : Schedule}
    (h : p.checkLoadSchedule line entries = .ok (l, s)) :
    readLine line = some l ∧ entries.length = (p.line l).slots ∧ readAll readEntry entries = some s ∧ p.namesOwn l s = true := by
  simp only [Part.checkLoadSchedule, bind_ok, want_ok, need_ok, pure_ok] at h
  obtain ⟨l', hl, -, hlen, s', hs, -, hn, he⟩ := h
  cases he
  exact ⟨hl, hlen, hs, hn⟩

theorem checkBind_found {pos : Nat} {reader keypad : Option Nat} {i : PosId} {r k : Option (Option CtxId)}
    (h : p.checkBind pos reader keypad = .ok (i, r, k)) :
    p.mayPoint .reader (r.getD none) = true ∧ p.mayPoint .keypad (k.getD none) = true ∧
    p.holdsThrough i (p.position i).reader = false ∧ p.holdsThrough i (p.position i).keypad = false := by
  simp only [Part.checkBind, bind_ok, want_ok, need_ok, pure_ok] at h
  obtain ⟨i', -, -, -, r', -, k', -, -, hr, -, hk, -, ⟨h1, h2⟩, he⟩ := h
  cases he
  exact ⟨hr, hk, by simpa using h1, by simpa using h2⟩

theorem checkDropRelease_found {ctx : Nat} {c : CtxId} (h : p.checkDropRelease ctx = .ok c) :
    readCtx ctx = some c ∧ ((p.ctx c).attach = .free ∨ (p.ctx c).attach = .parked) := by
  simp only [Part.checkDropRelease, bind_ok, want_ok, need_ok, pure_ok] at h
  obtain ⟨c', hc, -, ha, rfl⟩ := h
  exact ⟨hc, ha⟩

/-- The lines a request names are A, B, or both, A first (R15). -/
theorem readLines_nodup {lines : Nat} {ls : List LineId} (h : readLines lines = some ls) : ls.Nodup := by
  unfold readLines at h
  split at h <;> cases h <;> simp

theorem line_startLine_ne {l m : LineId} (h : m ≠ l) : (p.startLine l).line m = p.line m := by
  have hk := Part.forContexts_keeps (p.modLine l fun x => { x with
      state := .run, frame := 0, stopPending := false, calls := p.slotCalls l, nextSlot := 0, inSlot := none })
    (fun c q => if (q.ctx c).onLine l ∧ 0 < slotCount (q.line l).active c then q.modCtx c fun x => { x with attach := .waiting } else q)
    (fun q => q.line m) (fun c q => by split <;> simp)
  exact hk.trans (by simp [h])

theorem Deeds.startLines {ls : List LineId} (hn : ls.Nodup) (hi : ∀ l ∈ ls, (p.line l).state = .idle) : Deeds p (ls.foldl Part.startLine p) := by
  induction ls generalizing p with
  | nil => exact .refl
  | cons l ls ih =>
    have hl := List.nodup_cons.mp hn
    rw [List.foldl_cons]
    refine (Deeds.of (.start p l (hi l (by simp)))).trans (ih (p.startLine l) hl.2 fun m hm => ?_)
    have hne : m ≠ l := by
      rintro rfl
      exact hl.1 hm
    rw [line_startLine_ne p hne]
    exact hi m (by simp [hm])

/-- Every request is deeds. -/
theorem deeds_serve (r : Request) : Deeds p (serve r p).1 := by
  cases r <;> simp only [serve]
  case status => exact .refl
  case restart => exact .serves (.setLink fun t r n h hw => ⟨t, h, hw⟩)
  case lineSetup line rate slots pmin =>
    refine judge_keeps (R := Deeds) .refl fun ⟨l, r⟩ h => ?_
    dsimp only
    exact (Deeds.of (.setup p h pmin)).trans (Deeds.serves (.recomputeLine _ l))
  case lineStart lines =>
    refine judge_keeps (R := Deeds) .refl fun ls h => ?_
    obtain ⟨hls, hi⟩ := checkLineStart_found p h
    refine (Deeds.startLines p (readLines_nodup hls) hi).trans (Deeds.serves (.offerAll fun r hr => ?_))
    obtain ⟨l, -, rfl⟩ := List.mem_map.mp hr
    rfl
  case lineStop => exact .serves (.lineStop ..)
  case loadSchedule line entries =>
    refine judge_keeps (R := Deeds) .refl fun ⟨l, s⟩ h => ?_
    by_cases hi : (p.line l).state = .idle
    · simp only [hi, if_true]
      exact (Deeds.of (.load p h hi)).trans (Deeds.serves (.activate p l s))
    · simp only [hi, if_false]
      exact Deeds.of (.wait p h hi)
  case readSchedule => exact judge_keeps (R := Deeds) .refl fun _ _ => .refl
  case bindPosition => exact judge_keeps (R := Deeds) .refl fun x h => .single (.bind p h)
  case setIndicators => exact .serves (.setIndicators ..)
  case openEntry => exact .serves (.openEntryRequest ..)
  case cancelEntry => exact .serves (.cancelEntry ..)
  case armReader => exact .serves (.armReader ..)
  case disarmReader => exact .serves (.disarmReader ..)
  case dropProfile => exact judge_keeps (R := Deeds) .refl fun x h => .single (.profile p h)
  case dropRelease => exact judge_keeps (R := Deeds) .refl fun x h => .single (.release p h)
  case chipStart => exact .serves (.chipStart ..)
  case chipExchange => exact .serves (.chipExchange ..)
  case chipStop => exact .serves (.chipStop ..)
  case releaseCard => exact .serves (.releaseCard ..)
  case setLevels => exact .serves (.setLevels ..)
  case faultSetup => exact .serves (.faultSetup ..)
  case readFaults => exact .refl
  case clearFaults => exact .serves (.clearFaults p)
  case loopStart => exact .serves (.loopStart ..)
  case loopStop => exact .serves (.loopStop ..)
  case readLoopResults => exact judge_keeps (R := Deeds) .refl fun _ _ => .refl

/-! ### The link -/

/-- A change of the link that leaves the message being sent, or sends none. -/
theorem Serves.modLink {f : Link → Link} (h : (f p.link).tx = p.link.tx ∨ (f p.link).tx = none) : Serves p (p.modLink f) :=
  .setLink fun t r n ht hw => by
    rcases h with h | h
    · exact ⟨t, h ▸ ht, hw⟩
    · rw [h] at ht
      cases ht

theorem Serves.linkError (e : LinkError) : Serves p (p.linkError e) :=
  (Serves.modLink p (f := fun k => k.countError e) (.inl rfl)).trans (EvServes.finish (.detect _ _))

theorem deeds_take (m : Message) : Deeds p (p.take m) := by
  refine .trans (q := (p.judgeMessage m).1) ?_ (Deeds.serves ?_)
  case refine_2 =>
    unfold Part.take
    exact .modLink _ (.inl rfl)
  unfold Part.judgeMessage
  split
  · exact .refl
  · exact deeds_serve ..

theorem deeds_receive (m : Message) : Deeds p (p.receive m) := by
  unfold Part.receive
  split
  · exact .refl
  · split
    · exact deeds_take p m
    · split
      · exact .serves (.modLink p (.inl rfl))
      · exact .serves (.linkError p _)

theorem deeds_takeByte (b : Byte) : Deeds p (p.takeByte b) := by
  have drop (rx : List Byte) : Serves p (p.modLink fun k => { k with rx := rx }) := .modLink p (.inl rfl)
  unfold Part.takeByte
  split
  · exact .refl
  · split
    · split
      · exact .serves (drop _)
      · exact .refl
    · simp only
      split
      · exact .serves ((drop _).trans (.linkError _ _))
      · split
        · split
          · exact .head (.serves (drop _)) (deeds_receive _ _)
          · exact .serves ((drop _).trans (.linkError _ _))
        · exact .serves (drop _)

theorem deeds_takeBytes (bs : List Byte) : Deeds p (bs.foldl Part.takeByte p) := by
  induction bs generalizing p with
  | nil => exact .refl
  | cons b bs ih => exact (deeds_takeByte p b).trans (ih _)

theorem deeds_messageSent (pins : StrapPins) : Deeds p (p.messageSent pins) := by
  unfold Part.messageSent
  split
  · exact .refl
  · split
    · exact .refl
    · split
      · exact .serves (.modLink p (.inr rfl))
      · split
        · exact .single (.reset p _ _ _ _ id)
        · refine .head (.serves (.modLink p (f := fun k => { k with tx := none, inHand := false }) (.inr rfl))) ?_
          unfold Part.takeHeld
          split
          · exact .head (.serves (.modLink _ (.inl rfl))) (deeds_take ..)
          · exact Deeds.serves (.modLink _ (.inl rfl))

theorem Serves.changeCts (level : CtsLevel) : Serves p (p.modLink fun k => k.changeCts level) := by
  refine .setLink fun t r n ht hw => ?_
  cases level with
  | asserted => exact ⟨t, ht, hw⟩
  | negated m =>
    simp only [Link.changeCts] at ht
    split at ht
    · obtain ⟨t', ht', rfl⟩ := Option.map_eq_some_iff.mp ht
      exact ⟨t', ht', hw⟩
    · exact ⟨t, ht, hw⟩

theorem faultsOk_fresh : FaultsOk .fresh := by
  refine ⟨fun _ c => ?_, rfl, by simp [FaultRecord.fresh], by simp [FaultRecord.fresh], fun c => ?_⟩
  · cases c <;> rfl
  · cases c <;> decide

/-! ### The lines -/

theorem Serves.startupEnd : Serves p p.startupEnd := by
  unfold Part.startupEnd
  split
  · exact (Serves.modLink p (.inl rfl)).trans (.offer rfl)
  · exact .refl p

theorem deeds_swapMark (l : LineId) (h : (p.line l).state ≠ .idle) : Deeds p (p.swapMark l) := by
  unfold Part.swapMark
  split
  · exact .single (.swap p l h ‹_›)
  · exact .refl

theorem deeds_enterIdle_offer (l : LineId) (why : LineReason) (r : Rec) (hr : hidesDigits r = true) : Deeds p ((p.enterIdle l why).offer r) :=
  .head (.idle p l why) (Deeds.serves (.offer hr))

/-- The message sent, the line and the Fault Record of a trip. -/
theorem deeds_driverTrip (l : LineId) : Deeds p (p.driverTrip l) := by
  have tripped : Serves p (p.modLine l fun x => { x with driverTripped := true }) := .modLine ⟨rfl, rfl, rfl, rfl, rfl, rfl, rfl, Iff.rfl, fun _ => rfl⟩
  unfold Part.driverTrip
  simp only
  split
  · exact .serves tripped
  · exact .head (.serves tripped) (.head (.idle _ l .driverFault) (Deeds.serves (EvServes.finish ((EvServes.detect _ _).trans (.close rfl)))))

theorem deeds_frameMark (l : LineId) (first : List Expiry) (order : MarkOrder) : Deeds p (p.frameMark l first order) := by
  unfold Part.frameMark
  split
  · rename_i h
    have hi : (p.line l).state ≠ .idle := by
      simp only [Line.markInTurn, Bool.and_eq_true, decide_eq_true_eq] at h
      exact h.1.1.1
    have counted : Serves p ((((p.modLine l fun x => { x with frame := x.frame + 1, nextSlot := 0 }).tickLine l).expireFirst l first)) :=
      ((Serves.modLine ⟨rfl, rfl, rfl, rfl, rfl, rfl, rfl, Iff.rfl, fun _ => rfl⟩).trans (.tickLine ..)).trans (.expireFirst ..)
    have hi' := fun e => hi ((counted.line l).idle.mp e)
    refine .head (.serves counted) (.trans (q := Part.markEvents _ l order) ?_ (Deeds.serves (.openFrame ..)))
    cases order with
    | swapFirst =>
      refine (deeds_swapMark _ l hi').trans (Deeds.serves (.testMark _ l ?_))
      unfold Part.swapMark
      split
      · exact fun e => hi' ((idle_swapTo ..).mp e)
      · exact hi'
    | testFirst =>
      have tested := Serves.testMark _ l hi'
      exact .head (.serves tested) (deeds_swapMark _ l fun e => hi' ((tested.line l).idle.mp e))
  · exact .refl

/-- Every step is deeds. -/
theorem deeds_of_partStep {p q : Part} (h : PartStep p q) : Deeds p q := by
  cases h
  case idle => exact .refl
  case request tag r => exact deeds_receive ..
  case bytes bs => exact deeds_takeBytes ..
  case gap =>
    unfold Part.gapTimeout
    split
    · exact .serves ((Serves.modLink p (.inl rfl)).trans (.linkError _ _))
    · exact .refl
  case sendStart => exact .single (.send p)
  case sent pins => exact deeds_messageSent ..
  case restart pins =>
    unfold Part.restartTimeout
    split
    · exact .single (.reset p _ _ _ _ id)
    · exact .refl
  case cts level => exact .serves (.changeCts ..)
  case powerUp cause pins => exact .single (.reset p _ _ _ _ fun _ => faultsOk_fresh)
  case release pins =>
    unfold Part.resetRelease
    split
    · exact .single (.reset p _ _ _ _ id)
    · exact .refl
  case startup => exact .serves (.startupEnd p)
  case mark l first order => exact deeds_frameMark ..
  case slotStart l i => exact .serves (.slotStart ..)
  case slotEnd l i up => exact .serves (.slotCompletion ..)
  case expiry x => exact .serves (.expire ..)
  case frameEnd l =>
    unfold Part.stoppedFrameEnd
    split
    · exact deeds_enterIdle_offer p l _ _ rfl
    · exact .refl
  case trip l => exact deeds_driverTrip ..
  case cleared l => exact .serves (.modLine ⟨rfl, rfl, rfl, rfl, rfl, rfl, rfl, Iff.rfl, fun _ => rfl⟩)

end

end Sys2Proof.Machine
end

section
/-! PROOFS. The Event Queue, the Fault Record, the buffers and the PIN digits (O55, O57): every deed is calm. -/

namespace Sys2Proof.Machine

open Sys2Proof.Safety

/-! ### Single changes -/

section
variable {p : Part}

theorem Calm.refl (p : Part) : Calm p p := (Serves.refl p).calm

theorem Calm.modCtx {c : CtxId} {f : Context → Context} (hb : CtxBuf (p.ctx c) → CtxBuf (f (p.ctx c)))
    (hs : CtxSecure (p.ctx c) → CtxSecure (f (p.ctx c))) : Calm p (p.modCtx c f) where
  used := id
  faults := id
  hides := id
  buf d := by
    by_cases hd : d = c
    · subst hd; simpa using hb
    · simp [hd]
  secure d := by
    by_cases hd : d = c
    · subst hd; simpa using hs
    · simp [hd]

theorem Calm.modLine (l : LineId) (f : Line → Line) : Calm p (p.modLine l f) := by
  refine ⟨?_, ?_, ?_, fun c => ?_, fun c => ?_⟩ <;> simp [Hides]

theorem Calm.setPosition (i : PosId) (x : Position) : Calm p (p.setPosition i x) := ⟨id, id, id, fun _ => id, fun _ => id⟩

theorem Calm.foldl {α : Type} (l : List α) (f : Part → α → Part) (h : ∀ q a, Calm q (f q a)) (p : Part) : Calm p (l.foldl f p) := by
  induction l generalizing p with
  | nil => exact .refl p
  | cons a l ih => exact (h p a).trans (ih _)

theorem Calm.forContexts (f : CtxId → Part → Part) (h : ∀ c q, Calm q (f c q)) (p : Part) : Calm p (p.forContexts f) :=
  Calm.foldl allCtx _ (fun q c => h c q) p

end

/-! ### The deeds -/

section
variable (p : Part)

theorem calm_sendStart : Calm p p.sendStart := by
  unfold Part.sendStart
  split
  · exact .refl p
  · split
    · refine ⟨id, id, fun h => ⟨h.1, fun t r n ht hw => ?_⟩, fun _ => id, fun _ => id⟩
      cases ht
      cases hw
    · split
      · exact .refl p
      · split
        · rename_i r hr
          refine ⟨fun h => ?_, id, fun h => ⟨fun x hx => h.1 x (List.mem_of_mem_eraseP hx), fun t x n ht hw => ?_⟩, fun _ => id, fun _ => id⟩
          · have := List.length_eraseP_le (p := fun r => r.level == highestLevel p.queue.records) (l := p.queue.records)
            simp only [Part.setQueue, EventQueue.used, EventQueue.drained] at h ⊢
            omega
          · cases ht
            cases hw
            exact h.1 _ (List.mem_of_find?_eq_some hr)
        · exact .refl p

theorem ctxBuf_free : CtxBuf .free :=
  ⟨by simp [ServiceBuf, Context.free], fun _ h => absurd h (by simp [Context.free]), fun _ h => absurd h (by simp [Context.free]),
    fun _ h => absurd h (by simp [Context.free])⟩

theorem ctxSecure_free : CtxSecure .free := fun _ h => absurd h (by simp [Context.free])

theorem calm_reset (phase : Phase) (kind : ResetKind) (pins : StrapPins) {f : FaultRecord} (h : FaultsOk p.faults → FaultsOk f) :
    Calm p (p.reset phase kind pins f) where
  used _ := by simp [Part.reset, EventQueue.used, EventQueue.fresh]
  faults := h
  hides _ := ⟨by simp [Part.reset, EventQueue.fresh], by simp [Part.reset, Link.afterReset, Link.afterPowerUp]⟩
  buf c _ := by simpa using ctxBuf_free
  secure c _ := by simpa using ctxSecure_free

theorem calm_startLine (l : LineId) : Calm p (p.startLine l) :=
  (Calm.modLine l _).trans (Calm.forContexts _ (fun c q => by
    split
    · exact .modCtx id id
    · exact .refl q) _)

theorem calm_clearPointer (c : CtxId) (why : ClearCause) (ptr : PointerKind) (i : PosId) : Calm p (p.clearPointer c why ptr i) := by
  unfold Part.clearPointer
  split
  · exact (Calm.setPosition ..).trans (Serves.offer rfl).calm
  · exact .refl p

theorem calm_clearPointers (c : CtxId) (why : ClearCause) (ptrs : List PointerKind) : Calm p (p.clearPointers c why ptrs) :=
  Calm.foldl _ _ (fun q i => Calm.foldl _ _ (fun q ptr => calm_clearPointer q c why ptr i) q) p

theorem ctxBuf_asKind (k : DropKind) : CtxBuf (Context.free.asKind k) := by
  have hs : ServiceBuf (Context.free.asKind k) := ctxBuf_free.1
  refine ⟨hs, fun kp h => ?_, fun r h => ?_, fun ch h => ?_⟩
  · simp only [Context.asKind] at h
    split at h
    · cases h
      exact ⟨Nat.le_refl _, by decide, length_allUp _, fun _ h => absurd h (by simp [Keypad.fresh])⟩
    · cases h
  · simp only [Context.asKind] at h
    split at h
    · cases h
      exact ⟨Nat.zero_le _, fun _ h => absurd h (by simp [Reader.fresh])⟩
    · cases h
  · simp only [Context.asKind] at h
    split at h
    · cases h
      exact chipBuf_fresh
    · cases h

theorem ctxSecure_asKind (k : DropKind) : CtxSecure (Context.free.asKind k) := by
  intro kp h
  simp only [Context.asKind] at h
  split at h
  · cases h
    exact fun _ h => absurd h (by simp [Keypad.fresh])
  · cases h

theorem calm_profiled (c : CtxId) (pr : Profile) : Calm p (p.modCtx c (·.profiled pr)) := by
  refine .modCtx ?_ ?_ <;> unfold Context.profiled <;> split
  · exact fun _ => ctxBuf_asKind pr.kind
  · simp only
    split
    · exact id
    · exact fun _ => ctxBuf_asKind pr.kind
  · exact fun _ => ctxSecure_asKind pr.kind
  · simp only
    split
    · exact id
    · exact fun _ => ctxSecure_asKind pr.kind

/-- A profiling but for the scan count that follows it (R42, R43). -/
def Part.identified (c : CtxId) (pr : Profile) : Part :=
  let p1 := match (p.ctx c).profile with
    | some old => if old.line = pr.line then p else p.purge old.line c
    | none => p
  let p2 := p1.modCtx c (·.profiled pr)
  match (p.ctx c).profile with
  | some old => if old.kind = pr.kind then p2 else p2.clearPointers c .kindChanged [pr.kind.wrongPointer]
  | none => p2

theorem serves_identified (c : CtxId) (pr : Profile) : Serves (p.identified c pr) (p.profile c pr) := Serves.recomputeScan _ c _

theorem calm_identified (c : CtxId) (pr : Profile) : Calm p (p.identified c pr) := by
  unfold Part.identified
  cases (p.ctx c).profile with
  | none => exact calm_profiled p c pr
  | some old =>
    simp only
    refine Calm.trans (q := (if old.line = pr.line then p else p.purge old.line c).modCtx c (·.profiled pr)) (.trans ?_ (calm_profiled _ c pr)) ?_
    · split
      · exact .refl p
      · exact .modLine ..
    · by_cases hk : old.kind = pr.kind
      · rw [if_pos hk]
        exact .refl _
      · rw [if_neg hk]
        exact calm_clearPointers ..

theorem calm_releaseCtx (c : CtxId) : Calm p (p.releaseCtx c) := by
  unfold Part.releaseCtx
  split
  · exact ((Calm.modLine ..).trans (.modCtx (f := fun _ => .free) (fun _ => ctxBuf_free) fun _ => ctxSecure_free)).trans (calm_clearPointers ..)
  · exact .refl p

theorem calm_activate (l : LineId) (s : Schedule) : Calm p (p.activate l s) := (Calm.modLine ..).trans (Serves.activate p l s).calm

theorem calm_swapTo (l : LineId) (new : Schedule) : Calm p (p.swapTo l new) :=
  ((calm_activate p l new).trans (.modLine ..)).trans (moves_swapTo p l new).calm

/-- The tests and the operations of a line that enters IDLE end, and its contexts go to PARKED (R18). -/
theorem moves_parkLine (l : LineId) (why : Cause) : Moves p ((p.abortTest l).parkLine l why) :=
  (Serves.abortTest p l).moves.trans (Moves.foldl allCtx (fun q c => if (q.ctx c).onLine l then q.parkForIdle why c else q)
    (fun q c => by
      split
      · exact Moves.park q why (profile_of_lineId l ((Context.onLine_iff l _).mp ‹_›))
      · exact (Serves.refl q).moves) _)

theorem calm_enterIdle (l : LineId) (why : LineReason) : Calm p (p.enterIdle l why) := by
  refine ((moves_parkLine p l why.cause).calm.trans ?_).trans (.modLine ..)
  unfold Part.activateWaiting
  split
  · exact (calm_activate ..).trans (.modLine ..)
  · exact .refl _

end

theorem Deed.calm {p q : Part} (h : Deed p q) : Calm p q := by
  cases h
  case serves h => exact h.calm
  case send => exact calm_sendStart p
  case reset phase kind pins f h => exact calm_reset p phase kind pins h
  case bind => exact .setPosition ..
  case setup => exact .modLine ..
  case start => exact calm_startLine ..
  case load => exact .modLine ..
  case wait => exact .modLine ..
  case profile => exact (calm_identified ..).trans (serves_identified ..).calm
  case release => exact calm_releaseCtx ..
  case swap => exact calm_swapTo ..
  case idle => exact calm_enterIdle ..

/-- Every step is calm. -/
theorem calm_of_step {s t : State} (h : step s = .next t) : Calm s.part t.part := by
  have hd := deeds_of_partStep (partStep_of_step h)
  generalize t.part = q at hd
  induction hd with
  | refl => exact .refl _
  | tail _ hd ih => exact ih.trans hd.calm

/-- The sizes of every context, block by block. -/
theorem buffersSound_iff {s : State} : BuffersSound s ↔ ∀ c, CtxBuf (s.part.ctx c) := by
  refine forall_congr' fun c => ⟨?_, ?_⟩
  · rintro ⟨h1, h2, h3, h4, h5, hk, he, hr, hu, hc⟩
    refine ⟨⟨h1, h2, h3, h4, h5⟩, fun k hkp => ?_, fun r hrd => ⟨hr r hrd, fun u hcap => ?_⟩, hc⟩
    · obtain ⟨k1, k2, k3⟩ := hk k hkp
      exact ⟨k1, k2, k3, fun e hen => he e (by rw [Context.entry_eq hkp, hen])⟩
    · exact hu u (by rw [Context.capture_eq hrd, hcap])
  · rintro ⟨⟨h1, h2, h3, h4, h5⟩, hk, hr, hc⟩
    refine ⟨h1, h2, h3, h4, h5, fun k hkp => ?_, fun e he => ?_, fun r hrd => (hr r hrd).1, fun u hu => ?_, hc⟩
    · obtain ⟨k1, k2, k3, -⟩ := hk k hkp
      exact ⟨k1, k2, k3⟩
    · obtain ⟨k, hkp, hen⟩ := Option.bind_eq_some_iff.mp he
      exact (hk k hkp).2.2.2 e hen
    · obtain ⟨r, hrd, hcap⟩ := Option.bind_eq_some_iff.mp hu
      exact (hr r hrd).2 u hcap

theorem secureSound_iff {s : State} : SecureSound s ↔ (∀ c, CtxSecure (s.part.ctx c)) ∧ Hides s.part := by
  refine and_congr ⟨fun h c k hk e he => ?_, fun h c e he => ?_⟩ Iff.rfl
  · exact h c e (by rw [Context.entry_eq hk, he])
  · obtain ⟨k, hk, hen⟩ := Option.bind_eq_some_iff.mp he
    exact h c k hk e hen

/-- Settles O55: every deed of a step is calm. -/
theorem queueAndFaultsStaySound : Obligations.QueueAndFaultsStaySound := by
  unfold Obligations.QueueAndFaultsStaySound
  intro s t h
  have hc := calm_of_step h
  refine ⟨hc.used, hc.faults, fun hb => ?_⟩
  exact buffersSound_iff.mpr fun c => hc.buf c (buffersSound_iff.mp hb c)

/-- Settles O57: every deed of a step is calm. -/
theorem secureStaysSound : Obligations.SecureStaysSound := by
  unfold Obligations.SecureStaysSound
  intro s t hs h
  have hc := calm_of_step h
  obtain ⟨h1, h2⟩ := secureSound_iff.mp hs
  exact secureSound_iff.mpr ⟨fun c => hc.secure c (h1 c), hc.hides h2⟩

end Sys2Proof.Machine
end

section
/-! PROOFS. Contexts, profiles, pointers and holders (O58). Most deeds leave profiles, pointers and the shape of every context as they were, and
give no context a holder whose pointers do not name it (`Shifts`); the others are BIND POSITION, DROP PROFILE, DROP RELEASE and the resets. What
the deeds that move contexts make of attachment states and lines is stated here once. -/

namespace Sys2Proof.Machine

open Sys2Proof.Safety

/-- A part as a state, with no command waiting. -/
abbrev Part.st (p : Part) : State := { part := p, pending := [] }

/-! ### Pointers cleared (R61) -/

section
variable (p : Part) (c : CtxId) (why : ClearCause)

theorem Position.ext_pointer {x y : Position} (h : ∀ k, x.pointer k = y.pointer k) : x = y := by
  cases x
  cases y
  have h1 := h .reader
  have h2 := h .keypad
  simp only [Position.pointer] at h1 h2
  rw [h1, h2]

theorem Position.pointer_clear (x : Position) (ptr k : PointerKind) : (x.clear ptr).pointer k = if k = ptr then none else x.pointer k := by
  cases ptr <;> cases k <;> rfl

@[simp] theorem Part.ctx_clearPointer (ptr : PointerKind) (i : PosId) (d : CtxId) : (p.clearPointer c why ptr i).ctx d = p.ctx d := by
  unfold Part.clearPointer; split <;> simp

@[simp] theorem Part.line_clearPointer (ptr : PointerKind) (i : PosId) (l : LineId) : (p.clearPointer c why ptr i).line l = p.line l := by
  unfold Part.clearPointer; split <;> simp

theorem Part.pointer_clearPointer (ptr : PointerKind) (i j : PosId) (k : PointerKind) : ((p.clearPointer c why ptr i).position j).pointer k =
    if j = i ∧ k = ptr ∧ (p.position j).pointer k = some c then none else (p.position j).pointer k := by
  unfold Part.clearPointer
  by_cases hj : j = i
  · subst hj
    split
    · rename_i h
      simp only [Part.position_offer, Part.position_setPosition_self, Position.pointer_clear, true_and]
      by_cases hk : k = ptr
      · subst hk
        simp [h]
      · simp [hk]
    · rename_i h
      by_cases hk : k = ptr
      · subst hk
        simp [h]
      · simp [hk]
  · split <;> simp [hj]

theorem Part.pointer_foldl_clearPointer (ptrs : List PointerKind) (i j : PosId) (k : PointerKind) :
    ((ptrs.foldl (fun q ptr => q.clearPointer c why ptr i) p).position j).pointer k =
    if j = i ∧ k ∈ ptrs ∧ (p.position j).pointer k = some c then none else (p.position j).pointer k := by
  induction ptrs generalizing p with
  | nil => simp
  | cons ptr ptrs ih =>
    rw [List.foldl_cons, ih, Part.pointer_clearPointer]
    by_cases hj : j = i <;> by_cases hk : k = ptr <;> by_cases hp : (p.position j).pointer k = some c <;> by_cases hm : k ∈ ptrs <;>
      simp [hj, hk, hp, hm]

theorem mem_allPos (i : PosId) : i ∈ allPos := by revert i; decide

/-- What the clearing of pointers makes of each of them. -/
theorem Part.pointer_clearPointers (ptrs : List PointerKind) (j : PosId) (k : PointerKind) :
    ((p.clearPointers c why ptrs).position j).pointer k =
    if k ∈ ptrs ∧ (p.position j).pointer k = some c then none else (p.position j).pointer k := by
  have key (is : List PosId) (q : Part) : ((is.foldl (fun q i => ptrs.foldl (fun q ptr => q.clearPointer c why ptr i) q) q).position j).pointer k =
      if j ∈ is ∧ k ∈ ptrs ∧ (q.position j).pointer k = some c then none else (q.position j).pointer k := by
    induction is generalizing q with
    | nil => simp
    | cons i is ih =>
      rw [List.foldl_cons, ih, Part.pointer_foldl_clearPointer]
      by_cases hj : j = i <;> by_cases hk : k ∈ ptrs <;> by_cases hp : (q.position j).pointer k = some c <;> by_cases hm : j ∈ is <;>
        simp [hj, hk, hp, hm]
  unfold Part.clearPointers
  rw [key]
  simp [mem_allPos]

theorem Part.foldl_same {α β : Type} (g : Part → β) (l : List α) (f : Part → α → Part) (h : ∀ q a, g (f q a) = g q) : g (l.foldl f p) = g p := by
  induction l generalizing p with
  | nil => rfl
  | cons a l ih => exact (ih (f p a)).trans (h p a)

@[simp] theorem Part.ctx_clearPointers (ptrs : List PointerKind) (d : CtxId) : (p.clearPointers c why ptrs).ctx d = p.ctx d :=
  Part.foldl_same p (·.ctx d) _ _ fun q i => Part.foldl_same q (·.ctx d) _ _ fun q ptr => by simp

@[simp] theorem Part.line_clearPointers (ptrs : List PointerKind) (l : LineId) : (p.clearPointers c why ptrs).line l = p.line l :=
  Part.foldl_same p (·.line l) _ _ fun q i => Part.foldl_same q (·.line l) _ _ fun q ptr => by simp

end

/-! ### Profiling and release (R42 to R44) -/

section
variable (p : Part) (c : CtxId)

@[simp] theorem Part.ctx_purge (l : LineId) (d : CtxId) : (p.purge l c).ctx d = p.ctx d := by simp [Part.purge]

@[simp] theorem Part.position_purge (l : LineId) (i : PosId) : (p.purge l c).position i = p.position i := by simp [Part.purge]

theorem Part.line_purge (l m : LineId) : (p.purge l c).line m =
    if m = l then { p.line m with active := withoutContext c (p.line m).active, waiting := (p.line m).waiting.map (withoutContext c) }
    else p.line m := by
  by_cases h : m = l
  · subst h; simp [Part.purge]
  · simp [Part.purge, h]

/-- Profiling changes one context. -/
theorem Part.ctx_identified (pr : Profile) (d : CtxId) : (p.identified c pr).ctx d = if d = c then (p.ctx c).profiled pr else p.ctx d := by
  have h (q : Part) (hq : ∀ d, q.ctx d = p.ctx d) : (q.modCtx c (·.profiled pr)).ctx d = if d = c then (p.ctx c).profiled pr else p.ctx d := by
    by_cases hd : d = c
    · subst hd; simp [hq]
    · simp [hd, hq]
  unfold Part.identified
  split
  · rename_i old _
    simp only
    split
    · split <;> exact h _ (by simp)
    · split <;> simp only [Part.ctx_clearPointers] <;> exact h _ (by simp)
  · exact h p fun _ => rfl

/-- A context that changes its line leaves the schedules of the line it had (R28). -/
theorem Part.line_identified (pr : Profile) (m : LineId) : (p.identified c pr).line m =
    if ∃ old, (p.ctx c).profile = some old ∧ old.line ≠ pr.line ∧ m = old.line then (p.purge m c).line m else p.line m := by
  unfold Part.identified
  split
  · rename_i old ho
    simp only
    by_cases hl : old.line = pr.line
    · split <;> simp [hl, ho]
    · by_cases hm : m = old.line
      · subst hm
        split <;> simp [hl, ho]
      · split <;> simp [hl, ho, hm, Part.line_purge]
  · simp_all

/-- A context that changes its kind is left by the pointers of the wrong kind (R61). -/
theorem Part.pointer_identified (pr : Profile) (i : PosId) (k : PointerKind) : ((p.identified c pr).position i).pointer k =
    if (∃ old, (p.ctx c).profile = some old ∧ old.kind ≠ pr.kind) ∧ k = pr.kind.wrongPointer ∧ (p.position i).pointer k = some c then none
    else (p.position i).pointer k := by
  unfold Part.identified
  split
  · rename_i old ho
    simp only
    by_cases hk : old.kind = pr.kind
    · rw [if_pos hk]
      split <;> simp [ho, hk]
    · rw [if_neg hk, Part.pointer_clearPointers]
      split <;> simp [ho, hk]
  · simp_all

theorem Part.ctx_releaseCtx (d : CtxId) : (p.releaseCtx c).ctx d =
    if d = c ∧ (p.ctx c).profile ≠ none then .free else p.ctx d := by
  unfold Part.releaseCtx
  split
  · rename_i h
    by_cases hd : d = c
    · subst hd; simp [h]
    · simp [hd]
  · simp_all

theorem Part.line_releaseCtx (m : LineId) : (p.releaseCtx c).line m =
    if (p.ctx c).lineId = some m then (p.purge m c).line m else p.line m := by
  unfold Part.releaseCtx
  split
  · rename_i pr h
    by_cases hm : pr.line = m
    · subst hm; simp [Context.lineId, h]
    · simp [Context.lineId, h, hm, Part.line_purge, Ne.symm hm]
  · rename_i h
    simp [Context.lineId, h]

theorem Part.pointer_releaseCtx (i : PosId) (k : PointerKind) : ((p.releaseCtx c).position i).pointer k =
    if (p.ctx c).profile ≠ none ∧ (p.position i).pointer k = some c then none else (p.position i).pointer k := by
  unfold Part.releaseCtx
  split
  · rename_i h
    rw [Part.pointer_clearPointers]
    cases k <;> simp [h]
  · simp_all

end

/-! ### Lines that start, swap and enter IDLE -/

section
variable (p : Part) (l : LineId)

theorem slotCount_pos {s : Schedule} {c : CtxId} : 0 < slotCount s c ↔ some c ∈ s := List.count_pos_iff

theorem slotCount_eq_zero {s : Schedule} {c : CtxId} : slotCount s c = 0 ↔ some c ∉ s := List.count_eq_zero

/-- The contexts of a started line that have a slot go to WAITING (R15). -/
theorem Part.ctx_startLine (d : CtxId) : (p.startLine l).ctx d =
    if (p.ctx d).lineId = some l ∧ some d ∈ (p.line l).active then { p.ctx d with attach := .waiting } else p.ctx d := by
  unfold Part.startLine
  rw [Part.ctx_forContexts _ d _ fun c x => if x.lineId = some l ∧ some c ∈ (p.line l).active then { x with attach := .waiting } else x]
  · simp
  · intro e q hq
    simp only [Context.onLine_iff, slotCount_pos, hq, Part.line_modLine_self]
    split <;> simp
  · intro e d q _ hne
    split <;> simp [hne]
  · intro e q m
    split <;> simp

theorem Part.line_startLine_self : (p.startLine l).line l =
    { p.line l with state := .run, frame := 0, stopPending := false, calls := p.slotCalls l, nextSlot := 0, inSlot := none } := by
  unfold Part.startLine
  rw [Part.forContexts_keeps _ _ (fun q => q.line l) fun c q => by split <;> simp]
  simp

@[simp] theorem Part.position_startLine (i : PosId) : (p.startLine l).position i = p.position i := by
  unfold Part.startLine
  rw [Part.forContexts_keeps _ _ (fun q => q.position i) fun c q => by split <;> simp]
  simp

/-- A pass that gives its contexts one attachment state. -/
theorem attach_foldl {f : Part → CtxId → Part} {a : Attach} (hf : ∀ q c d, ((f q c).ctx d).attach = if d = c then a else (q.ctx d).attach)
    (cs : List CtxId) (p : Part) (d : CtxId) : ((cs.foldl f p).ctx d).attach = if d ∈ cs then a else (p.ctx d).attach := by
  induction cs generalizing p with
  | nil => simp
  | cons c cs ih =>
    rw [List.foldl_cons, ih, hf]
    by_cases hd : d = c <;> by_cases hm : d ∈ cs <;> simp [hd, hm]

theorem attach_park (why : Cause) (c d : CtxId) :
    (((p.endOps c why).modCtx c fun x => x.moveTo .parked).ctx d).attach = if d = c then .parked else (p.ctx d).attach := by
  by_cases hd : d = c
  · subst hd
    simp [Context.attach_moveTo]
  · simp [hd, (Ends.endOps (p := p) (c := c) why).ctx d hd]

theorem attach_swapped (new : Schedule) (d : CtxId) : ((p.swapped l new).ctx d).attach = (p.ctx d).attach := by
  simp only [Part.swapped, Part.ctx_modLine, Part.ctx_activate]
  split
  · unfold rescanned
    split <;> rfl
  · rfl

/-- The swap parks the contexts that it leaves without a slot, and brings those that it gives one to WAITING (R25). -/
theorem attach_swapTo (new : Schedule) (d : CtxId) : ((p.swapTo l new).ctx d).attach =
    if d ∈ p.swapGainers l (p.line l).active new then .waiting
    else if d ∈ p.swapLosers l (p.line l).active new then .parked else (p.ctx d).attach := by
  unfold Part.swapTo
  simp only [Part.ctx_offerAll]
  rw [attach_foldl (a := .waiting) (fun q c d => by by_cases hd : d = c <;> simp [hd])]
  rw [attach_foldl (a := .parked) (fun q c d => by
    simp only [Part.parkForSwap, Part.modLoop, Part.ctx_modLine]
    exact attach_park q .unscheduled c d)]
  exact congrArg (fun a => ite _ _ (ite _ _ a)) (attach_swapped p l new d)

theorem mem_swapLosers {old new : Schedule} {d : CtxId} : d ∈ p.swapLosers l old new ↔
    (p.ctx d).lineId = some l ∧ some d ∈ old ∧ some d ∉ new ∧ (p.ctx d).attach ≠ .parked := by
  simp only [Part.swapLosers, Part.contextsOn, List.mem_filter, mem_allCtx, true_and, Context.onLine_iff, Bool.and_eq_true, decide_eq_true_eq,
    slotCount_pos, slotCount_eq_zero, beq_iff_eq, bne_iff_ne, and_assoc]

theorem mem_swapGainers {old new : Schedule} {d : CtxId} : d ∈ p.swapGainers l old new ↔
    (p.ctx d).lineId = some l ∧ some d ∉ old ∧ some d ∈ new ∧ (p.ctx d).attach = .parked := by
  simp only [Part.swapGainers, Part.contextsOn, List.mem_filter, mem_allCtx, true_and, Context.onLine_iff, Bool.and_eq_true, decide_eq_true_eq,
    slotCount_pos, slotCount_eq_zero, beq_iff_eq, and_assoc]

theorem attach_endOps (why : Cause) (c d : CtxId) : ((p.endOps c why).ctx d).attach = (p.ctx d).attach := by
  by_cases hd : d = c
  · subst hd
    exact (Ends.endOps why).attach
  · rw [(Ends.endOps (p := p) (c := c) why).ctx d hd]

/-- A line that enters IDLE parks its contexts (R18). -/
theorem attach_parkLine (why : Cause) (d : CtxId) : ((p.parkLine l why).ctx d).attach =
    if (p.ctx d).lineId = some l then .parked else (p.ctx d).attach := by
  have turn (q : Part) (c d : CtxId) : ((if (q.ctx c).onLine l then q.parkForIdle why c else q).ctx d).attach =
      if d = c ∧ (q.ctx c).lineId = some l then .parked else (q.ctx d).attach := by
    by_cases hl : (q.ctx c).lineId = some l
    · rw [if_pos ((Context.onLine_iff l _).mpr hl)]
      simp only [hl, and_true]
      exact attach_park q why c d
    · rw [if_neg fun h => hl ((Context.onLine_iff l _).mp h)]
      simp [hl]
  have same (q : Part) (c d : CtxId) : ((if (q.ctx c).onLine l then q.parkForIdle why c else q).ctx d).lineId = (q.ctx d).lineId := by
    split
    · have moved := Moves.park q why (profile_of_lineId l ((Context.onLine_iff l _).mp ‹_›))
      exact congrArg (Option.map _) (moved.ctx d).profile
    · rfl
  have key (cs : List CtxId) (q : Part) : ((cs.foldl (fun q c => if (q.ctx c).onLine l then q.parkForIdle why c else q) q).ctx d).attach =
      if d ∈ cs ∧ (q.ctx d).lineId = some l then .parked else (q.ctx d).attach := by
    induction cs generalizing q with
    | nil => simp
    | cons c cs ih =>
      rw [List.foldl_cons, ih, same, turn]
      by_cases hd : d = c
      · subst hd
        by_cases hl : (q.ctx d).lineId = some l <;> simp [hl]
      · by_cases hm : d ∈ cs <;> simp [hd, hm]
  unfold Part.parkLine Part.forContexts
  rw [key]
  simp [mem_allCtx]

theorem ctx_abortTest (d : CtxId) : (p.abortTest l).ctx d = p.ctx d := by
  unfold Part.abortTest Part.loopResult Part.modLoop
  split <;> simp

theorem attach_activateWaiting (d : CtxId) : ((p.activateWaiting l).ctx d).attach = (p.ctx d).attach := by
  unfold Part.activateWaiting
  split
  · exact attach_swapped p l _ d
  · rfl

theorem attach_enterIdle (why : LineReason) (d : CtxId) : ((p.enterIdle l why).ctx d).attach =
    if (p.ctx d).lineId = some l then .parked else (p.ctx d).attach := by
  unfold Part.enterIdle
  rw [Part.ctx_modLine, attach_activateWaiting, attach_parkLine, ctx_abortTest]

end

end Sys2Proof.Machine
end

section
/-! PROOFS. Contexts, profiles, pointers and holders stay sound (O58): deed by deed. -/

namespace Sys2Proof.Machine

open Sys2Proof.Safety

/-! ### Deeds that spare profiles and pointers -/

structure Shifts (p q : Part) : Prop where
  position : ∀ i, q.position i = p.position i
  ctx      : ∀ c, CtxMoves (p.ctx c) (q.ctx c)
  holder   : ∀ c i, (q.ctx c).holder = some i → (p.ctx c).holder = some i ∨ Names p i c

theorem Moves.shifts {p q : Part} (h : Moves p q) : Shifts p q := ⟨h.position, h.ctx, h.holder⟩

theorem Shifts.trans {p q r : Part} (h : Shifts p q) (g : Shifts q r) : Shifts p r where
  position i := (g.position i).trans (h.position i)
  ctx c := (h.ctx c).trans (g.ctx c)
  holder c i hi := by
    rcases g.holder c i hi with h1 | h1
    · exact h.holder c i h1
    · exact .inr (by simpa only [Names, h.position] using h1)

theorem CtxMoves.refl (x : Context) : CtxMoves x x := (CtxServes.refl x).moves

theorem Shifts.modLine (p : Part) (l : LineId) (f : Line → Line) : Shifts p (p.modLine l f) :=
  ⟨fun _ => by simp, fun _ => by simpa using .refl _, fun _ _ h => .inl (by simpa using h)⟩

theorem Shifts.startLine (p : Part) (l : LineId) : Shifts p (p.startLine l) where
  position i := by simp
  ctx c := by
    rw [Part.ctx_startLine]
    split
    · exact .attach (profile_of_lineId l (And.left ‹_›)) nofun
    · exact .refl _
  holder c i h := .inl (by
    rw [Part.ctx_startLine] at h
    split at h <;> exact h)

theorem Shifts.activate (p : Part) (l : LineId) (s : Schedule) : Shifts p (p.activate l s) :=
  (Shifts.modLine p l _).trans (Serves.activate p l s).moves.shifts

theorem Shifts.enterIdle (p : Part) (l : LineId) (why : LineReason) : Shifts p (p.enterIdle l why) := by
  refine ((moves_parkLine p l why.cause).shifts.trans ?_).trans (.modLine ..)
  unfold Part.activateWaiting
  split
  · exact (Shifts.activate ..).trans (.modLine ..)
  · exact (Serves.refl _).moves.shifts

theorem Shifts.sendStart (p : Part) : Shifts p p.sendStart := by
  have h : (∀ i, p.sendStart.position i = p.position i) ∧ ∀ c, p.sendStart.ctx c = p.ctx c := by
    unfold Part.sendStart
    split
    · exact ⟨fun _ => rfl, fun _ => rfl⟩
    · split
      · exact ⟨fun _ => rfl, fun _ => rfl⟩
      · split
        · exact ⟨fun _ => rfl, fun _ => rfl⟩
        · split <;> exact ⟨fun _ => rfl, fun _ => rfl⟩
  exact ⟨h.1, fun c => by rw [h.2]; exact .refl _, fun c i hi => .inl (by rwa [h.2] at hi)⟩

theorem Shifts.swapTo (p : Part) (l : LineId) (new : Schedule) : Shifts p (p.swapTo l new) :=
  ((Shifts.activate ..).trans (.modLine ..)).trans (moves_swapTo p l new).shifts

/-- A deed spares profiles and pointers, or it is one of those that set them. -/
theorem Deed.shifts_or {p q : Part} (h : Deed p q) : Shifts p q ∨
    (∃ phase kind pins f, q = p.reset phase kind pins f) ∨
    (∃ pos reader keypad i r k, p.checkBind pos reader keypad = .ok (i, r, k) ∧
      q = p.setPosition i { reader := r.getD (p.position i).reader, keypad := k.getD (p.position i).keypad }) ∨
    (∃ ctx f c pr, p.checkDropProfile ctx f = .ok (c, pr) ∧ q = p.profile c pr) ∨
    ∃ ctx c, p.checkDropRelease ctx = .ok c ∧ q = p.releaseCtx c := by
  cases h
  case serves h => exact .inl h.moves.shifts
  case send => exact .inl (.sendStart p)
  case reset => exact .inr (.inl ⟨_, _, _, _, rfl⟩)
  case bind h => exact .inr (.inr (.inl ⟨_, _, _, _, _, _, h, rfl⟩))
  case setup => exact .inl (.modLine ..)
  case start => exact .inl (.startLine ..)
  case load => exact .inl (.modLine ..)
  case wait => exact .inl (.modLine ..)
  case profile h => exact .inr (.inr (.inr (.inl ⟨_, _, _, _, h, rfl⟩)))
  case release h => exact .inr (.inr (.inr (.inr ⟨_, _, h, rfl⟩)))
  case swap => exact .inl (.swapTo ..)
  case idle => exact .inl (.enterIdle ..)

/-! ### Pointers and holders -/

section
variable {p q : Part}

theorem CtxMoves.kind {x y : Context} (h : CtxMoves x y) : y.kind = x.kind := by simp only [Context.kind, h.profile]

theorem Shifts.pointers (h : Shifts p q) (hp : PointersSound p.st) : PointersSound q.st := by
  intro i c
  simp only [h.position, (h.ctx c).kind]
  exact hp i c

theorem Shifts.holders (h : Shifts p q) (hp : HoldersNamed p.st) : HoldersNamed q.st := by
  intro c i hi
  simp only [h.position]
  rcases h.holder c i hi with h1 | h1
  · exact hp c i h1
  · exact h1

theorem mayPoint_kind {ptr : PointerKind} {c : CtxId} (h : p.mayPoint ptr (some c) = true) :
    (ptr = .keypad ∧ (p.ctx c).kind = some .keypad) ∨
    (ptr = .reader ∧ ((p.ctx c).kind = some .readerStripe ∨ (p.ctx c).kind = some .readerHybrid)) := by
  simp only [Part.mayPoint] at h
  split at h <;> simp_all

/-- The kind that a pointer may name. -/
def KindFits (k : PointerKind) (d : Option DropKind) : Prop :=
  match k with
  | .keypad => d = some .keypad
  | .reader => d = some .readerStripe ∨ d = some .readerHybrid

theorem pointersSound_iff : PointersSound p.st ↔ ∀ i k c, (p.position i).pointer k = some c → KindFits k (p.ctx c).kind := by
  constructor
  · intro h i k c hc
    cases k
    · exact (h i c).2 hc
    · exact (h i c).1 hc
  · exact fun h i c => ⟨h i .keypad c, h i .reader c⟩

theorem holdersNamed_iff : HoldersNamed p.st ↔ ∀ c i, (p.ctx c).holder = some i → ∃ k, (p.position i).pointer k = some c := by
  refine forall₂_congr fun c i => forall_congr' fun _ => ⟨?_, ?_⟩
  · rintro (h | h)
    · exact ⟨.reader, h⟩
    · exact ⟨.keypad, h⟩
  · rintro ⟨k, hk⟩
    cases k
    · exact .inl hk
    · exact .inr hk

theorem mayPoint_getD {ptr : PointerKind} {o : Option (Option CtxId)} {old : Option CtxId} {c : CtxId}
    (hm : p.mayPoint ptr (o.getD none) = true) (h : o.getD old = some c) : o = none ∧ old = some c ∨ KindFits ptr (p.ctx c).kind := by
  cases o with
  | none => exact .inl ⟨rfl, h⟩
  | some o =>
    simp only [Option.getD_some] at h hm
    subst h
    rcases mayPoint_kind hm with ⟨rfl, hk⟩ | ⟨rfl, hk⟩
    · exact .inr hk
    · exact .inr hk

theorem pointers_bind {pos : Nat} {reader keypad : Option Nat} {i : PosId} {r k : Option (Option CtxId)}
    (h : p.checkBind pos reader keypad = .ok (i, r, k)) (hp : PointersSound p.st) :
    PointersSound (p.setPosition i { reader := r.getD (p.position i).reader, keypad := k.getD (p.position i).keypad }).st := by
  obtain ⟨hr, hk, -, -⟩ := checkBind_found p h
  rw [pointersSound_iff] at hp ⊢
  intro j ptr c hc
  by_cases hj : j = i
  · subst hj
    simp only [Part.position_setPosition_self] at hc
    cases ptr
    · rcases mayPoint_getD hr hc with ⟨-, h1⟩ | h1
      · exact hp j .reader c h1
      · exact h1
    · rcases mayPoint_getD hk hc with ⟨-, h1⟩ | h1
      · exact hp j .keypad c h1
      · exact h1
  · rw [Part.position_setPosition_ne _ _ hj] at hc
    exact hp j ptr c hc

/-- A position that is bound holds nothing. -/
theorem holders_bind {pos : Nat} {reader keypad : Option Nat} {i : PosId} {r k : Option (Option CtxId)}
    (h : p.checkBind pos reader keypad = .ok (i, r, k)) (hp : HoldersNamed p.st) :
    HoldersNamed (p.setPosition i { reader := r.getD (p.position i).reader, keypad := k.getD (p.position i).keypad }).st := by
  obtain ⟨-, -, h1, h2⟩ := checkBind_found p h
  intro c j hj
  by_cases hji : j = i
  · subst hji
    exfalso
    have held : (p.ctx c).holder = some j := hj
    rcases hp c j held with hn | hn
    · have : p.holdsThrough j (p.position j).reader = true := by rw [show (p.position j).reader = some c from hn]; simp [Part.holdsThrough, held]
      simp [this] at h1
    · have : p.holdsThrough j (p.position j).keypad = true := by rw [show (p.position j).keypad = some c from hn]; simp [Part.holdsThrough, held]
      simp [this] at h2
  · simp only [Part.position_setPosition_ne _ _ hji]
    exact hp c j hj

/-! ### DROP PROFILE and DROP RELEASE -/

theorem Context.profile_profiled (x : Context) (pr : Profile) : (x.profiled pr).profile = some pr := by
  unfold Context.profiled
  split
  · rfl
  · simp only
    split <;> rfl

theorem Context.kind_profiled (x : Context) (pr : Profile) : (x.profiled pr).kind = some pr.kind := by
  simp [Context.kind, Context.profile_profiled]

/-- A context newly profiled, or of a changed kind, has no holder. -/
theorem Context.holder_profiled (x : Context) (pr : Profile) : (x.profiled pr).holder = none ∨
    (∃ old, x.profile = some old ∧ old.kind = pr.kind) ∧ (x.profiled pr).holder = x.holder := by
  unfold Context.profiled
  split
  · exact .inl rfl
  · rename_i old ho
    simp only
    split
    · exact .inr ⟨⟨old, ho, ‹_›⟩, rfl⟩
    · exact .inl rfl

theorem kindFits_of_ne_wrong {k : PointerKind} {d : DropKind} (h : k ≠ d.wrongPointer) : KindFits k (some d) := by
  cases k <;> cases d <;> simp_all [DropKind.wrongPointer, KindFits]

theorem pointers_identified (c : CtxId) (pr : Profile) (hp : PointersSound p.st) : PointersSound (p.identified c pr).st := by
  rw [pointersSound_iff] at hp ⊢
  intro i k d hd
  simp only [Part.pointer_identified] at hd
  split at hd
  · cases hd
  · rename_i hn
    have fits := hp i k d hd
    rw [Part.ctx_identified]
    split
    · rename_i hdc
      subst hdc
      rw [Context.kind_profiled]
      by_cases hk : ∃ old, (p.ctx d).profile = some old ∧ old.kind ≠ pr.kind
      · exact kindFits_of_ne_wrong fun hw => hn ⟨hk, hw, hd⟩
      · cases ho : (p.ctx d).profile with
        | none => simp [Context.kind, ho] at fits; cases k <;> simp_all [KindFits]
        | some old =>
          have : old.kind = pr.kind := by
            refine Classical.byContradiction fun hne => ?_
            exact hk ⟨old, ho, hne⟩
          simpa [Context.kind, ho, this] using fits
    · exact fits

theorem holders_identified (c : CtxId) (pr : Profile) (hp : HoldersNamed p.st) : HoldersNamed (p.identified c pr).st := by
  rw [holdersNamed_iff] at hp ⊢
  intro d i hi
  rw [Part.ctx_identified] at hi
  split at hi
  · rename_i hdc
    subst hdc
    rcases Context.holder_profiled (p.ctx d) pr with h | ⟨⟨old, ho, hk⟩, h⟩
    · rw [h] at hi
      cases hi
    · obtain ⟨k, hk'⟩ := hp d i (h ▸ hi)
      refine ⟨k, ?_⟩
      rw [Part.pointer_identified, if_neg]
      · exact hk'
      · rintro ⟨⟨old', ho', hne⟩, -⟩
        rw [ho] at ho'
        cases ho'
        exact hne hk
  · rename_i hdc
    obtain ⟨k, hk⟩ := hp d i hi
    refine ⟨k, ?_⟩
    rw [Part.pointer_identified, if_neg]
    · exact hk
    · rintro ⟨-, -, h⟩
      rw [hk] at h
      exact hdc (Option.some.inj h)

theorem pointers_releaseCtx (c : CtxId) (hp : PointersSound p.st) : PointersSound (p.releaseCtx c).st := by
  rw [pointersSound_iff] at hp ⊢
  intro i k d hd
  simp only [Part.pointer_releaseCtx] at hd
  split at hd
  · cases hd
  · rename_i hn
    rw [Part.ctx_releaseCtx, if_neg]
    · exact hp i k d hd
    · rintro ⟨rfl, hpr⟩
      exact hn ⟨hpr, hd⟩

theorem holders_releaseCtx (c : CtxId) (hp : HoldersNamed p.st) : HoldersNamed (p.releaseCtx c).st := by
  rw [holdersNamed_iff] at hp ⊢
  intro d i hi
  rw [Part.ctx_releaseCtx] at hi
  split at hi
  · cases hi
  · rename_i hn
    obtain ⟨k, hk⟩ := hp d i hi
    refine ⟨k, ?_⟩
    rw [Part.pointer_releaseCtx, if_neg]
    · exact hk
    · rintro ⟨hpr, h⟩
      rw [hk] at h
      cases h
      exact hn ⟨rfl, hpr⟩

theorem Deed.pointers (h : Deed p q) (hp : PointersSound p.st) : PointersSound q.st := by
  rcases h.shifts_or with h | ⟨phase, kind, pins, f, rfl⟩ | ⟨_, _, _, i, r, k, hb, rfl⟩ | ⟨_, _, c, pr, -, rfl⟩ | ⟨_, c, -, rfl⟩
  · exact h.pointers hp
  · exact fun i c => ⟨fun h => by simp at h, fun h => by simp at h⟩
  · exact pointers_bind hb hp
  · exact (serves_identified p c pr).moves.shifts.pointers (pointers_identified c pr hp)
  · exact pointers_releaseCtx c hp

theorem Deed.holders (h : Deed p q) (hp : HoldersNamed p.st) : HoldersNamed q.st := by
  rcases h.shifts_or with h | ⟨phase, kind, pins, f, rfl⟩ | ⟨_, _, _, i, r, k, hb, rfl⟩ | ⟨_, _, c, pr, -, rfl⟩ | ⟨_, c, -, rfl⟩
  · exact h.holders hp
  · exact fun c i h => by simp [Context.free] at h
  · exact holders_bind hb hp
  · exact (serves_identified p c pr).moves.shifts.holders (holders_identified c pr hp)
  · exact holders_releaseCtx c hp

/-! ### Profiles and images -/

/-- One profile in the ranges of R40 and R41, with an image in its shape. -/
def ProfileFits (pr : Profile) (img : Image) : Prop :=
  (2 ≤ pr.q ∧ pr.q ≤ 255) ∧ (pr.d.isSome = true ↔ pr.kind = .keypad) ∧ (∀ n ∈ pr.d, 1 ≤ n ∧ n ≤ 100) ∧
  (pr.rules.isSome = true ↔ pr.kind ≠ .keypad) ∧
  (∀ rl ∈ pr.rules, ∀ t ∈ [rl.t1, rl.t2, rl.t3], (∀ b ∈ t.start, b.toNat ≤ 127) ∧ t.ends.length ≤ 2 ∧ (∀ b ∈ t.ends, b.toNat ≤ 127) ∧
    t.count ≤ 112) ∧
  (pr.chipTimeout.isSome = true ↔ pr.kind = .readerHybrid) ∧ (∀ n ∈ pr.chipTimeout, 100 ≤ n ∧ n ≤ 60000) ∧
  (pr.kind = .keypad → ∃ chars lamps, img = .keypad chars lamps) ∧ (pr.kind ≠ .keypad → ∃ bezel, img = .reader bezel)

theorem profilesSound_iff : ProfilesSound p.st ↔ AddressesFit p ∧
    (∀ c d pc pd, c ≠ d → (p.ctx c).profile = some pc → (p.ctx d).profile = some pd → ¬ (pc.line = pd.line ∧ pc.address = pd.address)) ∧
    ∀ c pr, (p.ctx c).profile = some pr → ProfileFits pr (p.ctx c).image := Iff.rfl

theorem ProfileFits.image {pr : Profile} {i j : Image} (h : ProfileFits pr i) (hs : SameShape i j) : ProfileFits pr j := by
  obtain ⟨h1, h2, h3, h4, h5, h6, h7, h8, h9⟩ := h
  refine ⟨h1, h2, h3, h4, h5, h6, h7, fun hk => ?_, fun hk => ?_⟩
  · obtain ⟨chars, lamps, rfl⟩ := h8 hk
    cases j <;> first | exact hs.elim | exact ⟨_, _, rfl⟩
  · obtain ⟨bezel, rfl⟩ := h9 hk
    cases j <;> first | exact hs.elim | exact ⟨_, rfl⟩

theorem Shifts.profiles (h : Shifts p q) (hp : ProfilesSound p.st) : ProfilesSound q.st := by
  rw [profilesSound_iff] at hp ⊢
  obtain ⟨ha, hu, hf⟩ := hp
  refine ⟨fun c pr hc => ?_, fun c d pc pd hcd hc hd => ?_, fun c pr hc => ?_⟩
  · rw [(h.ctx c).profile] at hc
    exact ha c pr hc
  · rw [(h.ctx c).profile] at hc
    rw [(h.ctx d).profile] at hd
    exact hu c d pc pd hcd hc hd
  · rw [(h.ctx c).profile] at hc
    exact (hf c pr hc).image (h.ctx c).shape

/-- A capture rule in the ranges of R40. -/
def RuleFits (t : TrackRule) : Prop :=
  (∀ b ∈ t.start, b.toNat ≤ 127) ∧ t.ends.length ≤ 2 ∧ (∀ b ∈ t.ends, b.toNat ≤ 127) ∧ t.count ≤ 112

def RulesFit (rl : Rules) : Prop := ∀ t ∈ [rl.t1, rl.t2, rl.t3], RuleFits t

theorem rulesFit_default : RulesFit defaultRules := by
  simp [RulesFit, RuleFits, defaultRules]

theorem toNat_ofNat_le {n : Nat} (h : n ≤ 127) : (BitVec.ofNat 8 n).toNat ≤ 127 := by
  simp only [BitVec.toNat_ofNat]
  omega

theorem ruleFits_of_readRule {f : RuleField} {t : TrackRule} (h : readRule f = some t) : RuleFits t := by
  unfold readRule at h
  split at h
  · rename_i hc
    obtain ⟨hs, hl, he, hn, -⟩ := hc
    cases h
    refine ⟨fun b hb => ?_, by simpa using hl, fun b hb => ?_, hn⟩
    · simp only [Option.mem_def] at hb
      split at hb
      · cases hb
      · rename_i hne
        cases hb
        exact toNat_ofNat_le (hs.resolve_left hne)
    · obtain ⟨n, hn', rfl⟩ := List.mem_map.mp hb
      exact toNat_ofNat_le (by simpa using List.all_eq_true.mp he n hn')
  · cases h

theorem ruleFits_of_readRuleList {fs : List RuleField} {rs : List (Nat × TrackRule)} (h : readRuleList fs = some rs) :
    ∀ r ∈ rs, RuleFits r.2 := by
  induction fs generalizing rs with
  | nil =>
    cases h
    simp
  | cons f fs ih =>
    simp only [readRuleList] at h
    split at h
    · rename_i r rs' hr hrs
      cases h
      intro x hx
      rcases List.mem_cons.mp hx with rfl | hx
      · exact ruleFits_of_readRule hr
      · exact ih hrs x hx
    · cases h

theorem RulesFit.put {rl : Rules} (h : RulesFit rl) {t : TrackRule} (ht : RuleFits t) (n : Nat) : RulesFit (rl.put n t) := by
  simp only [RulesFit, List.mem_cons, List.not_mem_nil, or_false, forall_eq_or_imp, forall_eq] at h ⊢
  obtain ⟨h1, h2, h3⟩ := h
  unfold Rules.put
  split
  · exact ⟨ht, h2, h3⟩
  · exact ⟨h1, ht, h3⟩
  · exact ⟨h1, h2, ht⟩

theorem RulesFit.putAll {rs : List (Nat × TrackRule)} (hr : ∀ r ∈ rs, RuleFits r.2) {rl : Rules} (h : RulesFit rl) :
    RulesFit (rs.foldl (fun r x => r.put x.1 x.2) rl) := by
  induction rs generalizing rl with
  | nil => exact h
  | cons r rs ih => exact ih (fun x hx => hr x (by simp [hx])) (h.put (hr r (by simp)) _)

theorem clamp_bounds {lo hi : Nat} (h : lo ≤ hi) (n : Nat) : lo ≤ clamp lo hi n ∧ clamp lo hi n ≤ hi := by
  unfold clamp
  omega

/-- A property of a value that is given, kept from the old profile, or the default. -/
theorem getD_of_kept {α β : Type} {P : β → Prop} {o : Option α} {g : α → Option β} {b : β} (ho : ∀ a ∈ o, ∀ x ∈ g a, P x) (hb : P b) :
    P ((o.bind g).getD b) := by
  cases o with
  | none => exact hb
  | some a =>
    cases hg : g a with
    | none => simpa [hg] using hb
    | some x => simpa [hg] using ho a rfl x hg

theorem newProfile_fits {line : LineId} {address : Nat} {kind : DropKind} {old : Option Profile} {f : ProfileFields}
    {rules : List (Nat × TrackRule)} {img img' : Image} (hold : ∀ o ∈ old, ProfileFits o img) (hr : ∀ r ∈ rules, RuleFits r.2)
    (hk : kind = .keypad → ∃ chars lamps, img' = .keypad chars lamps) (hb : kind ≠ .keypad → ∃ bezel, img' = .reader bezel) :
    ProfileFits (newProfile line address kind old f rules) img' := by
  have kept : ∀ o ∈ old.filter (fun o => o.kind == kind), ProfileFits o img := fun o ho => hold o (Option.mem_filter_iff.mp ho).1
  refine ⟨?_, ?_, ?_, ?_, ?_, ?_, ?_, hk, hb⟩
  · simp only [newProfile]
    split
    · exact clamp_bounds (by decide) _
    · rw [Option.map_eq_bind]
      exact getD_of_kept (P := fun n => 2 ≤ n ∧ n ≤ 255) (fun o ho x hx => by cases hx; exact (kept o ho).1) (by decide)
  · simp only [newProfile]
    split <;> simp_all
  · simp only [newProfile]
    intro n hn
    simp only [Option.mem_def] at hn
    split at hn
    · cases hn
      split
      · exact clamp_bounds (by decide) _
      · exact getD_of_kept (P := fun n => 1 ≤ n ∧ n ≤ 100) (fun o ho x hx => (kept o ho).2.2.1 x hx) (by decide)
    · cases hn
  · simp only [newProfile]
    cases kind <;> simp [DropKind.isReader]
  · simp only [newProfile]
    intro rl hrl
    simp only [Option.mem_def] at hrl
    split at hrl
    · cases hrl
      exact RulesFit.putAll hr (getD_of_kept (P := RulesFit) (fun o ho x hx => (kept o ho).2.2.2.2.1 x hx) rulesFit_default)
    · cases hrl
  · simp only [newProfile]
    split <;> simp_all
  · simp only [newProfile]
    intro n hn
    simp only [Option.mem_def] at hn
    split at hn
    · cases hn
      split
      · exact clamp_bounds (by decide) _
      · exact getD_of_kept (P := fun n => 100 ≤ n ∧ n ≤ 60000) (fun o ho x hx => (kept o ho).2.2.2.2.2.2.1 x hx) (by decide)
    · cases hn

/-- What the checks of DROP PROFILE have found (R40). -/
theorem checkDropProfile_found {ctx : Nat} {f : ProfileFields} {c : CtxId} {pr : Profile} (h : p.checkDropProfile ctx f = .ok (c, pr)) :
    ∃ line address kind rules, pr = newProfile line address kind (p.ctx c).profile f rules ∧
      readRuleList (f.rules.getD []) = some rules ∧
      (f.address <|> (p.ctx c).profile.map (·.address)) = some address ∧ (∀ a ∈ f.address, 1 ≤ a ∧ a ≤ 15) ∧
      ((p.ctx c).attach = .free ∨ (p.ctx c).attach = .parked ∨ (p.ctx c).keepsIdentity line address kind = true) ∧
      p.addressTaken c line address = false := by
  simp only [Part.checkDropProfile, bind_ok, want_ok, need_ok, pure_ok] at h
  obtain ⟨c', -, gl, -, -, ha, gk, -, rules, hr, line, -, address, hadr, kind, -, -, -, -, -, -, -, -, hat, -, htk, he⟩ := h
  cases he
  exact ⟨line, address, kind, rules, rfl, hr, hadr, ha, hat, by simpa using htk⟩

theorem addressTaken_eq_false {c : CtxId} {line : LineId} {address : Nat} (h : p.addressTaken c line address = false) {d : CtxId} {pr : Profile}
    (hd : d ≠ c) (hp : (p.ctx d).profile = some pr) : ¬ (pr.line = line ∧ pr.address = address) := by
  rintro ⟨rfl, rfl⟩
  have := List.any_eq_false.mp h d (mem_allCtx d)
  simp [hp, hd] at this

/-- The image of a context under its new profile. -/
theorem image_profiled (x : Context) (pr : Profile) : (x.profiled pr).image = blankImage pr.kind ∨
    (∃ old, x.profile = some old ∧ old.kind = pr.kind) ∧ (x.profiled pr).image = x.image := by
  unfold Context.profiled
  split
  · exact .inl rfl
  · rename_i old ho
    simp only
    split
    · exact .inr ⟨⟨old, ho, ‹_›⟩, rfl⟩
    · exact .inl rfl

theorem profiles_identified {ctx : Nat} {f : ProfileFields} {c : CtxId} {pr : Profile} (h : p.checkDropProfile ctx f = .ok (c, pr))
    (hp : ProfilesSound p.st) : ProfilesSound (p.identified c pr).st := by
  obtain ⟨line, address, kind, rules, rfl, hr, hadr, hgiven, -, htaken⟩ := checkDropProfile_found h
  rw [profilesSound_iff] at hp ⊢
  obtain ⟨ha, hu, hf⟩ := hp
  have other {d : CtxId} {x : Profile} (hd : d ≠ c) (hx : ((p.identified c (newProfile line address kind (p.ctx c).profile f rules)).ctx d).profile
      = some x) : (p.ctx d).profile = some x := by simpa [Part.ctx_identified, hd] using hx
  have own {x : Profile} (hx : ((p.identified c (newProfile line address kind (p.ctx c).profile f rules)).ctx c).profile = some x) :
      x = newProfile line address kind (p.ctx c).profile f rules := by
    simpa [Part.ctx_identified, Context.profile_profiled, eq_comm] using hx
  refine ⟨fun d x hx => ?_, fun d e xd xe hde hxd hxe => ?_, fun d x hx => ?_⟩
  · by_cases hd : d = c
    · subst hd
      rw [own hx]
      cases hga : f.address with
      | some a =>
        simp [hga] at hadr
        subst hadr
        exact hgiven _ hga
      | none =>
        simp [hga] at hadr
        obtain ⟨old, ho, rfl⟩ := hadr
        exact ha d old ho
    · exact ha d x (other hd hx)
  · by_cases hd : d = c
    · subst hd
      rw [own hxd]
      rintro ⟨h1, h2⟩
      exact addressTaken_eq_false htaken (Ne.symm hde) (other (Ne.symm hde) hxe) ⟨h1.symm, h2.symm⟩
    · by_cases he : e = c
      · subst he
        rw [own hxe]
        exact addressTaken_eq_false htaken hd (other hd hxd)
      · exact hu d e xd xe hde (other hd hxd) (other he hxe)
  · by_cases hd : d = c
    · subst hd
      rw [own hx, Part.ctx_identified, if_pos rfl]
      refine newProfile_fits (fun o ho => hf d o ho) (ruleFits_of_readRuleList hr) (fun hk => ?_) fun hk => ?_
      · rcases image_profiled (p.ctx d) (newProfile line address kind (p.ctx d).profile f rules) with hi | ⟨⟨old, ho, hko⟩, hi⟩
        · rw [hi]
          simp only [newProfile]
          subst hk
          exact ⟨_, _, rfl⟩
        · rw [hi]
          exact (hf d old ho).2.2.2.2.2.2.2.1 (hko.trans hk)
      · rcases image_profiled (p.ctx d) (newProfile line address kind (p.ctx d).profile f rules) with hi | ⟨⟨old, ho, hko⟩, hi⟩
        · rw [hi]
          simp only [newProfile]
          cases kind
          · exact absurd rfl hk
          · exact ⟨_, rfl⟩
          · exact ⟨_, rfl⟩
        · rw [hi]
          exact (hf d old ho).2.2.2.2.2.2.2.2 fun e => hk (hko.symm.trans e)
    · rw [Part.ctx_identified, if_neg hd]
      exact hf d x (other hd hx)

theorem profiles_releaseCtx (c : CtxId) (hp : ProfilesSound p.st) : ProfilesSound (p.releaseCtx c).st := by
  rw [profilesSound_iff] at hp ⊢
  obtain ⟨ha, hu, hf⟩ := hp
  have kept {d : CtxId} {x : Profile} (hx : ((p.releaseCtx c).ctx d).profile = some x) :
      (p.ctx d).profile = some x ∧ (p.releaseCtx c).ctx d = p.ctx d := by
    rw [Part.ctx_releaseCtx] at hx ⊢
    split at hx
    · cases hx
    · exact ⟨hx, if_neg ‹_›⟩
  refine ⟨fun d x hx => ha d x (kept hx).1, fun d e xd xe hde hd he => hu d e xd xe hde (kept hd).1 (kept he).1, fun d x hx => ?_⟩
  rw [(kept hx).2]
  exact hf d x (kept hx).1

theorem Deed.profiles (h : Deed p q) (hp : ProfilesSound p.st) : ProfilesSound q.st := by
  rcases h.shifts_or with h | ⟨phase, kind, pins, f, rfl⟩ | ⟨_, _, _, i, r, k, hb, rfl⟩ | ⟨_, _, c, pr, hf, rfl⟩ | ⟨_, c, -, rfl⟩
  · exact h.profiles hp
  · refine ⟨fun c pr h => ?_, fun c d pc pd _ h => ?_, fun c pr h => ?_⟩ <;> simp [Context.free] at h
  · exact hp
  · exact (serves_identified p c pr).moves.shifts.profiles (profiles_identified hf hp)
  · exact profiles_releaseCtx c hp

end

end Sys2Proof.Machine
end

section
/-! PROOFS. Attachment, the lines and the schedules stay sound (O56, O58): what each deed makes of the lines, and of the attachment of each context. -/

namespace Sys2Proof.Machine

open Sys2Proof.Safety

/-! ### The lines after a deed -/

section
variable (p : Part) (l m : LineId)

theorem line_swapped (new : Schedule) : (p.swapped l new).line m = if m = l then { p.line m with active := new, waiting := none } else p.line m := by
  by_cases h : m = l
  · subst h; simp [Part.swapped]
  · simp [Part.swapped, h]

theorem line_swapTo (new : Schedule) :
    LineServes (if m = l then { p.line m with active := new, waiting := none } else p.line m) ((p.swapTo l new).line m) := by
  rw [← line_swapped]
  exact (moves_swapTo p l new).line m

theorem line_enterIdle_ne {l m : LineId} (why : LineReason) (h : m ≠ l) : LineServes (p.line m) ((p.enterIdle l why).line m) := by
  have hl := (moves_parkLine p l why.cause).line m
  have ha : ((((p.abortTest l).parkLine l why.cause).activateWaiting l).line m) = ((p.abortTest l).parkLine l why.cause).line m := by
    unfold Part.activateWaiting
    split <;> simp [h]
  unfold Part.enterIdle
  rw [Part.line_modLine_ne _ _ h, ha]
  exact hl

/-- A line as it enters IDLE: a schedule that waits becomes active, and no frame is in progress (R18). -/
theorem line_enterIdle_self (why : LineReason) : ∃ x, LineServes (p.line l) x ∧ (p.enterIdle l why).line l =
    { x with active := x.waiting.getD x.active, waiting := none, state := .idle, stopPending := false, calls := [], inSlot := none
             nextSlot := 0 } := by
  refine ⟨_, (moves_parkLine p l why.cause).line l, ?_⟩
  unfold Part.enterIdle
  rw [Part.line_modLine_self]
  unfold Part.activateWaiting
  split
  · rename_i s hs
    simp [hs]
  · rename_i hs
    simp [hs]

theorem state_purge (c : CtxId) : ((p.purge l c).line m).state = (p.line m).state := by
  rw [Part.line_purge]
  split <;> rfl

theorem state_identified (c : CtxId) (pr : Profile) : ((p.identified c pr).line m).state = (p.line m).state := by
  rw [Part.line_identified]
  split
  · exact state_purge p m m c
  · rfl

theorem state_releaseCtx (c : CtxId) : ((p.releaseCtx c).line m).state = (p.line m).state := by
  rw [Part.line_releaseCtx]
  split
  · exact state_purge p m m c
  · rfl

end

/-! ### Attachment and the working state (R39, R45) -/

/-- A context is FREE exactly when it has no profile, and it has the working state of its kind and no other. -/
def KindsOk (x : Context) : Prop :=
  (x.attach = .free ↔ x.profile = none) ∧ (x.keypad.isSome = true ↔ x.kind = some .keypad) ∧
  (x.reader.isSome = true ↔ x.kind = some .readerStripe ∨ x.kind = some .readerHybrid) ∧ (x.chip.isSome = true ↔ x.kind = some .readerHybrid)

/-- A profiled context of a line in IDLE is PARKED (R18, R45). -/
def IdleParks (p : Part) : Prop := ∀ c l, (p.ctx c).lineId = some l → (p.line l).state = .idle → (p.ctx c).attach = .parked

section
variable {p q : Part}

theorem lineId_eq_some {x : Context} {l : LineId} : x.lineId = some l ↔ ∃ pr, x.profile = some pr ∧ pr.line = l := by
  simp [Context.lineId]

theorem attachSound_iff : AttachSound p.st ↔ (∀ c, KindsOk (p.ctx c)) ∧ IdleParks p := by
  constructor
  · intro h
    refine ⟨fun c => ?_, fun c l hl hi => ?_⟩
    · obtain ⟨h1, h2, h3, h4, -⟩ := h c
      exact ⟨h1, h2, h3, h4⟩
    · obtain ⟨pr, hp, rfl⟩ := lineId_eq_some.mp hl
      exact (h c).2.2.2.2 pr hp hi
  · rintro ⟨hk, hi⟩ c
    obtain ⟨h1, h2, h3, h4⟩ := hk c
    exact ⟨h1, h2, h3, h4, fun pr hp => hi c pr.line (lineId_eq_some.mpr ⟨pr, hp, rfl⟩)⟩

theorem CtxMoves.kindsOk {x y : Context} (h : CtxMoves x y) (hx : KindsOk x) : KindsOk y := by
  obtain ⟨h1, h2, h3, h4⟩ := hx
  refine ⟨h.free h1, ?_, ?_, ?_⟩
  · rw [isSome_of_optRel h.keypad, h.kind]; exact h2
  · rw [isSome_of_optRel h.reader, h.kind]; exact h3
  · rw [isSome_of_optRel h.chip, h.kind]; exact h4

theorem CtxMoves.lineId {x y : Context} (h : CtxMoves x y) : y.lineId = x.lineId := by simp only [Context.lineId, h.profile]

theorem kindsOk_asKind (k : DropKind) (x : Context) (hk : x.keypad = (Context.free.asKind k).keypad) (hr : x.reader = (Context.free.asKind k).reader)
    (hc : x.chip = (Context.free.asKind k).chip) {pr : Profile} (hp : x.profile = some pr) (hpk : pr.kind = k) (ha : x.attach ≠ .free) :
    KindsOk x := by
  subst hpk
  have kind : x.kind = some pr.kind := by simp [Context.kind, hp]
  refine ⟨by simp [ha, hp], ?_, ?_, ?_⟩
  · rw [hk, kind]
    cases pr.kind <;> simp [Context.asKind]
  · rw [hr, kind]
    cases pr.kind <;> simp [Context.asKind, DropKind.isReader]
  · rw [hc, kind]
    cases pr.kind <;> simp [Context.asKind]

theorem KindsOk.profiled {x : Context} (h : KindsOk x) (pr : Profile) : KindsOk (x.profiled pr) := by
  obtain ⟨h1, h2, h3, h4⟩ := h
  unfold Context.profiled
  split
  · exact kindsOk_asKind pr.kind _ rfl rfl rfl rfl rfl nofun
  · rename_i old ho
    have ha : x.attach ≠ .free := fun e => by
      rw [h1.mp e] at ho
      cases ho
    simp only
    split
    · rename_i hk
      have kind : x.kind = some pr.kind := by simp [Context.kind, ho, hk]
      rw [kind] at h2 h3 h4
      exact ⟨by simp [ha], h2, h3, h4⟩
    · exact kindsOk_asKind pr.kind _ rfl rfl rfl rfl rfl ha

theorem kindsOk_free : KindsOk .free := by simp [KindsOk, Context.free, Context.kind]

theorem Deed.kindsOk (h : Deed p q) (hp : ∀ c, KindsOk (p.ctx c)) (c : CtxId) : KindsOk (q.ctx c) := by
  rcases h.shifts_or with h | ⟨phase, kind, pins, f, rfl⟩ | ⟨_, _, _, i, r, k, hb, rfl⟩ | ⟨_, _, d, pr, hf, rfl⟩ | ⟨_, d, -, rfl⟩
  · exact (h.ctx c).kindsOk (hp c)
  · simpa using kindsOk_free
  · exact hp c
  · refine ((serves_identified p d pr).ctx c).moves.kindsOk ?_
    rw [Part.ctx_identified]
    split
    · exact (hp d).profiled pr
    · exact hp c
  · rw [Part.ctx_releaseCtx]
    split
    · exact kindsOk_free
    · exact hp c

/-! ### PARKED on a line in IDLE -/

theorem Serves.idleParks (h : Serves p q) (hp : IdleParks p) : IdleParks q := fun c l hl hi =>
  (h.ctx c).parked.mpr (hp c l (by rw [← (h.ctx c).moves.lineId]; exact hl) ((h.line l).idle.mp hi))

theorem idleParks_modLine (l : LineId) (f : Line → Line) (hf : (f (p.line l)).state = (p.line l).state) (hp : IdleParks p) :
    IdleParks (p.modLine l f) := fun c m hm hi => by
  simp only [Part.ctx_modLine] at hm ⊢
  refine hp c m hm ?_
  by_cases h : m = l
  · subst h
    rw [Part.line_modLine_self, hf] at hi
    exact hi
  · rwa [Part.line_modLine_ne _ _ h] at hi

theorem idleParks_startLine (l : LineId) (hp : IdleParks p) : IdleParks (p.startLine l) := fun c m hm hi => by
  by_cases h : m = l
  · subst h
    rw [Part.line_startLine_self] at hi
    cases hi
  · rw [line_startLine_ne p h] at hi
    rw [Part.ctx_startLine] at hm ⊢
    split at hm
    · exact absurd (Option.some.inj (hm.symm.trans (And.left ‹_›))) h
    · rw [if_neg ‹_›]
      exact hp c m hm hi

theorem idleParks_swapTo (l : LineId) (new : Schedule) (hl : (p.line l).state ≠ .idle) (hp : IdleParks p) : IdleParks (p.swapTo l new) := fun c m hm hi => by
  have hml : m ≠ l := fun e => by
    subst e
    exact hl ((idle_swapTo p m new).mp hi)
  have hline := line_swapTo p l m new
  rw [if_neg hml] at hline
  rw [((Shifts.swapTo p l new).ctx c).lineId] at hm
  have hc := hp c m hm (hline.idle.mp hi)
  have hne : (p.ctx c).lineId ≠ some l := fun e => hml (Option.some.inj (hm.symm.trans e))
  rw [attach_swapTo, if_neg fun h => hne ((mem_swapGainers p l).mp h).1, if_neg fun h => hne ((mem_swapLosers p l).mp h).1]
  exact hc

theorem idleParks_enterIdle (l : LineId) (why : LineReason) (hp : IdleParks p) : IdleParks (p.enterIdle l why) := fun c m hm hi => by
  rw [((Shifts.enterIdle p l why).ctx c).lineId] at hm
  rw [attach_enterIdle]
  split
  · rfl
  · have hml : m ≠ l := fun e => by
      subst e
      exact absurd hm ‹_›
    exact hp c m hm ((line_enterIdle_ne p why hml).idle.mp hi)

theorem Context.attach_profiled (x : Context) (pr : Profile) : (x.profiled pr).attach = if x.profile = none then .parked else x.attach := by
  unfold Context.profiled
  split
  · simp [*]
  · simp only [*]
    split <;> simp

/-- A request that keeps a profile's identity. -/
theorem keepsIdentity_iff {x : Context} {line : LineId} {address : Nat} {kind : DropKind} : x.keepsIdentity line address kind = true ↔
    ∃ pr, x.profile = some pr ∧ pr.line = line ∧ pr.address = address ∧ pr.kind = kind := by
  unfold Context.keepsIdentity Profile.sameIdentity
  split
  · rename_i pr h
    simp [h, and_assoc]
  · simp_all

theorem idleParks_identified {ctx : Nat} {f : ProfileFields} {c : CtxId} {pr : Profile} (h : p.checkDropProfile ctx f = .ok (c, pr))
    (hk : ∀ c, KindsOk (p.ctx c)) (hp : IdleParks p) : IdleParks (p.identified c pr) := fun d l hl hi => by
  obtain ⟨line, address, kind, rules, rfl, -, -, -, hat, -⟩ := checkDropProfile_found h
  rw [state_identified] at hi
  rw [Part.ctx_identified] at hl ⊢
  by_cases hd : d = c
  · subst hd
    rw [if_pos rfl] at hl ⊢
    rw [Context.attach_profiled]
    split
    · rfl
    · rename_i hne
      rcases hat with h1 | h1 | h1
      · exact absurd ((hk d).1.mp h1) hne
      · exact h1
      · obtain ⟨old, ho, rfl, rfl, rfl⟩ := keepsIdentity_iff.mp h1
        refine hp d l ?_ hi
        simpa [Context.lineId, Context.profile_profiled, newProfile, ho] using hl
  · rw [if_neg hd] at hl ⊢
    exact hp d l hl hi

theorem idleParks_releaseCtx (c : CtxId) (hp : IdleParks p) : IdleParks (p.releaseCtx c) := fun d l hl hi => by
  rw [state_releaseCtx] at hi
  rw [Part.ctx_releaseCtx] at hl ⊢
  split at hl
  · cases hl
  · rw [if_neg ‹_›]
    exact hp d l hl hi

theorem serves_sendStart (p : Part) : Serves p p.sendStart := by
  have hc := calm_sendStart p
  have h : (∀ i, p.sendStart.position i = p.position i) ∧ (∀ c, p.sendStart.ctx c = p.ctx c) ∧ ∀ l, p.sendStart.line l = p.line l := by
    unfold Part.sendStart
    split
    · exact ⟨fun _ => rfl, fun _ => rfl, fun _ => rfl⟩
    · split
      · exact ⟨fun _ => rfl, fun _ => rfl, fun _ => rfl⟩
      · split
        · exact ⟨fun _ => rfl, fun _ => rfl, fun _ => rfl⟩
        · split <;> exact ⟨fun _ => rfl, fun _ => rfl, fun _ => rfl⟩
  obtain ⟨h1, h2, h3⟩ := h
  exact ⟨hc.used, hc.faults, hc.hides, fun l => by rw [h3]; exact .refl _, h1, fun c => by rw [h2]; exact .refl _,
    fun c i hi => .inl (by rwa [h2] at hi)⟩

theorem Deed.idleParks (h : Deed p q) (hk : ∀ c, KindsOk (p.ctx c)) (hp : IdleParks p) : IdleParks q := by
  cases h
  case serves h => exact h.idleParks hp
  case send => exact (serves_sendStart p).idleParks hp
  case reset => exact fun c l hl => by simp [Context.lineId, Context.free] at hl
  case bind => exact hp
  case setup => exact idleParks_modLine _ _ rfl hp
  case start => exact idleParks_startLine _ hp
  case load => exact idleParks_modLine _ _ rfl hp
  case wait => exact idleParks_modLine _ _ rfl hp
  case profile h => exact (serves_identified ..).idleParks (idleParks_identified h hk hp)
  case release => exact idleParks_releaseCtx _ hp
  case swap hi hw => exact idleParks_swapTo _ _ hi hp
  case idle => exact idleParks_enterIdle _ _ hp

theorem Deed.attach (h : Deed p q) (hp : AttachSound p.st) : AttachSound q.st := by
  rw [attachSound_iff] at hp ⊢
  exact ⟨h.kindsOk hp.1, h.idleParks hp.1 hp.2⟩

end

/-- Settles O58: each deed of a step keeps each condition. -/
theorem contextsAndPointersStaySound : Obligations.ContextsAndPointersStaySound := by
  unfold Obligations.ContextsAndPointersStaySound
  intro s t h
  have hd := deeds_of_partStep (partStep_of_step h)
  exact ⟨Deeds.keeps (I := fun p => AttachSound p.st) (fun _ _ => Deed.attach) hd,
    Deeds.keeps (I := fun p => PointersSound p.st) (fun _ _ => Deed.pointers) hd,
    Deeds.keeps (I := fun p => ProfilesSound p.st) (fun _ _ => Deed.profiles) hd,
    Deeds.keeps (I := fun p => HoldersNamed p.st) (fun _ _ => Deed.holders) hd⟩

end Sys2Proof.Machine
end

section
/-! PROOFS. The lines and their schedules stay sound (O56), deed by deed. -/

namespace Sys2Proof.Machine

open Sys2Proof.Safety

/-! ### L, P and the setup (R5, R6, R8) -/

section
variable {p q : Part}

theorem LineServes.sound {x y : Line} (h : LineServes x y) (hx : LineSound x) : LineSound y := by
  obtain ⟨h1, h2, h3, h4, h5, h6, h7, h8, h9⟩ := hx
  simp only [LineSound, h.rate, h.slots, h.pmin, h.frameLen, h.period, h.active, h.waiting, h.idle]
  refine ⟨h1, h2, h3, h4, h5, h6, h7, h8, fun hi => ?_⟩
  rw [h.stop hi]
  exact h9 hi

theorem takePmin_sound (n : Nat) : takePmin n ≤ 20000 ∧ takePmin n % 100 = 0 := by
  unfold takePmin ceilDiv
  omega

/-- The values of LINE SETUP, with L and P computed from them (R5, R6). -/
theorem lineSound_setup {x : Line} (hx : LineSound x) (hi : x.state = .idle) {slots : Nat} (hs : 2 ≤ slots ∧ slots ≤ 16) (r : BitRate) (n : Nat) :
    LineSound (x.setup r slots (takePmin n)) := by
  obtain ⟨-, -, -, -, -, -, hlen, -, hidle⟩ := hx
  obtain ⟨hstop, hwait⟩ := hidle hi
  refine ⟨hs.1, hs.2, (takePmin_sound n).1, (takePmin_sound n).2, rfl, rfl, ?_, fun w hw => ?_, fun _ => ⟨hstop, hwait⟩⟩
  · simp only [Line.setup]
    split
    · rename_i h
      rw [h]
      exact hlen
    · simp
  · have : x.waiting = some w := hw
    rw [hwait] at this
    cases this

theorem length_readAll {α : Type} {f : Nat → Option α} {l : List Nat} {r : List α} (h : readAll f l = some r) : r.length = l.length := by
  induction l generalizing r with
  | nil =>
    cases h
    rfl
  | cons n l ih =>
    simp only [readAll] at h
    split at h
    · rename_i as _ has
      cases h
      simp [ih has]
    · cases h

theorem lineSound_purged {x : Line} (c : CtxId) (hx : LineSound x) :
    LineSound { x with active := withoutContext c x.active, waiting := x.waiting.map (withoutContext c) } := by
  obtain ⟨h1, h2, h3, h4, h5, h6, h7, h8, h9⟩ := hx
  refine ⟨h1, h2, h3, h4, h5, h6, by simpa [withoutContext] using h7, fun w hw => ?_, fun hi => ?_⟩
  · obtain ⟨w', hw', rfl⟩ := Option.map_eq_some_iff.mp hw
    simpa [withoutContext] using h8 w' hw'
  · obtain ⟨hs, hw⟩ := h9 hi
    exact ⟨hs, by simp [hw]⟩

theorem linesSound_modLine {l : LineId} {f : Line → Line} (hf : LineSound (p.line l) → LineSound (f (p.line l))) (hp : LinesSound p.st) :
    LinesSound (p.modLine l f).st := fun m => by
  by_cases h : m = l
  · subst h
    simpa using hf (hp m)
  · simpa [h] using hp m

theorem Serves.linesSound (h : Serves p q) (hp : LinesSound p.st) : LinesSound q.st := fun l => (h.line l).sound (hp l)

theorem linesSound_startLine (l : LineId) (hi : (p.line l).state = .idle) (hp : LinesSound p.st) : LinesSound (p.startLine l).st := fun m => by
  by_cases h : m = l
  · subst h
    obtain ⟨h1, h2, h3, h4, h5, h6, h7, h8, h9⟩ := hp m
    simp only [Part.line_startLine_self]
    exact ⟨h1, h2, h3, h4, h5, h6, h7, h8, nofun⟩
  · simp only [line_startLine_ne p h]
    exact hp m

theorem linesSound_swapTo (l : LineId) {new : Schedule} (hi : (p.line l).state ≠ .idle) (hw : (p.line l).waiting = some new)
    (hp : LinesSound p.st) : LinesSound (p.swapTo l new).st := fun m => by
  refine (line_swapTo p l m new).sound ?_
  split
  · subst m
    obtain ⟨h1, h2, h3, h4, h5, h6, h7, h8, h9⟩ := hp l
    exact ⟨h1, h2, h3, h4, h5, h6, h8 new hw, nofun, fun e => absurd e hi⟩
  · exact hp m

theorem linesSound_enterIdle (l : LineId) (why : LineReason) (hp : LinesSound p.st) : LinesSound (p.enterIdle l why).st := fun m => by
  by_cases h : m = l
  · subst h
    obtain ⟨x, hx, he⟩ := line_enterIdle_self p m why
    obtain ⟨h1, h2, h3, h4, h5, h6, h7, h8, -⟩ := hx.sound (hp m)
    simp only [he]
    refine ⟨h1, h2, h3, h4, h5, h6, ?_, nofun, fun _ => ⟨rfl, rfl⟩⟩
    cases hw : x.waiting with
    | none => exact h7
    | some w => exact h8 w hw
  · exact (line_enterIdle_ne p why h).sound (hp m)

theorem linesSound_reset (phase : Phase) (kind : ResetKind) (pins : StrapPins) (f : FaultRecord) : LinesSound (p.reset phase kind pins f).st := by
  intro l
  simp only [Part.line_reset, Line.afterReset, Line.afterPowerUp]
  exact ⟨(by decide : 2 ≤ 8), (by decide : 8 ≤ 16), (by decide : 0 ≤ 20000), rfl, by simp, rfl, by simp, nofun, fun _ => ⟨rfl, rfl⟩⟩

theorem linesSound_purge (l : LineId) (c : CtxId) (hp : LinesSound p.st) (m : LineId) : LineSound ((p.purge l c).line m) := by
  rw [Part.line_purge]
  split
  · exact lineSound_purged c (hp m)
  · exact hp m

theorem Deed.linesSound (h : Deed p q) (hp : LinesSound p.st) : LinesSound q.st := by
  cases h
  case serves h => exact h.linesSound hp
  case send => exact (serves_sendStart p).linesSound hp
  case reset => exact linesSound_reset _ _ _ _
  case bind => exact hp
  case setup h _ => exact linesSound_modLine (fun hx => lineSound_setup hx (checkLineSetup_found p h).2 (checkLineSetup_found p h).1 _ _) hp
  case start h => exact linesSound_startLine _ h hp
  case load l s h hi =>
    refine linesSound_modLine (fun ⟨h1, h2, h3, h4, h5, h6, _, h8, h9⟩ => ⟨h1, h2, h3, h4, h5, h6, ?_, h8, h9⟩) hp
    obtain ⟨-, hlen, hs, -⟩ := checkLoadSchedule_found p h
    rw [length_readAll hs, hlen]
  case wait l s h hi =>
    refine linesSound_modLine (fun ⟨h1, h2, h3, h4, h5, h6, h7, _, _⟩ => ⟨h1, h2, h3, h4, h5, h6, h7, fun w hw => ?_, fun e => absurd e hi⟩) hp
    cases hw
    obtain ⟨-, hlen, hs, -⟩ := checkLoadSchedule_found p h
    rw [length_readAll hs, hlen]
  case profile c pr h =>
    refine (serves_identified ..).linesSound fun m => ?_
    simp only [Part.line_identified]
    split
    · exact linesSound_purge m c hp m
    · exact hp m
  case release c h =>
    intro m
    simp only [Part.line_releaseCtx]
    split
    · exact linesSound_purge m c hp m
    · exact hp m
  case swap hi hw => exact linesSound_swapTo _ hi hw hp
  case idle => exact linesSound_enterIdle _ _ hp

/-! ### Schedules (R22, R28) -/

/-- A schedule of a line, active or pending, names a context. -/
def Line.NamesCtx (x : Line) (c : CtxId) : Prop := some c ∈ x.active ∨ ∃ w, x.waiting = some w ∧ some c ∈ w

theorem schedulesSound_iff : SchedulesSound p.st ↔ ∀ l c, (p.line l).NamesCtx c → (p.ctx c).lineId = some l := Iff.rfl

/-- A deed that gives schedules no new name, and keeps the line of every context they name. -/
theorem schedules_of (hn : ∀ l c, (q.line l).NamesCtx c → (p.line l).NamesCtx c)
    (hc : ∀ l c, (q.line l).NamesCtx c → (p.ctx c).lineId = some l → (q.ctx c).lineId = some l) (hp : SchedulesSound p.st) :
    SchedulesSound q.st := fun l c h => hc l c h (hp l c (hn l c h))

theorem LineServes.namesCtx {x y : Line} (h : LineServes x y) (c : CtxId) : y.NamesCtx c ↔ x.NamesCtx c := by
  simp only [Line.NamesCtx, h.active, h.waiting]

theorem Serves.schedules (h : Serves p q) (hp : SchedulesSound p.st) : SchedulesSound q.st :=
  schedules_of (fun l c => ((h.line l).namesCtx c).mp) (fun l c _ hl => by rw [(h.ctx c).moves.lineId]; exact hl) hp

theorem Shifts.lineId (h : Shifts p q) (c : CtxId) : (q.ctx c).lineId = (p.ctx c).lineId := (h.ctx c).lineId

theorem schedules_modLine {l : LineId} {f : Line → Line} (hf : ∀ c, (f (p.line l)).NamesCtx c → (p.line l).NamesCtx c ∨ (p.ctx c).lineId = some l)
    (hp : SchedulesSound p.st) : SchedulesSound (p.modLine l f).st := fun m c h => by
  simp only [Part.ctx_modLine]
  by_cases hm : m = l
  · subst hm
    simp only [Part.line_modLine_self] at h
    exact (hf c h).elim (hp m c) id
  · simp only [Part.line_modLine_ne _ _ hm] at h
    exact hp m c h

theorem lineId_of_namesOwn {l : LineId} {s : Schedule} (h : p.namesOwn l s = true) {c : CtxId} (hc : some c ∈ s) : (p.ctx c).lineId = some l :=
  (Context.onLine_iff l _).mp (by simpa using List.all_eq_true.mp h _ hc)

theorem namesCtx_setup {x : Line} {r : BitRate} {slots pmin : Nat} {c : CtxId} (h : (x.setup r slots pmin).NamesCtx c) : x.NamesCtx c := by
  rcases h with h | h
  · simp only [Line.setup] at h
    split at h
    · exact .inl h
    · simp at h
  · exact .inr h

theorem schedules_startLine (l : LineId) (hp : SchedulesSound p.st) : SchedulesSound (p.startLine l).st :=
  schedules_of (fun m c h => by
    by_cases hm : m = l
    · subst hm
      rwa [Part.line_startLine_self] at h
    · rwa [line_startLine_ne p hm] at h) (fun m c _ hl => by rw [(Shifts.startLine p l).lineId]; exact hl) hp

theorem schedules_swapTo (l : LineId) {new : Schedule} (hw : (p.line l).waiting = some new) (hp : SchedulesSound p.st) :
    SchedulesSound (p.swapTo l new).st :=
  schedules_of (fun m c h => by
    rw [(line_swapTo p l m new).namesCtx] at h
    split at h
    · subst m
      rcases h with h | ⟨w, hw', -⟩
      · exact .inr ⟨new, hw, h⟩
      · cases hw'
    · exact h) (fun m c _ hl => by rw [(Shifts.swapTo p l new).lineId]; exact hl) hp

theorem schedules_enterIdle (l : LineId) (why : LineReason) (hp : SchedulesSound p.st) : SchedulesSound (p.enterIdle l why).st :=
  schedules_of (fun m c h => by
    by_cases hm : m = l
    · subst hm
      obtain ⟨x, hx, he⟩ := line_enterIdle_self p m why
      rw [he] at h
      rw [← hx.namesCtx c]
      rcases h with h | ⟨w, hw, -⟩
      · simp only at h
        cases hw : x.waiting with
        | none =>
          rw [hw] at h
          exact .inl h
        | some w =>
          rw [hw] at h
          exact .inr ⟨w, hw, h⟩
      · cases hw
    · exact ((line_enterIdle_ne p why hm).namesCtx c).mp h) (fun m c _ hl => by rw [(Shifts.enterIdle p l why).lineId]; exact hl) hp

theorem mem_withoutContext {c d : CtxId} {s : Schedule} : some d ∈ withoutContext c s ↔ d ≠ c ∧ some d ∈ s := by
  simp only [withoutContext, List.mem_map]
  constructor
  · rintro ⟨e, he, h⟩
    split at h
    · cases h
    · subst h
      exact ⟨fun hdc => by simp_all, he⟩
  · rintro ⟨hd, hs⟩
    exact ⟨some d, hs, by simp [hd]⟩

theorem namesCtx_purge {l : LineId} {c d : CtxId} (h : ((p.purge l c).line l).NamesCtx d) : d ≠ c ∧ (p.line l).NamesCtx d := by
  rw [Part.line_purge, if_pos rfl] at h
  rcases h with h | ⟨w, hw, h⟩
  · obtain ⟨h1, h2⟩ := mem_withoutContext.mp h
    exact ⟨h1, .inl h2⟩
  · obtain ⟨w', hw', rfl⟩ := Option.map_eq_some_iff.mp hw
    obtain ⟨h1, h2⟩ := mem_withoutContext.mp h
    exact ⟨h1, .inr ⟨w', hw', h2⟩⟩

theorem Context.lineId_profiled (x : Context) (pr : Profile) : (x.profiled pr).lineId = some pr.line := by
  simp [Context.lineId, Context.profile_profiled]

theorem schedules_identified (c : CtxId) (pr : Profile) (hp : SchedulesSound p.st) : SchedulesSound (p.identified c pr).st := by
  intro m d h
  simp only [Part.line_identified] at h
  simp only [Part.ctx_identified]
  split at h
  · obtain ⟨hd, hn⟩ := namesCtx_purge h
    rw [if_neg hd]
    exact hp m d hn
  · rename_i hno
    have hm := hp m d h
    split
    · rename_i hd
      subst hd
      obtain ⟨old, ho, hl⟩ := lineId_eq_some.mp hm
      rw [Context.lineId_profiled]
      refine Classical.byContradiction fun hne => ?_
      exact hno ⟨old, ho, fun e => hne (by rw [← e, hl]), hl.symm⟩
    · exact hm

theorem schedules_releaseCtx (c : CtxId) (hp : SchedulesSound p.st) : SchedulesSound (p.releaseCtx c).st := by
  intro m d h
  simp only [Part.line_releaseCtx] at h
  simp only [Part.ctx_releaseCtx]
  split at h
  · obtain ⟨hd, hn⟩ := namesCtx_purge h
    rw [if_neg fun e => hd e.1]
    exact hp m d hn
  · rename_i hno
    have hm := hp m d h
    split
    · rename_i hd
      obtain ⟨rfl, -⟩ := hd
      exact absurd hm hno
    · exact hm

theorem Deed.schedules (h : Deed p q) (hp : SchedulesSound p.st) : SchedulesSound q.st := by
  cases h
  case serves h => exact h.schedules hp
  case send => exact (serves_sendStart p).schedules hp
  case reset =>
    intro l c h
    simp only [Part.line_reset, Line.afterReset, Line.afterPowerUp] at h
    rcases h with h | ⟨w, hw, -⟩
    · simp at h
    · cases hw
  case bind => exact hp
  case setup => exact schedules_modLine (fun c h => .inl (namesCtx_setup h)) hp
  case start => exact schedules_startLine _ hp
  case load l s h hi =>
    obtain ⟨-, -, -, hown⟩ := checkLoadSchedule_found p h
    exact schedules_modLine (fun c h => h.elim (fun h => .inr (lineId_of_namesOwn hown h)) fun h => .inl (.inr h)) hp
  case wait l s h hi =>
    obtain ⟨-, -, -, hown⟩ := checkLoadSchedule_found p h
    refine schedules_modLine (fun c h => h.elim (fun h => .inl (.inl h)) fun ⟨w, hw, h⟩ => ?_) hp
    cases hw
    exact .inr (lineId_of_namesOwn hown h)
  case profile => exact (serves_identified ..).schedules (schedules_identified _ _ hp)
  case release => exact schedules_releaseCtx _ hp
  case swap hi hw => exact schedules_swapTo _ hw hp
  case idle => exact schedules_enterIdle _ _ hp

/-! ### Attachment and slots (R25, R28, R45) -/

/-- A served context has a slot on a line in RUN or TEST, and a PARKED one on such a line has none. -/
def Slotted (p : Part) (x : Context) (c : CtxId) : Prop :=
  (x.attach ≠ .free → x.attach ≠ .parked → ∃ l, x.lineId = some l ∧ (p.line l).state ≠ .idle ∧ some c ∈ (p.line l).active) ∧
  ∀ l, x.attach = .parked → x.lineId = some l → (p.line l).state ≠ .idle → some c ∉ (p.line l).active

theorem servedSound_iff : ServedSound p.st ↔ ∀ c, Slotted p (p.ctx c) c := Iff.rfl

/-- The same context, its lines as they were. -/
theorem Slotted.of {x y : Context} {c : CtxId} (hp : Slotted p x c) (hl : y.lineId = x.lineId) (hk : y.attach = .parked ↔ x.attach = .parked)
    (hf : y.attach = .free ↔ x.attach = .free)
    (hs : ∀ l, x.lineId = some l → ((q.line l).state = .idle ↔ (p.line l).state = .idle) ∧
      ((p.line l).state ≠ .idle → (some c ∈ (q.line l).active ↔ some c ∈ (p.line l).active))) : Slotted q y c := by
  refine ⟨fun h1 h2 => ?_, fun l h1 h2 h3 => ?_⟩
  · obtain ⟨l, g1, g2, g3⟩ := hp.1 (fun e => h1 (hf.mpr e)) fun e => h2 (hk.mpr e)
    obtain ⟨s1, s2⟩ := hs l g1
    exact ⟨l, hl.trans g1, fun e => g2 (s1.mp e), (s2 g2).mpr g3⟩
  · rw [hl] at h2
    obtain ⟨s1, s2⟩ := hs l h2
    have h3' := fun e => h3 (s1.mpr e)
    exact fun e => hp.2 l (hk.mp h1) h2 h3' ((s2 h3').mp e)

theorem Serves.served (h : Serves p q) (hp : ServedSound p.st) : ServedSound q.st := fun c =>
  Slotted.of (hp c) (h.ctx c).moves.lineId (h.ctx c).parked (h.ctx c).free fun l _ => ⟨(h.line l).idle, fun _ => by rw [(h.line l).active]⟩

/-- A line in IDLE serves nothing, so that its schedule may change. -/
theorem served_modLine {l : LineId} {f : Line → Line} (hi : (p.line l).state = .idle ∨ (f (p.line l)).active = (p.line l).active)
    (hf : (f (p.line l)).state = (p.line l).state) (hp : ServedSound p.st) : ServedSound (p.modLine l f).st := fun c => by
  simp only [Part.ctx_modLine]
  refine Slotted.of (hp c) rfl Iff.rfl Iff.rfl fun m _ => ?_
  by_cases hm : m = l
  · subst hm
    exact ⟨by simp [hf], fun hne => by simp [hi.resolve_left hne]⟩
  · rw [Part.line_modLine_ne _ _ hm]
    exact ⟨Iff.rfl, fun _ => Iff.rfl⟩

theorem served_startLine (l : LineId) (hi : (p.line l).state = .idle) (hp : ServedSound p.st) : ServedSound (p.startLine l).st := fun c => by
  have active : ((p.startLine l).line l).active = (p.line l).active := by rw [Part.line_startLine_self]
  have running : ((p.startLine l).line l).state ≠ .idle := by
    rw [Part.line_startLine_self]
    nofun
  simp only [Part.ctx_startLine]
  split
  · rename_i h
    exact ⟨fun _ _ => ⟨l, h.1, running, by rw [active]; exact h.2⟩, fun _ hk => by cases hk⟩
  · rename_i h
    by_cases hc : (p.ctx c).lineId = some l
    · have hno : some c ∉ (p.line l).active := fun e => h ⟨hc, e⟩
      refine ⟨fun h1 h2 => ?_, fun m h1 h2 _ => ?_⟩
      · obtain ⟨m, g1, g2, g3⟩ := (hp c).1 h1 h2
        obtain rfl : l = m := Option.some.inj (hc.symm.trans g1)
        exact absurd hi g2
      · obtain rfl : l = m := Option.some.inj (hc.symm.trans h2)
        rwa [active]
    · refine Slotted.of (hp c) rfl Iff.rfl Iff.rfl fun m hm => ?_
      have hml : m ≠ l := fun e => hc (e ▸ hm)
      rw [line_startLine_ne p hml]
      exact ⟨Iff.rfl, fun _ => Iff.rfl⟩

theorem served_swapTo (l : LineId) (new : Schedule) (hi : (p.line l).state ≠ .idle) (hp : ServedSound p.st) : ServedSound (p.swapTo l new).st := by
  intro c
  have hline := (Shifts.swapTo p l new).lineId c
  have active : ((p.swapTo l new).line l).active = new := by
    have := (line_swapTo p l l new).active
    rwa [if_pos rfl] at this
  have running : ((p.swapTo l new).line l).state ≠ .idle := fun e => hi ((idle_swapTo p l new).mp e)
  have hat := attach_swapTo p l new c
  by_cases hc : (p.ctx c).lineId = some l
  · simp only [mem_swapGainers, mem_swapLosers, hc, true_and] at hat
    refine ⟨fun h1 h2 => ⟨l, hline.trans hc, running, ?_⟩, fun m h1 h2 h3 => ?_⟩
    · rw [active]
      refine Classical.byContradiction fun hn => ?_
      rw [if_neg fun h => hn h.2.1] at hat
      by_cases hk : (p.ctx c).attach = .parked
      · rw [if_neg fun h => h.2.2 hk] at hat
        exact h2 (hat.trans hk)
      · by_cases hf : (p.ctx c).attach = .free
        · rw [hf] at hat
          split at hat
          · exact h2 hat
          · exact h1 hat
        · obtain ⟨m, g1, -, g3⟩ := (hp c).1 hf hk
          obtain rfl : l = m := Option.some.inj (hc.symm.trans g1)
          rw [if_pos ⟨g3, hn, hk⟩] at hat
          exact h2 hat
    · obtain rfl : l = m := Option.some.inj (hc.symm.trans (hline.symm.trans h2))
      rw [active]
      intro hn
      by_cases hk : (p.ctx c).attach = .parked
      · rw [if_pos ⟨(hp c).2 l hk hc hi, hn, hk⟩] at hat
        rw [show ((p.swapTo l new).ctx c).attach = .parked from h1] at hat
        cases hat
      · rw [if_neg fun h => hk h.2.2, if_neg fun h => h.2.1 hn] at hat
        exact hk (hat.symm.trans h1)
  · rw [if_neg fun h => hc ((mem_swapGainers p l).mp h).1, if_neg fun h => hc ((mem_swapLosers p l).mp h).1] at hat
    refine Slotted.of (hp c) hline (by rw [hat]) (by rw [hat]) fun m hm => ?_
    have hml : m ≠ l := fun e => hc (e ▸ hm)
    have hsame := line_swapTo p l m new
    rw [if_neg hml] at hsame
    exact ⟨hsame.idle, fun _ => by rw [hsame.active]⟩

theorem served_enterIdle (l : LineId) (why : LineReason) (hp : ServedSound p.st) : ServedSound (p.enterIdle l why).st := by
  intro c
  have hline := (Shifts.enterIdle p l why).lineId c
  have hat := attach_enterIdle p l why c
  by_cases hc : (p.ctx c).lineId = some l
  · rw [if_pos hc] at hat
    obtain ⟨x, -, he⟩ := line_enterIdle_self p l why
    refine ⟨fun _ h2 => absurd hat h2, fun m _ h2 h3 => ?_⟩
    obtain rfl : l = m := Option.some.inj (hc.symm.trans (hline.symm.trans h2))
    exact absurd (by rw [he]) h3
  · rw [if_neg hc] at hat
    refine Slotted.of (hp c) hline (by rw [hat]) (by rw [hat]) fun m hm => ?_
    have hsame := line_enterIdle_ne p why (l := l) (m := m) fun e => hc (e ▸ hm)
    exact ⟨hsame.idle, fun _ => by rw [hsame.active]⟩

/-- Another context's entries stay as a context's are removed. -/
theorem mem_purge_active {l : LineId} {c d : CtxId} (hd : d ≠ c) (m : LineId) :
    some d ∈ ((p.purge l c).line m).active ↔ some d ∈ (p.line m).active := by
  rw [Part.line_purge]
  split
  · simp [mem_withoutContext, hd]
  · rfl

theorem served_identified {ctx : Nat} {f : ProfileFields} {c : CtxId} {pr : Profile} (h : p.checkDropProfile ctx f = .ok (c, pr))
    (hs : SchedulesSound p.st) (hp : ServedSound p.st) : ServedSound (p.identified c pr).st := by
  intro d
  simp only [Part.ctx_identified]
  have state (m : LineId) := state_identified p m c pr
  by_cases hd : d = c
  · subst hd
    rw [if_pos rfl]
    have sched := schedules_identified d pr hs
    cases ho : (p.ctx d).profile with
    | none =>
      refine ⟨fun _ hk => absurd (by rw [Context.attach_profiled, if_pos ho]) hk, fun m _ _ _ hm => ?_⟩
      simp only [Part.line_identified, ho, false_and, exists_false, if_false, reduceCtorEq] at hm
      have := hs m d (.inl hm)
      simp [Context.lineId, ho] at this
    | some old =>
      have hat : ((p.ctx d).profiled pr).attach = (p.ctx d).attach := by
        rw [Context.attach_profiled, if_neg (by simp [ho])]
      obtain ⟨line, address, kind, rules, rfl, -, -, -, hcond, -⟩ := checkDropProfile_found h
      by_cases hl : old.line = line
      · subst hl
        refine Slotted.of (hp d) ?_ (by rw [hat]) (by rw [hat]) fun m _ => ?_
        · rw [Context.lineId_profiled]
          simp [Context.lineId, ho, newProfile]
        · simp [Part.line_identified, newProfile, ho]
      · have hpk : ((p.ctx d).profiled (newProfile line address kind (p.ctx d).profile f rules)).attach = .parked ∨
            ((p.ctx d).profiled (newProfile line address kind (p.ctx d).profile f rules)).attach = .free := by
          rw [hat]
          rcases hcond with h1 | h1 | h1
          · exact .inr h1
          · exact .inl h1
          · obtain ⟨old', ho', hl', -⟩ := keepsIdentity_iff.mp h1
            rw [ho] at ho'
            cases ho'
            exact absurd hl' hl
        refine ⟨fun h1 h2 => absurd hpk (by simp [h1, h2]), fun m _ hm _ hn => ?_⟩
        rw [Context.lineId_profiled] at hm
        obtain rfl : line = m := Option.some.inj hm
        simp only [Part.line_identified] at hn
        split at hn
        · rename_i hx
          obtain ⟨old', ho', -, he⟩ := hx
          rw [ho] at ho'
          cases ho'
          exact hl he.symm
        · have := hs line d (.inl hn)
          simp [Context.lineId, ho, hl] at this
  · rw [if_neg hd]
    refine Slotted.of (hp d) rfl Iff.rfl Iff.rfl fun m _ => ⟨by rw [state], fun _ => ?_⟩
    rw [Part.line_identified]
    split
    · exact mem_purge_active hd m
    · rfl

theorem served_releaseCtx (c : CtxId) (hp : ServedSound p.st) : ServedSound (p.releaseCtx c).st := by
  intro d
  simp only [Part.ctx_releaseCtx]
  split
  · exact ⟨fun h => absurd rfl h, fun _ h => by cases h⟩
  · rename_i hd
    refine Slotted.of (hp d) rfl Iff.rfl Iff.rfl fun m hm => ⟨by rw [state_releaseCtx], fun _ => ?_⟩
    rw [Part.line_releaseCtx]
    split
    · refine mem_purge_active (fun e => ?_) m
      subst e
      exact hd ⟨rfl, profile_of_lineId m hm⟩
    · rfl

theorem Deed.served (h : Deed p q) (hs : SchedulesSound p.st) (hp : ServedSound p.st) : ServedSound q.st := by
  cases h
  case serves h => exact h.served hp
  case send => exact (serves_sendStart p).served hp
  case reset =>
    intro c
    simp only [Part.ctx_reset]
    exact ⟨fun h => absurd rfl h, fun _ h => by cases h⟩
  case bind => exact hp
  case setup h _ => exact served_modLine (.inl (checkLineSetup_found p h).2) rfl hp
  case start h => exact served_startLine _ h hp
  case load hi => exact served_modLine (.inl hi) rfl hp
  case wait => exact served_modLine (.inr rfl) rfl hp
  case profile h => exact (serves_identified ..).served (served_identified h hs hp)
  case release => exact served_releaseCtx _ hp
  case swap hi hw => exact served_swapTo _ _ hi hp
  case idle => exact served_enterIdle _ _ hp

end

/-- Settles O56: each deed of a step keeps each condition. -/
theorem linesStaySound : Obligations.LinesStaySound := by
  unfold Obligations.LinesStaySound
  intro s t h
  have hd := deeds_of_partStep (partStep_of_step h)
  refine ⟨Deeds.keeps (I := fun p => LinesSound p.st) (fun _ _ => Deed.linesSound) hd,
    Deeds.keeps (I := fun p => SchedulesSound p.st) (fun _ _ => Deed.schedules) hd, fun hs hp => ?_⟩
  exact (Deeds.keeps (I := fun p => SchedulesSound p.st ∧ ServedSound p.st)
    (fun _ _ h hp => ⟨h.schedules hp.1, h.served hp.1 hp.2⟩) hd ⟨hs, hp⟩).2

end Sys2Proof.Machine
end

section
/-! PROOFS. The link as bytes come in (chapter 11): a whole message read byte by byte, link errors, the request that waits, and the link that
ignores all (O6, O7, O8, O10). -/

namespace Sys2Proof.Machine

open Sys2Proof.Safety

/-! ### Numbers and CRCs on the wire (R163) -/

theorem satInc_eq_min (n : Nat) : satInc n = min 65535 (n + 1) := by
  rw [satInc, Config.maxCount]
  split <;> omega

theorem num_two (n : Nat) : num 2 n = [.ofNat 8 n, .ofNat 8 (n / 256)] := rfl

theorem readNum_two (b1 b2 : Byte) : readNum [b1, b2] = b1.toNat + 256 * b2.toNat := by
  simp [readNum]

theorem readNum_num_two {n : Nat} (h : n < 65536) : readNum (num 2 n) = n := by
  rw [num_two, readNum_two]
  simp only [BitVec.toNat_ofNat]
  omega

theorem crcOf_append {w : Nat} (low start : BitVec w) (xs ys : List Bool) : crcOf low start (xs ++ ys) = crcOf low (crcOf low start xs) ys :=
  List.foldl_append

theorem crc16Byte_eq (c : BitVec 16) (b : Byte) : crc16Byte c b = crcOf 0x1021 c ((List.range 8).map b.getMsbD) := by
  have bit (c : BitVec 16) (x : Bool) : crc16Bit c x = if c.msb = x then c <<< 1 else (c <<< 1) ^^^ 0x1021 := by
    unfold crc16Bit
    have : c.getMsbD 0 = c.msb := rfl
    rw [this]
    cases c.msb <;> cases x <;> rfl
  simp only [crc16Byte, crcOf, List.range, List.range.loop, List.map, List.foldl, bit]
  rfl

/-- The CRC-16 of the model is the register of the generator over all bits. -/
theorem crc16_eq (l : List Byte) : crc16 l = crcOf 0x1021 0xFFFF (l.flatMap fun b => (List.range 8).map b.getMsbD) := by
  unfold crc16
  generalize (0xFFFF : BitVec 16) = c
  induction l generalizing c with
  | nil => rfl
  | cons b l ih => rw [List.foldl_cons, ih, crc16Byte_eq, List.flatMap_cons, crcOf_append]

/-- The two CRC bytes of a body. -/
def crcBytes (body : List Byte) : List Byte := num 2 (crc16 (num 2 body.length ++ body)).toNat

theorem wireMessage_eq (body : List Byte) : wireMessage body = 0xC5 :: (num 2 body.length ++ body ++ crcBytes body) := by
  simp only [wireMessage, crcBytes, crc16_eq]

theorem frameMessage_eq (body : List Byte) : frameMessage body = wireMessage body := by
  simp only [frameMessage, wireMessage_eq, crcBytes, List.cons_append]

/-! ### A whole message (R164) -/

section
variable (p : Part)

/-- Bytes inside a message, none of which completes it or spoils its length, are kept. -/
theorem Part.takeBytes_inside (hl : p.link.listening = true) (bs rx : List Byte) (hrx : rx ≠ [])
    (h : ∀ t, t <+: bs → t ≠ [] → lengthBad (rx ++ t) = false ∧ messageWhole (rx ++ t) = false) :
    bs.foldl Part.takeByte (p.withRx rx) = p.withRx (rx ++ bs) := by
  induction bs generalizing rx with
  | nil => simp
  | cons b bs ih =>
    obtain ⟨h1, h2⟩ := h [b] (by simp) (by simp)
    rw [List.foldl_cons, Part.takeByte_inside p rx b hl hrx h1 h2, ih _ (by simp)]
    · simp
    · intro t ht hne
      have := h (b :: t) (by simpa using ht) (by simp)
      simpa using this

variable {p}

theorem lengthBad_body {n : Nat} (h1 : 2 ≤ n) (h2 : n ≤ 1200) (a : Byte) (t : List Byte) : lengthBad (a :: (num 2 n ++ t)) = false := by
  rw [num_two]
  cases t with
  | nil =>
    have := readNum_num_two (n := n) (by omega)
    rw [num_two] at this
    simp [lengthBad, this, h1, h2]
  | cons b t => rfl

theorem messageWhole_body {n : Nat} (h2 : n ≤ 1200) (a : Byte) (t : List Byte) :
    messageWhole (a :: (num 2 n ++ t)) = (t.length == n + 2) := by
  have := readNum_num_two (n := n) (by omega)
  rw [num_two] at this ⊢
  simp [messageWhole, this]

/-- What a list that begins with two bytes can begin with. -/
theorem prefix_num {n : Nat} {t l : List Byte} (h : t <+: num 2 n ++ l) :
    t = [] ∨ t = [.ofNat 8 n] ∨ ∃ t', t = num 2 n ++ t' ∧ t' <+: l := by
  rw [num_two] at h ⊢
  match t, h with
  | [], _ => exact .inl rfl
  | [a], h =>
    obtain ⟨r, hr⟩ := h
    simp only [List.cons_append, List.nil_append, List.cons.injEq] at hr
    exact .inr (.inl (by rw [hr.1]))
  | a :: b :: t, h =>
    simp only [List.cons_append, List.nil_append, List.cons_prefix_cons] at h
    obtain ⟨rfl, rfl, h⟩ := h
    exact .inr (.inr ⟨t, rfl, h⟩)

theorem splitMessage_body (a : Byte) (l : List Byte) (b1 b2 : Byte) : splitMessage (a :: (l ++ [b1, b2])) = (l, [b1, b2]) := by
  simp [splitMessage]

theorem crcGood_body (body : List Byte) (a b1 b2 : Byte) :
    crcGood (a :: (num 2 body.length ++ body ++ [b1, b2])) = true ↔ [b1, b2] = crcBytes body := by
  simp only [crcGood, splitMessage_body, crcBytes, beq_iff_eq]
  exact eq_comm

/-- A whole message that arrives while the receiver hunts: its CRC decides (R164). -/
theorem Part.takeBytes_message (hl : p.link.listening = true) (hrx : p.link.rx = []) (body : List Byte) (h1 : 2 ≤ body.length)
    (h2 : body.length ≤ 1200) (b1 b2 : Byte) : (0xC5 :: (num 2 body.length ++ body ++ [b1, b2])).foldl Part.takeByte p =
      if [b1, b2] = crcBytes body then p.receive (readMessage body) else p.linkError .check := by
  have hstart : p.takeByte 0xC5 = p.withRx [0xC5] := Part.takeByte_start p hl hrx
  have hsplit : num 2 body.length ++ body ++ [b1, b2] = (num 2 body.length ++ (body ++ [b1])) ++ [b2] := by simp
  have hin := Part.takeBytes_inside p hl (num 2 body.length ++ (body ++ [b1])) [0xC5] (by simp) fun t ht hne => by
    rcases prefix_num ht with rfl | rfl | ⟨t', rfl, ht'⟩
    · exact absurd rfl hne
    · exact ⟨rfl, rfl⟩
    · refine ⟨lengthBad_body h1 h2 _ _, ?_⟩
      rw [List.singleton_append, messageWhole_body h2]
      have := ht'.length_le
      simp only [List.length_append, List.length_singleton] at this
      simp only [beq_eq_false_iff_ne]
      omega
  have hwhole : [0xC5] ++ (num 2 body.length ++ (body ++ [b1])) ++ [b2] = 0xC5 :: (num 2 body.length ++ (body ++ [b1, b2])) := by simp
  rw [List.foldl_cons, hstart, hsplit, List.foldl_append, hin, List.foldl_cons, List.foldl_nil,
    Part.takeByte_last p _ _ hl (by simp) (by rw [hwhole]; exact lengthBad_body h1 h2 _ _)
      (by rw [hwhole, messageWhole_body h2]; simp), hwhole, ← List.append_assoc, splitMessage_body, Part.withRx_self p hrx]
  have hdrop : (num 2 body.length ++ body).drop 2 = body := rfl
  rw [hdrop]
  by_cases hc : [b1, b2] = crcBytes body
  · rw [if_pos hc, if_pos ((crcGood_body body 0xC5 b1 b2).mpr hc)]
  · rw [if_neg hc, if_neg fun h => hc ((crcGood_body body 0xC5 b1 b2).mp h)]

/-- A good message that arrives while the receiver hunts. -/
theorem Part.takeBytes_wireMessage (hl : p.link.listening = true) (hrx : p.link.rx = []) {body : List Byte} (h1 : 2 ≤ body.length)
    (h2 : body.length ≤ 1200) : (wireMessage body).foldl Part.takeByte p = p.receive (readMessage body) := by
  rw [wireMessage_eq]
  exact (Part.takeBytes_message hl hrx body h1 h2 _ _).trans (if_pos rfl)

end

/-! ### Link errors (R164) -/

section
variable (p : Part) (e : LinkError)

/-- A link error is counted, and LINK_FRAME is detected with it. -/
theorem linkError_ends : (p.linkError e).link =
      { p.link with errors := p.link.errors.set e.index.val (min 65535 (p.link.errors[e.index.val] + 1)) e.index.isLt } ∧
    SameLines p (p.linkError e) ∧ SameContexts p (p.linkError e) ∧ SamePositions p (p.linkError e) ∧
    EventEnds [{ cls := .linkFrame, line := none, ctx := none, stamp := none, detail := some (.link e) }] [] p (p.linkError e) := by
  rw [Part.linkError_eq]
  refine ⟨?_, fun l => by simp, fun c => by simp, fun i => by simp, ?_⟩
  · simp only [Part.link_offerAll, Part.modLink, Part.link_setFaults, Part.link_setLink, Link.countError, satInc_eq_min]
    rfl
  · simp only [EventEnds, List.append_nil]
    exact Part.offerAll_congr _ rfl rfl

end

/-- What an event offers depends on the Event Queue and the Fault Record alone. -/
theorem eventEnds_congr {ds : List Detection} {tail : List Rec} {p p' q : Part} (h : EventEnds ds tail p q) (hq : p'.queue = p.queue)
    (hf : p'.faults = p.faults) : EventEnds ds tail p' q := by
  obtain ⟨h1, h2⟩ := h
  simp only [EventEnds, hf]
  have same := Part.offerAll_congr (p := { p with faults := (recordAll p.faults ds).1 }) (q := { p' with faults := (recordAll p.faults ds).1 })
    ((recordAll p.faults ds).2 ++ tail) hq.symm rfl
  exact ⟨h1.trans same.1, h2.trans same.2⟩

section
variable {s : State}

theorem listening_iff {k : Link} : k.listening = true ↔ k.phase = .running ∧ k.restarting = false := by
  simp [Link.listening]

/-- Settles O6: nothing is taken while the link does not listen. -/
theorem deafLinkIgnoresAll : Obligations.DeafLinkIgnoresAll := by
  unfold Obligations.DeafLinkIgnoresAll
  intro s h
  have hl : s.part.link.listening = false := by
    rw [Bool.eq_false_iff, ne_eq, listening_iff]
    rintro ⟨h1, h2⟩
    rcases h with h | h
    · exact h h1
    · rw [h2] at h
      cases h
  have bytes (bs : List Byte) : bs.foldl Part.takeByte s.part = s.part := by
    induction bs with
    | nil => rfl
    | cons b bs ih => rw [List.foldl_cons, show s.part.takeByte b = s.part by simp [Part.takeByte, hl], ih]
  refine ⟨fun tag r => ?_, fun bs => ?_, ?_⟩
  · rw [exec_command]
    simp [arrive, effect_eq, State.onPart, Part.receive, hl]
  · simp only [exec, execLinkMessageReceived, effect_eq, State.onPart, bytes]
  · simp [exec, execLinkGapTimeout, effect_eq, State.onPart, Part.gapTimeout, hl]

/-! ### Every request is answered (R165) -/

/-- A refused request leaves the part as it was. -/
theorem serve_refused {p : Part} {r : Request} {code : RefusalCode} {field : Nat} (h : (serve r p).2 = .refused code field) :
    (serve r p).1 = p := by
  cases r <;> simp only [serve] at h ⊢
  case status => rfl
  case restart => cases h
  case readFaults => rfl
  case clearFaults => cases h
  all_goals exact judge_refused _ _ _ h

theorem readPos_eq_none {n : Nat} (h : ¬ (1 ≤ n ∧ n ≤ 8)) : readPos n = none := by
  unfold readPos
  split <;> first | rfl | omega

theorem readCtx_eq_none {n : Nat} (h : 15 < n) : readCtx n = none := by
  unfold readCtx
  split <;> first | rfl | omega

theorem readLines_eq_none {n : Nat} (h : 2 < n) : readLines n = none := by
  unfold readLines
  split <;> first | rfl | omega

theorem readRecordKind_eq_none {n : Nat} (h : 10 < n) : readRecordKind n = none := by
  unfold readRecordKind
  split <;> first | rfl | omega

/-- The first check of a request is that of its first field. -/
theorem serve_firstFieldBad {p : Part} {r : Request} (h : FirstFieldBad r) : serve r p = (p, .refused .badField 1) := by
  cases r <;> simp only [FirstFieldBad] at h
  case lineSetup => simp only [serve, serveLineSetup, Part.checkLineSetup, readLine_eq_none h, want_none_bind, judge_error]
  case lineStart => simp only [serve, serveLineStart, Part.checkLineStart, readLines_eq_none h, want_none_bind, judge_error]
  case lineStop => simp only [serve, serveLineStop, readLines_eq_none h, want, judge_error]
  case loadSchedule => simp only [serve, serveLoadSchedule, Part.checkLoadSchedule, readLine_eq_none h, want_none_bind, judge_error]
  case readSchedule => simp only [serve, serveReadSchedule, readLine_eq_none h, want, judge_error]
  case bindPosition => simp only [serve, serveBindPosition, Part.checkBind, readPos_eq_none h, want_none_bind, judge_error]
  case setIndicators => simp only [serve, serveSetIndicators, Part.checkIndicators, readPos_eq_none h, want_none_bind, judge_error]
  case openEntry => simp only [serve, serveOpenEntry, Part.checkOpenEntry, readPos_eq_none h, want_none_bind, judge_error]
  case cancelEntry => simp only [serve, serveCancelEntry, Part.checkCancelEntry, readPos_eq_none h, want_none_bind, judge_error]
  case armReader => simp only [serve, serveArmReader, Part.checkArmReader, readPos_eq_none h, want_none_bind, judge_error]
  case disarmReader => simp only [serve, serveDisarmReader, Part.checkDisarmReader, readPos_eq_none h, want_none_bind, judge_error]
  case dropProfile => simp only [serve, serveDropProfile, Part.checkDropProfile, readCtx_eq_none h, want_none_bind, judge_error]
  case dropRelease => simp only [serve, serveDropRelease, Part.checkDropRelease, readCtx_eq_none h, want_none_bind, judge_error]
  case chipStart => simp only [serve, serveChipStart, Part.checkChipStart, readPos_eq_none h, want_none_bind, judge_error]
  case chipExchange => simp only [serve, serveChipExchange, Part.checkChipExchange, readPos_eq_none h, want_none_bind, judge_error]
  case chipStop => simp only [serve, serveChipStop, Part.checkChipStop, readPos_eq_none h, want_none_bind, judge_error]
  case releaseCard => simp only [serve, serveReleaseCard, Part.checkReleaseCard, readPos_eq_none h, want_none_bind, judge_error]
  case setLevels => simp only [serve, serveSetLevels, checkSetLevels, readRecordKind_eq_none h, want_none_bind, judge_error]
  case loopStart => simp only [serve, serveLoopStart, Part.checkLoopStart, readLines_eq_none h, want_none_bind, judge_error]
  case loopStop => simp only [serve, serveLoopStop, Part.checkLoopStop, readLines_eq_none h, want_none_bind, judge_error]
  case readLoopResults => simp only [serve, serveReadLoopResults, readLines_eq_none h, want, judge_error]

/-- Settles O7: a request taken at once is served, and its rule's first check is that of its first field. -/
theorem everyRequestIsAnswered : Obligations.EveryRequestIsAnswered := by
  unfold Obligations.EveryRequestIsAnswered
  intro s tag r hs hr
  refine ⟨⟨_, _, exec_command_ready hs tag r hr, fun code field h => serve_refused h⟩, fun h => ?_⟩
  exact exec_of_serve hs tag r hr (serve_firstFieldBad h)

/-! ### Requests while one is in hand -/

section
variable (h1 : s.part.link.phase = .running) (h2 : s.part.link.restarting = false) (h3 : s.part.link.inHand = true) (m : Message)
include h1 h2 h3

/-- A message becomes the pending request. -/
theorem receive_waits (h4 : s.part.link.held = none) : s.part.receive m =
    { s.part with link := { s.part.link with held := some m, rts := !s.part.link.straps.flow } } := by
  simp [Part.receive, listening_iff.mpr ⟨h1, h2⟩, h3, h4, Part.modLink, Part.setLink, Link.refreshRts, Link.rtsLevel, h1, h2]

/-- A message beyond the pending request is an OVERFLOW. -/
theorem receive_overflows (h4 : s.part.link.held.isSome = true) : s.part.receive m = s.part.linkError .overflow := by
  have : s.part.link.held.isNone = false := by
    cases h : s.part.link.held <;> simp_all
  simp [Part.receive, listening_iff.mpr ⟨h1, h2⟩, h3, this]

end

/-- Settles O8: a message that arrives is received at once as a row, or at its last byte as bytes. -/
theorem secondRequestWaitsThirdOverflows : Obligations.SecondRequestWaitsThirdOverflows := by
  unfold Obligations.SecondRequestWaitsThirdOverflows
  refine ⟨fun s tag r h1 h2 h3 => ⟨fun h4 => ?_, fun h4 => ?_⟩, fun s body h1 h2 h3 hrx hb1 hb2 => ⟨fun h4 => ?_, fun h4 => ?_⟩⟩
  · rw [exec_command]
    simp only [arrive, effect_eq, State.onPart, receive_waits h1 h2 h3 _ h4, requestMessage]
  · refine ⟨s.part.linkError .overflow, ?_, ?_⟩
    · rw [exec_command]
      simp only [arrive, effect_eq, State.onPart, receive_overflows h1 h2 h3 _ h4]
    · exact linkError_ends s.part .overflow
  · simp only [exec, execLinkMessageReceived, effect_eq, State.onPart]
    rw [Part.takeBytes_wireMessage (listening_iff.mpr ⟨h1, h2⟩) hrx hb1 hb2, receive_waits h1 h2 h3 _ h4]
  · refine ⟨s.part.linkError .overflow, ?_, ?_⟩
    · simp only [exec, execLinkMessageReceived, effect_eq, State.onPart]
      rw [Part.takeBytes_wireMessage (listening_iff.mpr ⟨h1, h2⟩) hrx hb1 hb2, receive_overflows h1 h2 h3 _ h4]
    · exact linkError_ends s.part .overflow

theorem Part.takeByte_badLength {p : Part} {rx : List Byte} {b : Byte} (hl : p.link.listening = true) (h : rx ≠ [])
    (hbad : lengthBad (rx ++ [b]) = true) : (p.withRx rx).takeByte b = (p.withRx []).linkError .length := by
  simp only [Part.takeByte, Part.listening_withRx, hl, Part.rx_withRx, h, hbad, if_false, Bool.not_true, Bool.false_eq_true, if_true]
  rfl

/-- A length out of range ends a message at its second byte. -/
theorem takeBytes_badLength (hl : s.part.link.listening = true) (hrx : s.part.link.rx = []) {b1 b2 : Byte}
    (h : ¬ (2 ≤ b1.toNat + 256 * b2.toNat ∧ b1.toNat + 256 * b2.toNat ≤ 1200)) :
    [0xC5, b1, b2].foldl Part.takeByte s.part = s.part.linkError .length := by
  have hbad : lengthBad ([0xC5] ++ [b1] ++ [b2]) = true := by
    simp [lengthBad, readNum_two]
    omega
  have hmid := Part.takeByte_inside s.part [0xC5] b1 hl (by simp) rfl rfl
  rw [List.foldl_cons, Part.takeByte_start _ hl hrx, List.foldl_cons, hmid, List.foldl_cons, List.foldl_nil,
    Part.takeByte_badLength hl (by simp) hbad, Part.withRx_self _ hrx]

/-- Settles O10: a bad CRC, a bad length and a gap each end the message with their error. -/
theorem linkErrorsDiscardTheMessage : Obligations.LinkErrorsDiscardTheMessage := by
  unfold Obligations.LinkErrorsDiscardTheMessage
  intro s h1 h2
  have hl := listening_iff.mpr ⟨h1, h2⟩
  refine ⟨fun body b1 b2 hrx hb1 hb2 hne => ?_, fun b1 b2 hrx hbad => ?_, fun hrx => ?_, fun hrx => ?_⟩
  · refine ⟨s.part.linkError .check, ?_, linkError_ends s.part .check⟩
    simp only [exec, execLinkMessageReceived, effect_eq, State.onPart]
    rw [Part.takeBytes_message hl hrx body hb1 hb2, if_neg]
    intro h
    exact hne (by rw [wireMessage_eq, h])
  · refine ⟨s.part.linkError .length, ?_, linkError_ends s.part .length⟩
    simp only [exec, execLinkMessageReceived, effect_eq, State.onPart, takeBytes_badLength hl hrx hbad]
  · simp [exec, execLinkGapTimeout, effect_eq, State.onPart, Part.gapTimeout, hrx]
  · obtain ⟨hk, hlines, hctx, hpos, he⟩ := linkError_ends (s.part.withRx []) .gap
    refine ⟨(s.part.withRx []).linkError .gap, ?_, hk, hlines, hctx, hpos, eventEnds_congr he rfl rfl⟩
    simp only [exec, execLinkGapTimeout, effect_eq, State.onPart, Part.gapTimeout]
    rw [if_pos ⟨hl, hrx⟩]
    rfl

end

end Sys2Proof.Machine
end

section
/-! PROOFS. The Event Queue's admission, losses and reservations, and the taking of a detection (section 9, 10.1.2). -/

namespace Sys2Proof.Machine

open Sys2Proof.Safety

/-! ### The oldest notice of the lowest level -/

theorem lowestNotice_append (xs ys : List Rec) :
    lowestNotice (xs ++ ys) = (lowestNotice xs).merge min (lowestNotice ys) := by
  induction xs with
  | nil => cases h : lowestNotice ys <;> simp [lowestNotice, h]
  | cons x xs ih =>
    simp only [List.cons_append, lowestNotice, ih]
    cases x.isNotice <;> cases lowestNotice xs <;> cases lowestNotice ys <;> simp [Nat.min_assoc]

theorem lowestNotice_eq_none {rs : List Rec} : lowestNotice rs = none ↔ ∀ x ∈ rs, x.isNotice = false := by
  induction rs with
  | nil => simp [lowestNotice]
  | cons r rs ih => cases h : r.isNotice <;> simp [lowestNotice, h, ih]

/-- The level of the oldest notice of the lowest level, and the queue without that notice. -/
theorem lowestNotice_of_oldest {before after : List Rec} {old : Rec} (hold : old.isNotice = true)
    (hbefore : ∀ x ∈ before, x.isNotice = true → old.level < x.level)
    (hafter : ∀ x ∈ after, x.isNotice = true → old.level ≤ x.level) :
    lowestNotice (before ++ old :: after) = some old.level ∧
      evictNotice old.level (before ++ old :: after) = before ++ after := by
  constructor
  · have hb : ∀ m, lowestNotice before = some m → old.level ≤ m := fun m hm => by
      obtain ⟨x, hx, hn, rfl⟩ := lowestNotice_mem hm
      exact Nat.le_of_lt (hbefore x hx hn)
    have ha : ∀ m, lowestNotice after = some m → old.level ≤ m := fun m hm => by
      obtain ⟨x, hx, hn, rfl⟩ := lowestNotice_mem hm
      exact hafter x hx hn
    rw [lowestNotice_append]
    cases h1 : lowestNotice before <;> cases h2 : lowestNotice after <;> simp_all [lowestNotice]
  · have hb : ∀ x ∈ before, ¬ (x.isNotice && x.level == old.level) = true := fun x hx h => by
      simp only [Bool.and_eq_true, beq_iff_eq] at h
      exact absurd h.2 (Nat.ne_of_gt (hbefore x hx h.1))
    rw [evictNotice, List.eraseP_append_right _ hb, List.eraseP_cons_of_pos (by simp [hold])]

/-- With every queued notice at level l or above, none is lower than l. -/
theorem lowestNotice_not_lt {rs : List Rec} {l m : Nat} (h : ∀ x ∈ rs, x.isNotice = true → l ≤ x.level)
    (hm : lowestNotice rs = some m) : ¬ m < l := by
  obtain ⟨x, hx, hn, rfl⟩ := lowestNotice_mem hm
  exact Nat.not_lt.mpr (h x hx hn)

/-- Settles O14. -/
theorem noticeAdmission : Obligations.NoticeAdmission := by
  intro p r _ level r'
  have hlevel : p.queue.levelOf r = level := rfl
  refine ⟨fun h0 => ?silent, fun h0 hfree => ?enters, fun h0 hfull => ⟨?evicts, fun hall => ?discarded⟩⟩
  case silent => simp [Part.offer, EventQueue.takeNotice, hlevel, h0]; rfl
  case enters =>
    have hfree : p.queue.used < Config.queuePlaces := hfree
    simp [Part.offer, EventQueue.takeNotice, hlevel, h0, hfree]; rfl
  case evicts =>
    intro before old after hrs hold hlow hbefore hafter
    have hfull : ¬ p.queue.used < Config.queuePlaces := Nat.not_lt.mpr hfull
    obtain ⟨hmin, hrest⟩ := lowestNotice_of_oldest hold hbefore hafter
    simp only [Part.offer, EventQueue.takeNotice, hlevel, h0, hfull, hrs, hmin, hrest, hlow, if_true, if_false]
    rfl
  case discarded =>
    have hfull : ¬ p.queue.used < Config.queuePlaces := Nat.not_lt.mpr hfull
    simp only [Part.offer, EventQueue.takeNotice, hlevel, h0, hfull, if_false]
    cases hm : lowestNotice p.queue.records with
    | none => rfl
    | some m => simp only [lowestNotice_not_lt hall hm, if_false]; rfl

/-! ### The taking of a detection -/

section
variable (f : FaultRecord) (d : Detection)

theorem FaultRecord.take_of_not_detect (h : (f.classes.get d.cls.index).detect = false) : f.take d = (f, none) := by
  simp [FaultRecord.take, h]

theorem FaultRecord.take_of_detect (h : (f.classes.get d.cls.index).detect = true) : f.take d =
    (let row := f.classes.get d.cls.index
     let row' : ClassRow := { row with count := satInc row.count, later := row.later || f.first.isSome }
     ({ f with
          classes := f.classes.set d.cls.index.val row' d.cls.index.isLt
          first := some (f.first.getD d)
          log := logTake f.style f.log d },
      if row.report then some (.fault d.cls d.stamp d.detail row'.count f.first.isNone) else none)) := by
  cases hfirst : f.first <;> simp [FaultRecord.take, h, hfirst]

/-- What a reported detection offers is the FAULT notice of that detection. -/
theorem FaultRecord.take_notice {f' : FaultRecord} {body : Body} (h : f.take d = (f', some body)) : body.kind = .fault := by
  cases hd : (f.classes.get d.cls.index).detect with
  | false => rw [f.take_of_not_detect d hd] at h; cases h
  | true =>
    rw [f.take_of_detect d hd] at h
    obtain ⟨-, hbody⟩ := Prod.mk.inj h
    split at hbody
    · exact (Option.some.inj hbody) ▸ rfl
    · cases hbody
end

theorem Detection.coalesces_iff (a b : Detection) :
    a.coalesces b = true ↔ b.cls = a.cls ∧ b.line = a.line ∧ b.ctx = a.ctx := by
  simp only [Detection.coalesces, Bool.and_eq_true, beq_iff_eq, and_assoc, eq_comm (a := a.cls), eq_comm (a := a.line),
    eq_comm (a := a.ctx)]

/-- The log with a newest entry, under a style that logs (R149). -/
theorem logTake_append {style : LogStyle} (hstyle : style ≠ .off) (before : List LogEntry) (e : LogEntry) (d : Detection) :
    logTake style (before ++ [e]) d =
      if d.coalesces e.detection then before ++ [e.repeated]
      else if (before ++ [e]).length < 10 then before ++ [e] ++ [{ detection := d, repeats := 1 }]
      else if style = .shift then (before ++ [e]).tail ++ [{ detection := d, repeats := 1 }]
      else before ++ [e] := by
  cases style <;> simp_all [logTake, Config.logSize]

/-- Settles O18. -/
theorem detectionIsTaken : Obligations.DetectionIsTaken := by
  refine ⟨fun f d => ⟨f.take_of_not_detect d, fun h => ?taken⟩, fun f d h => ?log⟩
  case taken => simp only [f.take_of_detect d h, satInc_eq_min, and_self]
  case log =>
    have hlog : (f.take d).1.log = logTake f.style f.log d := by rw [f.take_of_detect d h]
    refine ⟨fun hoff => ?_, fun hstyle before e hlast => ?_, fun hstyle hnil => ?_⟩
    · rw [hlog, hoff]; rfl
    · rw [hlog, hlast, logTake_append hstyle]
      simp only [Detection.coalesces_iff, LogEntry.repeated, satInc8_eq_min]
      refine ⟨fun hsame => if_pos hsame, fun hother => ⟨fun hroom => ?_, fun hfull => ⟨fun hshift => ?_, fun hkeep => ?_⟩⟩⟩
      · rw [if_neg hother, if_pos hroom]
      · rw [if_neg hother, if_neg (Nat.not_lt.mpr hfull), if_pos hshift]
      · rw [if_neg hother, if_neg (Nat.not_lt.mpr hfull), if_neg (by simp [hkeep])]
    · rw [hlog, hnil]
      cases hs : f.style <;> simp_all [logTake]

/-! ### A lost notice -/

/-- The counted loss of a notice of a level 1 to 5 (R142). -/
theorem EventQueue.countLoss_eq (q : EventQueue) {l : Nat} (h : 1 ≤ l ∧ l ≤ 5) :
    q.countLoss l = { q with discards := q.discards.set (l - 1) (min 65535 (q.discards[l - 1] + 1)) } := by
  obtain ⟨h1, h5⟩ := h
  have hindex : discardIndex l = ⟨l - 1, by omega⟩ := by
    rcases (show l = 1 ∨ l = 2 ∨ l = 3 ∨ l = 4 ∨ l = 5 by omega) with rfl | rfl | rfl | rfl | rfl <;> rfl
  simp only [EventQueue.countLoss, hindex, satInc_eq_min]
  rfl

/-- Settles O15. -/
theorem lostNoticeIsCounted : Obligations.LostNoticeIsCounted := by
  intro p level h d count
  have hcount : ∀ (q : EventQueue) l hl, q.countLoss l = count q l hl := fun q l hl => q.countLoss_eq hl
  have hlose : p.loseNotice level = match p.faults.take d with
    | (f, some body) => { p with queue := (p.queue.countLoss level).admitIfFree (faultNotice d body), faults := f }
    | (f, none) => { p with queue := p.queue.countLoss level, faults := f } := rfl
  rw [hcount _ _ h] at hlose
  cases htake : p.faults.take d with
  | mk f notice =>
    rw [htake] at hlose
    cases notice with
    | none => exact ⟨by rw [hlose], fun _ => by rw [hlose], fun _ h => absurd h nofun⟩
    | some body =>
      refine ⟨by rw [hlose], fun h => absurd h nofun, fun body' hbody faultLevel hfault => ?_⟩
      obtain rfl : body = body' := Option.some.inj hbody
      have hkind : body.kind = .fault := p.faults.take_notice d htake
      have hl : (count p.queue level h).levelOf (faultNotice d body) = faultLevel := by
        rw [← hfault, ← hkind]; rfl
      have hu : (count p.queue level h).used = p.queue.used := rfl
      rw [hlose]
      simp only [EventQueue.admitIfFree, hl]
      refine ⟨fun h0 => by simp [h0], fun h0 hfree => ?_, fun hf hfull => ?_⟩
      · simp only [h0, hu, show p.queue.used < Config.queuePlaces from hfree, if_true, if_false, EventQueue.append,
          EventQueue.stamped, hl]
        rfl
      · simp only [hu, show ¬ p.queue.used < Config.queuePlaces from Nat.not_lt.mpr hfull, if_false,
          show ¬ faultLevel = 0 by omega]
        exact hcount _ _ hf

/-! ### Reservations -/

/-- Settles O16. -/
theorem reservationTakesAPlace : Obligations.ReservationTakesAPlace := by
  intro p r
  refine ⟨fun hfree => ?free, fun hfull => ⟨?evicts, fun hall => ?full⟩, fun n => ?room⟩
  case free =>
    simp only [Part.reserve, show p.queue.used < Config.queuePlaces from hfree, if_true]
    rfl
  case evicts =>
    intro before old after hrs hold hbefore hafter
    obtain ⟨hmin, hrest⟩ := lowestNotice_of_oldest hold hbefore hafter
    simp only [Part.reserve, show ¬ p.queue.used < Config.queuePlaces from Nat.not_lt.mpr hfull, if_false, hrs, hmin, hrest]
    rfl
  case full =>
    simp only [Part.reserve, show ¬ p.queue.used < Config.queuePlaces from Nat.not_lt.mpr hfull, if_false,
      lowestNotice_eq_none.mpr hall]
  case room =>
    simp [EventQueue.canReserve, EventQueue.noticeCount, List.countP_eq_length_filter, EventQueue.free]
    rfl

end Sys2Proof.Machine
end

section
/-! PROOFS. The requests to the level table and the Fault Record, and the reports (R137, R151, R152, R167, R29, R153). -/

namespace Sys2Proof.Machine

open Sys2Proof.Safety

/-! ### A request taken at once, by what its check order finds -/

section
variable {α : Type} {s : State} (hs : Ready s) (tag : Byte) (r : Request) (hr : r ≠ .restart) {check : Check α} {run : α → Part × Items}
  (hserve : serve r s.part = judge s.part check run)
include hs hr hserve

theorem exec_of_ok {a : α} (h : check = .ok a) :
    exec (command tag r) s = .next (Replied s (run a).1 tag (requestKind r) (.accepted (run a).2)) :=
  exec_of_serve hs tag r hr (by rw [hserve, h, judge_ok])

theorem exec_of_error {e : RefusalCode × Nat} (h : check = .error e) :
    exec (command tag r) s = .next (Replied s s.part tag (requestKind r) (.refused e.1 e.2)) :=
  exec_of_serve hs tag r hr (by rw [hserve, h, judge_error])
end

section
variable {α β : Type} {code : RefusalCode} {field : Nat} {e : RefusalCode × Nat}

theorem want_error {o : Option α} : want o code field = .error e ↔ o = none ∧ e = (code, field) := by
  cases o <;> simp [want, eq_comm]

theorem need_error {c : Prop} [Decidable c] : need c code field = .error e ↔ ¬ c ∧ e = (code, field) := by
  by_cases h : c <;> simp [need, h, eq_comm]

theorem bind_error {x : Check α} {k : α → Check β} : (x >>= k) = .error e ↔ x = .error e ∨ ∃ a, x = .ok a ∧ k a = .error e := by
  cases x <;> simp [bind, Except.bind]

theorem map_error {x : Check α} {f : α → β} : x.map f = .error e ↔ x = .error e := by
  cases x <;> simp [Except.map]

theorem pure_error {a : α} : ¬ (pure a : Check α) = .error e := nofun

end

/-! ### SET LEVELS (R137) -/

theorem readRecordKind_index (k : Fin 11) : ∃ kind, readRecordKind k.val = some kind ∧ kind.index = k := by
  have h : (readRecordKind k.val).map RecordKind.index = some k := by revert k; decide
  simpa using h

theorem levelTaken_eq (kind : RecordKind) (level : Nat) :
    levelTaken kind level = if kind.index.val = 5 then 5 else if kind.index.val < 4 ∧ level = 0 then 1 else level := by
  have hpower : kind = .powerUp ↔ kind.index.val = 5 := by cases kind <;> decide
  have hresult : kind.isResult = true ↔ kind.index.val < 4 := by cases kind <;> decide
  simp only [levelTaken, hpower, hresult]

/-- A kind at level 0 is not offered (R137). -/
theorem Part.offer_level_zero {p : Part} {r : Rec} (h : p.queue.levels.get r.body.kind.index = 0) : p.offer r = p := by
  simp [Part.offer, EventQueue.takeNotice, show p.queue.levelOf r = 0 from h]
  rfl

/-- Settles O17. -/
theorem setLevels : Obligations.SetLevels := by
  intro s tag kind level hs
  refine ⟨fun ⟨hkind, hlevel⟩ k hk => ?taken, fun hbad => ?refused⟩
  case taken =>
    subst hk
    obtain ⟨kd, hread, hindex⟩ := readRecordKind_index k
    intro taken p
    have htaken : levelTaken kd level = taken := by rw [levelTaken_eq, hindex]
    have hcheck : checkSetLevels k.val level = .ok kd := by
      rw [checkSetLevels, hread, want_some_bind, need_bind_of _ _ hlevel]; rfl
    refine ⟨?_, fun h0 r hrk => Part.offer_level_zero ?_⟩
    · have h := exec_of_ok hs tag (.setLevels k.val level) nofun rfl hcheck
      simp only [htaken, EventQueue.setLevel, hindex] at h
      exact h
    · rw [hrk]
      exact (vector_get_set ..).trans (by simp [h0])
  case refused =>
    cases hcheck : checkSetLevels kind level with
    | ok kd =>
      simp only [checkSetLevels, bind_ok, want_ok, need_ok, pure_ok] at hcheck
      obtain ⟨_, hread, -, hlevel, rfl⟩ := hcheck
      have hkind : ¬ 10 < kind := fun h => by rw [readRecordKind_eq_none h] at hread; cases hread
      exact absurd ⟨by omega, hlevel⟩ hbad
    | error e =>
      have he : e.1 = .badField := by
        simp only [checkSetLevels, bind_error, want_error, need_error, pure_error] at hcheck
        obtain ⟨-, rfl⟩ | ⟨_, -, ⟨-, rfl⟩ | ⟨_, -, ⟨⟩⟩⟩ := hcheck <;> rfl
      exact ⟨e.2, he ▸ exec_of_error hs tag (.setLevels kind level) nofun rfl hcheck⟩

/-! ### FAULT SETUP (R151) -/

/-- What a class setting must be (R151). -/
def GoodSetting (x : ClassSetting) : Prop :=
  x.cls < 10 ∧ (x.detect.isSome ∨ x.report.isSome) ∧ (∀ n ∈ x.detect, n ≤ 1) ∧ (∀ n ∈ x.report, n ≤ 1) ∧
    ¬ (x.cls = 6 ∧ x.detect = some 0)

/-- What a class setting is taken as. -/
def TakenAs (x : ClassSetting) (t : SettingTaken) : Prop :=
  t.cls.index.val = x.cls ∧ t.detect = x.detect.map (· == 1) ∧ t.report = x.report.map (· == 1)

theorem readFaultClass_eq_some {n : Nat} {c : FaultClass} : readFaultClass n = some c ↔ c.index.val = n := by
  constructor
  · intro h
    unfold readFaultClass at h
    split at h <;> cases h <;> rfl
  · rintro rfl
    cases c <;> rfl

theorem exists_faultClass_index {n : Nat} (h : n < 10) : ∃ c : FaultClass, c.index.val = n := by
  have hmap : ∀ i : Fin 10, (readFaultClass i.val).isSome = true := by decide
  obtain ⟨c, hc⟩ := Option.isSome_iff_exists.mp (hmap ⟨n, h⟩)
  exact ⟨c, readFaultClass_eq_some.mp hc⟩

theorem readFlag_eq_some {n : Nat} {b : Bool} : readFlag n = some b ↔ n ≤ 1 ∧ b = (n == 1) := by
  unfold readFlag
  split <;> simp_all [eq_comm]
  omega

theorem wantOpt_ok {α : Type} {read : Nat → Option α} {n : Option Nat} {code : RefusalCode} {field : Nat} {o : Option α} :
    wantOpt read n code field = .ok o ↔ n.map read = o.map some := by
  cases n <;> cases o <;> simp [wantOpt, map_ok, want_ok]

theorem wantOpt_error {α : Type} {read : Nat → Option α} {n : Option Nat} {code : RefusalCode} {field : Nat} {e : RefusalCode × Nat}
    (h : wantOpt read n code field = .error e) : e = (code, field) := by
  cases n with
  | none => cases h
  | some n => exact (want_error.mp (map_error.mp h)).2

theorem map_readFlag {n : Option Nat} {o : Option Bool} :
    n.map readFlag = o.map some ↔ (∀ m ∈ n, m ≤ 1) ∧ o = n.map (· == 1) := by
  cases n <;> cases o <;> simp [readFlag_eq_some]

theorem readSetting_ok {x : ClassSetting} {t : SettingTaken} : readSetting x = .ok t ↔ GoodSetting x ∧ TakenAs x t := by
  simp only [readSetting, bind_ok, want_ok, need_ok, pure_ok, wantOpt_ok, readFaultClass_eq_some, map_readFlag]
  constructor
  · rintro ⟨c, hc, -, hsome, d, ⟨hd, rfl⟩, r, ⟨hr, rfl⟩, -, hdrive, rfl⟩
    refine ⟨⟨hc ▸ c.index.isLt, hsome, hd, hr, fun ⟨h6, h0⟩ => hdrive ⟨?_, by rw [h0]; rfl⟩⟩, hc, rfl, rfl⟩
    exact FaultClass.index_inj.mp (Fin.ext (hc.trans h6))
  · rintro ⟨⟨-, hsome, hd, hr, hdrive⟩, hc, h1, h2⟩
    refine ⟨t.cls, hc, (), hsome, t.detect, ⟨hd, h1⟩, t.report, ⟨hr, h2⟩, (), fun ⟨h6, h0⟩ => hdrive ?_, rfl⟩
    rw [h6] at hc
    rw [h1] at h0
    refine ⟨hc.symm, ?_⟩
    obtain ⟨n, hn, hn0⟩ := Option.map_eq_some_iff.mp h0
    have := hd n hn
    simp only [beq_eq_false_iff_ne] at hn0
    rw [hn]; congr; omega

theorem readSetting_error {x : ClassSetting} {e : RefusalCode × Nat} (h : readSetting x = .error e) : e.1 = .badField := by
  simp only [readSetting, bind_error, want_error, need_error, pure_error] at h
  obtain ⟨-, rfl⟩ | ⟨_, -, ⟨-, rfl⟩ | ⟨_, -, h | ⟨_, -, h | ⟨_, -, ⟨-, rfl⟩ | ⟨_, -, ⟨⟩⟩⟩⟩⟩⟩ := h <;>
    first | rfl | exact congrArg Prod.fst (wantOpt_error h)

/-- Settings that are taken in turn, each as what it names. -/
inductive AllTaken : List ClassSetting → List SettingTaken → Prop
  | nil : AllTaken [] []
  | cons {x : ClassSetting} {t : SettingTaken} {xs : List ClassSetting} {ts : List SettingTaken} :
      TakenAs x t → AllTaken xs ts → AllTaken (x :: xs) (t :: ts)

theorem readSettingList_ok {xs : List ClassSetting} {ts : List SettingTaken} (h : readSettingList xs = .ok ts) :
    (∀ x ∈ xs, GoodSetting x) ∧ AllTaken xs ts := by
  induction xs generalizing ts with
  | nil =>
    cases h
    exact ⟨nofun, .nil⟩
  | cons x xs ih =>
    simp only [readSettingList, bind_ok, readSetting_ok, pure_ok] at h
    obtain ⟨t, ⟨hgood, htaken⟩, ts, hts, rfl⟩ := h
    obtain ⟨hall, hrest⟩ := ih hts
    exact ⟨List.forall_mem_cons.mpr ⟨hgood, hall⟩, .cons htaken hrest⟩

theorem readSettingList_error {xs : List ClassSetting} {e : RefusalCode × Nat} (h : readSettingList xs = .error e) : e.1 = .badField := by
  induction xs with
  | nil => cases h
  | cons x xs ih =>
    simp only [readSettingList, bind_error, pure_error] at h
    obtain h | ⟨_, -, h | ⟨_, -, ⟨⟩⟩⟩ := h
    · exact readSetting_error h
    · exact ih h

/-- Good settings are taken, each as what it names. -/
theorem readSettingList_of_good {xs : List ClassSetting} (h : ∀ x ∈ xs, GoodSetting x) : ∃ ts, readSettingList xs = .ok ts := by
  induction xs with
  | nil => exact ⟨[], rfl⟩
  | cons x xs ih =>
    obtain ⟨ts, hts⟩ := ih fun y hy => h y (List.mem_cons_of_mem _ hy)
    have hx := h x List.mem_cons_self
    obtain ⟨c, hc⟩ := exists_faultClass_index hx.1
    have hread : readSetting x = .ok ⟨c, x.detect.map (· == 1), x.report.map (· == 1)⟩ := readSetting_ok.mpr ⟨hx, hc, rfl, rfl⟩
    exact ⟨_ :: ts, by simp only [readSettingList, bind_ok, pure_ok]; exact ⟨_, hread, ts, hts, rfl⟩⟩

/-- The value a setting has after the settings of a list, the last that gives it deciding. -/
def givenFlag (list : List ClassSetting) (i : Nat) (read : ClassSetting → Option Nat) (old : Bool) : Bool :=
  list.foldl (fun b x => if x.cls = i then ((read x).map (· == 1)).getD b else b) old

theorem FaultRecord.classes_apply {f : FaultRecord} {x : ClassSetting} {t : SettingTaken} (h : TakenAs x t) (i : Fin 10) :
    (f.apply t).classes.get i =
      { f.classes.get i with
        detect := if x.cls = i.val then (x.detect.map (· == 1)).getD (f.classes.get i).detect else (f.classes.get i).detect
        report := if x.cls = i.val then (x.report.map (· == 1)).getD (f.classes.get i).report else (f.classes.get i).report } := by
  obtain ⟨hc, hd, hr⟩ := h
  simp only [FaultRecord.apply, vector_get_set, ClassRow.set, ← hc, hd, hr]
  by_cases hi : t.cls.index = i
  · subst hi; simp
  · simp [hi, Ne.symm hi, Fin.val_inj]

/-- The settings of a list applied in order: the classes as they name them, the rest of the record as it was (R151). -/
theorem FaultRecord.applyAll_eq {xs : List ClassSetting} {ts : List SettingTaken}
    (h : AllTaken xs ts) (f : FaultRecord) :
    (ts.foldl FaultRecord.apply f).first = f.first ∧ (ts.foldl FaultRecord.apply f).log = f.log ∧
    (ts.foldl FaultRecord.apply f).style = f.style ∧
    ∀ i : Fin 10, (ts.foldl FaultRecord.apply f).classes.get i =
      { f.classes.get i with
        detect := givenFlag xs i.val (·.detect) (f.classes.get i).detect
        report := givenFlag xs i.val (·.report) (f.classes.get i).report } := by
  induction h generalizing f with
  | nil => exact ⟨rfl, rfl, rfl, fun _ => rfl⟩
  | @cons x t xs ts hx _ ih =>
    obtain ⟨h1, h2, h3, h4⟩ := ih (f.apply t)
    refine ⟨h1, h2, h3, fun i => (h4 i).trans ?_⟩
    rw [FaultRecord.classes_apply hx]
    rfl

theorem readLogStyle_eq_some {n : Nat} {st : LogStyle} : readLogStyle n = some st ↔ st.code = n := by
  constructor
  · intro h
    unfold readLogStyle at h
    split at h <;> cases h <;> rfl
  · rintro rfl
    cases st <;> rfl

theorem exists_logStyle_code {n : Nat} (h : n ≤ 2) : ∃ st : LogStyle, st.code = n := by
  rcases (show n = 0 ∨ n = 1 ∨ n = 2 by omega) with rfl | rfl | rfl
  · exact ⟨.shift, rfl⟩
  · exact ⟨.keepFirst, rfl⟩
  · exact ⟨.off, rfl⟩

/-- Settles O19. -/
theorem faultSetup : Obligations.FaultSetup := by
  intro s tag settings style hs list good given
  refine ⟨fun ⟨hsome, hstyle, hlist⟩ => ?taken, fun hbad => ?refused⟩
  case taken =>
    obtain ⟨ts, hts⟩ := readSettingList_of_good hlist
    have hst : ∃ o : Option LogStyle, style.map readLogStyle = o.map some ∧
        ∀ st : LogStyle, (o.getD st).code = style.getD st.code := by
      cases style with
      | none => exact ⟨none, rfl, fun _ => rfl⟩
      | some n =>
        obtain ⟨st, hst⟩ := exists_logStyle_code (hstyle n rfl)
        exact ⟨some st, by simp [readLogStyle_eq_some, hst], fun _ => hst⟩
    obtain ⟨o, ho, hcode⟩ := hst
    have hcheck : checkFaultSetup settings style = .ok (ts, o) := by
      simp only [checkFaultSetup, bind_ok, need_ok, pure_ok, wantOpt_ok]
      exact ⟨(), hsome, ts, hts, o, ho, rfl⟩
    obtain ⟨h1, h2, h3, h4⟩ := FaultRecord.applyAll_eq (readSettingList_ok hts).2 s.part.faults
    refine ⟨_, exec_of_ok hs tag (.faultSetup settings style) nofun rfl hcheck, h1, h2, ?_, h4⟩
    simp only [h3]
    exact hcode _
  case refused =>
    cases hcheck : checkFaultSetup settings style with
    | ok a =>
      simp only [checkFaultSetup, bind_ok, need_ok, pure_ok, wantOpt_ok] at hcheck
      obtain ⟨-, hsome, ts, hts, o, ho, -⟩ := hcheck
      refine absurd ⟨hsome, fun n hn => ?_, fun x hx => ?_⟩ hbad
      · rw [Option.mem_def] at hn
        rw [hn] at ho
        obtain ⟨st, -, hst⟩ := Option.map_eq_some_iff.mp ho.symm
        rw [← readLogStyle_eq_some.mp hst.symm]
        cases st <;> simp [LogStyle.code]
      · exact (readSettingList_ok hts).1 x hx
    | error e =>
      have he : e.1 = .badField := by
        simp only [checkFaultSetup, bind_error, need_error, pure_error] at hcheck
        obtain ⟨-, rfl⟩ | ⟨_, -, h | ⟨_, -, h | ⟨_, -, ⟨⟩⟩⟩⟩ := hcheck
        · rfl
        · exact readSettingList_error h
        · exact congrArg Prod.fst (wantOpt_error h)
      exact ⟨e.2, he ▸ exec_of_error hs tag (.faultSetup settings style) nofun rfl hcheck⟩

/-! ### Reports (R29, R152, R153, R167) -/

theorem FaultRecord.get_cleared (f : FaultRecord) (i : Fin 10) :
    f.cleared.classes.get i = { f.classes.get i with count := 0, later := false } := by
  simp [FaultRecord.cleared, vector_get_eq]

/-- Settles O20. -/
theorem clearFaults : Obligations.ClearFaults := fun s tag hs =>
  ⟨s.part.faults.cleared, exec_of_serve hs tag .clearFaults nofun rfl, rfl, rfl, rfl, s.part.faults.get_cleared⟩

theorem readLines_eq (n : Nat) (h : n ≤ 2) : readLines n = some ([LineId.a, .b].filter fun l => Named n l) := by
  rcases (show n = 0 ∨ n = 1 ∨ n = 2 by omega) with rfl | rfl | rfl <;> decide

theorem pointerByte_eq (e : Option CtxId) : pointerByte e = num 1 (pointerCode e) := by cases e <;> rfl

theorem scheduleBytes_eq (x : Schedule) : scheduleBytes x = x.flatMap fun e => num 1 (pointerCode e) := by
  simp only [scheduleBytes, funext pointerByte_eq]

/-- Settles O21. -/
theorem reportsShowTheState : Obligations.ReportsShowTheState := by
  intro s tag hs f
  refine ⟨exec_of_serve hs tag .readFaults nofun rfl, exec_of_serve hs tag .status nofun ?status, ?schedule, ?loops⟩
  case status =>
    simp only [serve, serveStatus, Part.status, Position.entry, pointerByte_eq, List.flatMap_cons, List.flatMap_nil, List.append_nil]
    rfl
  case schedule =>
    intro l x
    have h := exec_of_ok hs tag (.readSchedule (lineCode l)) nofun rfl (by rw [readLine_lineCode]; rfl)
    simp only [funext scheduleBytes_eq] at h
    exact h
  case loops =>
    intro lines hlines
    exact exec_of_ok hs tag (.readLoopResults lines) nofun rfl (by rw [readLines_eq lines hlines]; rfl)

end Sys2Proof.Machine
end

section
/-! PROOFS. The requests to the lines, the Schedule Store and the positions: LINE SETUP, LINE START and LINE STOP, LOAD SCHEDULE, DROP RELEASE,
BIND POSITION (R7 to R9, R15 to R17, R23, R24, R44, R60). -/

namespace Sys2Proof.Machine

open Sys2Proof.Safety

/-! ### LINE SETUP -/

theorem takePmin_eq (n : Nat) : takePmin n = min 20000 ((n + 99) / 100 * 100) := by
  simp only [takePmin, ceilDiv]
  omega

theorem frameLength_eq (r : BitRate) (slots pm : Nat) : frameLength r slots pm = max (16 + 32 * slots) (pm * r.kbps / 1000) := by
  simp [frameLength, rawLength]

/-- Settles O23. -/
theorem lineSetupTaken : Obligations.LineSetupTaken := by
  intro s tag l r slots pmin hs h2 h16 hidle x pm len per active
  have hexec := exec_of_ok hs tag (.lineSetup (lineCode l) r.kbps slots pmin) nofun rfl
    (s.part.checkLineSetup_ok l r ⟨h2, h16⟩ hidle)
  have hpm : takePmin pmin = pm := takePmin_eq pmin
  have hsetup : (s.part.line l).setup r slots pm =
      { x with rate := r, slots := slots, pmin := pm, frameLen := len, period := per, active := active } := by
    simp only [Line.setup, framePeriod, frameLength_eq]
    rfl
  simp only [hpm, Part.line_recomputeLine, Part.line_modLine_self, hsetup] at hexec
  refine ⟨_, hexec, ?_, fun m hm => ?_, fun c => ?_, fun i => ?_, ?_, ?_⟩
  · simp [hsetup]
  · simp [hm]
  · simp only [Part.ctx_recomputeLine, Part.ctx_modLine, Part.line_modLine_self]
    rfl
  · simp
  · simp
  · simp

/-! ### LINE START and LINE STOP -/

theorem slotCall_eq {n : Nat} (h : n ≤ 15) : slotCall n = callByte n := by
  exact (by decide : ∀ m : Fin 16, slotCall m.val = callByte m.val) ⟨n, Nat.lt_succ_of_le h⟩

theorem Part.slotCalls_eq {p : Part} (hp : AddressesFit p) (l : LineId) : p.slotCalls l = frameCalls p (p.line l).active := by
  simp only [Part.slotCalls, frameCalls]
  refine List.map_congr_left fun e _ => ?_
  cases e with
  | none => exact slotCall_eq (Nat.zero_le 15)
  | some c =>
    simp only [Option.bind_some]
    cases hpr : (p.ctx c).profile with
    | none => rfl
    | some pr => exact slotCall_eq (hp c pr hpr).2

/-- The slot calls of a frame depend on the schedule and the profiles alone. -/
theorem frameCalls_congr {p q : Part} (h : ∀ c, (q.ctx c).profile = (p.ctx c).profile) (w : Schedule) : frameCalls q w = frameCalls p w := by
  simp only [frameCalls, h]

section
variable (p : Part) (l : LineId)

@[simp] theorem Part.queue_startLine : (p.startLine l).queue = p.queue := by
  unfold Part.startLine
  rw [Part.forContexts_keeps _ _ (fun q => q.queue) fun c q => by split <;> simp]
  simp

@[simp] theorem Part.faults_startLine : (p.startLine l).faults = p.faults := by
  unfold Part.startLine
  rw [Part.forContexts_keeps _ _ (fun q => q.faults) fun c q => by split <;> simp]
  simp

theorem Part.profile_startLine (c : CtxId) : ((p.startLine l).ctx c).profile = (p.ctx c).profile := by
  rw [Part.ctx_startLine]
  split <;> rfl

end

/-- The line a context is profiled on depends on its profile alone. -/
theorem Context.lineId_congr {x y : Context} (h : x.profile = y.profile) : x.lineId = y.lineId := by
  simp [Context.lineId, h]

/-- The lines that a request names. -/
abbrev namedLines (n : Nat) : List LineId := [LineId.a, .b].filter fun l => Named n l

theorem mem_namedLines {n : Nat} {l : LineId} : l ∈ namedLines n ↔ Named n l := by
  cases l <;> simp [namedLines]

theorem namedLines_nodup (n : Nat) : (namedLines n).Nodup := List.Pairwise.filter _ (by decide)

section
variable {ls : List LineId} (hn : ls.Nodup)
include hn

/-- Lines started in turn: each as alone (R15). -/
theorem line_startLines {p : Part} (hp : AddressesFit p) (l : LineId) : (ls.foldl Part.startLine p).line l = if l ∈ ls
    then { p.line l with
      state := .run, frame := 0, stopPending := false, calls := frameCalls p (p.line l).active, nextSlot := 0, inSlot := none }
    else p.line l := by
  induction ls generalizing p with
  | nil => rfl
  | cons m ls ih =>
    obtain ⟨hm, hn⟩ := List.nodup_cons.mp hn
    have hfit : AddressesFit (p.startLine m) := fun c pr h => hp c pr (by rwa [Part.profile_startLine] at h)
    rw [List.foldl_cons, ih hn hfit]
    by_cases hl : l = m
    · subst hl
      rw [if_neg hm, if_pos List.mem_cons_self, Part.line_startLine_self, Part.slotCalls_eq hp]
    · rw [line_startLine_ne p hl, frameCalls_congr (Part.profile_startLine p m)]
      simp [hl]

/-- The contexts of lines started in turn: those with a slot on one of them wait (R15). -/
theorem ctx_startLines (p : Part) (c : CtxId) : (ls.foldl Part.startLine p).ctx c =
    match (p.ctx c).lineId with
    | some l => if l ∈ ls ∧ 0 < (p.line l).active.count (some c) then { p.ctx c with attach := .waiting } else p.ctx c
    | none => p.ctx c := by
  induction ls generalizing p with
  | nil => cases (p.ctx c).lineId <;> simp
  | cons m ls ih =>
    obtain ⟨hm, hn⟩ := List.nodup_cons.mp hn
    rw [List.foldl_cons, ih hn, Context.lineId_congr (Part.profile_startLine p m c), Part.ctx_startLine]
    cases hl : (p.ctx c).lineId with
    | none => simp
    | some l =>
      by_cases hlm : l = m
      · subst hlm
        simp [hm, List.count_pos_iff]
      · simp [hlm, line_startLine_ne p hlm]
end

/-- Lines asked in turn to stop (R16, R17). -/
theorem line_stopLines (ls : List LineId) (p : Part) (l : LineId) :
    (ls.foldl (fun q l => q.modLine l Line.requestStop) p).line l = if l ∈ ls ∧ (p.line l).state ≠ .idle
      then { p.line l with stopPending := true } else p.line l := by
  induction ls generalizing p with
  | nil => simp
  | cons m ls ih =>
    rw [List.foldl_cons, ih]
    by_cases hl : l = m
    · subst hl
      by_cases hi : (p.line l).state = .idle <;> by_cases hm : l ∈ ls <;> simp [Line.requestStop, hi, hm]
    · simp [hl]

/-- Settles O24. -/
theorem lineStartAndStop : Obligations.LineStartAndStop := by
  refine ⟨fun s tag lines hs hlines hfit => ⟨fun hidle => ?starts, fun ⟨l, hl, hrun⟩ => ?refused⟩, fun s tag lines hs hlines => ?stops⟩
  case starts =>
    have hcheck : s.part.checkLineStart lines = .ok (namedLines lines) := by
      rw [Part.checkLineStart, readLines_eq lines hlines, want_some_bind, need_bind_of]
      · rfl
      · simpa only [List.all_eq_true, beq_iff_eq, mem_namedLines] using hidle
    refine ⟨_, exec_of_ok hs tag (.lineStart lines) nofun rfl hcheck, fun l => ?_, fun c => ?_, fun i => ?_, ?_⟩
    · simp only [Part.line_offerAll, line_startLines (namedLines_nodup lines) hfit, mem_namedLines]
    · simp only [Part.ctx_offerAll, ctx_startLines (namedLines_nodup lines), mem_namedLines] <;> rfl
    · simp only [Part.position_offerAll]
      exact Part.foldl_same _ (fun q => q.position i) _ Part.startLine fun q l => by simp
    · exact Part.offerAll_congr _ (Part.foldl_same _ (fun q => q.queue) _ Part.startLine fun q l => by simp)
        (Part.foldl_same _ (fun q => q.faults) _ Part.startLine fun q l => by simp)
  case refused =>
    refine exec_of_error hs tag (.lineStart lines) nofun rfl (e := (.wrongState, 0)) ?_
    rw [Part.checkLineStart, readLines_eq lines hlines, want_some_bind, need_bind_of_not]
    simp only [List.all_eq_true, beq_iff_eq, Classical.not_forall]
    exact ⟨l, mem_namedLines.mpr hl, hrun⟩
  case stops =>
    refine ⟨_, exec_of_ok hs tag (.lineStop lines) nofun rfl (by rw [readLines_eq lines hlines]; rfl), fun l => ?_, fun c => ?_,
      fun i => ?_, ?_, ?_⟩
    · simp only [line_stopLines, mem_namedLines]
    · exact Part.foldl_same _ (fun q => q.ctx c) _ _ fun q l => by simp
    · exact Part.foldl_same _ (fun q => q.position i) _ _ fun q l => by simp
    · exact Part.foldl_same _ (fun q => q.queue) _ _ fun q l => by simp
    · exact Part.foldl_same _ (fun q => q.faults) _ _ fun q l => by simp

/-! ### LOAD SCHEDULE -/

theorem readCtx_val (c : CtxId) : readCtx c.val = some c := by simp [readCtx]

theorem readPointer_pointerCode (e : Option CtxId) : readPointer (pointerCode e) = some e := by
  cases e with
  | none => rfl
  | some c =>
    have hc : c.val ≠ 255 := by omega
    simp [readPointer, pointerCode, noneCode, hc, readCtx_val]

theorem readPointer_eq_none {n : Nat} : readPointer n = none ↔ 16 ≤ n ∧ n ≠ 255 := by
  by_cases h1 : n = 255 <;> by_cases h2 : n < 16 <;> simp [readPointer, noneCode, readCtx, h1, h2]
  omega

theorem readAll_map {α : Type} {f : Nat → Option α} {g : α → Nat} (h : ∀ a, f (g a) = some a) (l : List α) :
    readAll f (l.map g) = some l := by
  induction l with
  | nil => rfl
  | cons a l ih => simp [readAll, h, ih]

/-- A list is read when each of its numbers is. -/
theorem readAll_eq_some {α : Type} {f : Nat → Option α} {ns : List Nat} {as : List α} :
    readAll f ns = some as ↔ ns.map f = as.map some := by
  induction ns generalizing as with
  | nil => cases as <;> simp [readAll]
  | cons n ns ih =>
    cases as with
    | nil => cases hn : f n <;> cases hns : readAll f ns <;> simp [readAll, hn, hns]
    | cons a as =>
      rw [List.map_cons, List.map_cons, List.cons_eq_cons, ← ih]
      cases hn : f n <;> cases hns : readAll f ns <;> simp [readAll, hn, hns]

theorem readAll_eq_none {α : Type} {f : Nat → Option α} {ns : List Nat} {n : Nat} (h : n ∈ ns) (hn : f n = none) :
    readAll f ns = none := by
  cases hr : readAll f ns with
  | none => rfl
  | some as =>
    have : f n ∈ as.map some := readAll_eq_some.mp hr ▸ List.mem_map_of_mem h
    simp [hn] at this

theorem Part.namesOwn_iff {p : Part} {l : LineId} {w : Schedule} :
    p.namesOwn l w = true ↔ ∀ c, some c ∈ w → (p.ctx c).lineId = some l := by
  simp only [Part.namesOwn, List.all_eq_true]
  constructor
  · exact fun h c hc => (Context.onLine_iff _ _).mp (h _ hc)
  · intro h e he
    cases e with
    | none => rfl
    | some c => exact (Context.onLine_iff _ _).mpr (h c he)

theorem Part.checkLoadSchedule_ok {p : Part} {l : LineId} {entries : Schedule} (hlen : entries.length = (p.line l).slots)
    (hown : ∀ c, some c ∈ entries → (p.ctx c).lineId = some l) :
    p.checkLoadSchedule (lineCode l) (entries.map pointerCode) = .ok (l, entries) := by
  rw [Part.checkLoadSchedule, readLine_lineCode, want_some_bind, need_bind_of _ _ (by rwa [List.length_map]),
    show readAll readEntry _ = some entries from readAll_map readPointer_pointerCode entries, want_some_bind,
    need_bind_of _ _ (Part.namesOwn_iff.mpr hown)]
  rfl

theorem Part.checkLoadSchedule_length {p : Part} {l : LineId} {list : List Nat} (hlen : list.length ≠ (p.line l).slots) :
    p.checkLoadSchedule (lineCode l) list = .error (.badLength, 2) := by
  rw [Part.checkLoadSchedule, readLine_lineCode, want_some_bind, need_bind_of_not _ _ hlen]

theorem Part.checkLoadSchedule_entries {p : Part} {l : LineId} {list : List Nat} (hlen : list.length = (p.line l).slots)
    (hbad : (∃ n ∈ list, 16 ≤ n ∧ n ≠ 255) ∨ ∃ c : CtxId, c.val ∈ list ∧ (p.ctx c).lineId ≠ some l) :
    p.checkLoadSchedule (lineCode l) list = .error (.badField, 2) := by
  rw [Part.checkLoadSchedule, readLine_lineCode, want_some_bind, need_bind_of _ _ hlen]
  cases hread : readAll readEntry list with
  | none => rw [want_none_bind]
  | some w =>
    rw [want_some_bind, need_bind_of_not]
    rw [Part.namesOwn_iff]
    intro hown
    obtain ⟨n, hn, hrange⟩ | ⟨c, hc, hline⟩ := hbad
    · exact absurd (readAll_eq_none hn (readPointer_eq_none.mpr hrange)) (by simpa [readEntry] using hread.symm ▸ nofun)
    · have hmem : readEntry c.val ∈ w.map some := readAll_eq_some.mp hread ▸ List.mem_map_of_mem hc
      rw [show readEntry c.val = some (some c) from readPointer_pointerCode (some c)] at hmem
      obtain ⟨e, he, hec⟩ := List.mem_map.mp hmem
      exact hline (hown c (Option.some.inj hec ▸ he))

/-- Settles O25. -/
theorem loadScheduleTaken : Obligations.LoadScheduleTaken := by
  refine ⟨fun s tag l entries hs hlen hown => ?taken, fun s tag line list hs => ⟨fun hline => ?badLine, ?badList⟩⟩
  case taken =>
    intro x
    have hexec := exec_of_ok hs tag (.loadSchedule (lineCode l) (entries.map pointerCode)) nofun rfl
      (Part.checkLoadSchedule_ok hlen hown)
    by_cases hidle : x.state = .idle
    · simp only [show (s.part.line l).state = .idle from hidle, if_true] at hexec
      refine ⟨s.part.activate l entries, fun m hm => by simp [hm], fun i => by simp, by simp, by simp,
        fun _ => ⟨hexec, by simp [x], fun c => ?_⟩, fun h => absurd hidle h⟩
      exact Part.ctx_activate ..
    · simp only [show ¬ (s.part.line l).state = .idle from hidle, if_false] at hexec
      exact ⟨_, fun m hm => by simp [hm], fun i => by simp, by simp, by simp, fun h => absurd h hidle,
        fun _ => ⟨hexec, by simp [x], fun c => by simp⟩⟩
  case badLine =>
    exact exec_of_serve hs tag (.loadSchedule line list) nofun (serve_firstFieldBad hline)
  case badList =>
    rintro l rfl
    exact ⟨fun hlen => exec_of_error hs tag (.loadSchedule (lineCode l) list) nofun rfl (Part.checkLoadSchedule_length hlen),
      fun hlen hbad => exec_of_error hs tag (.loadSchedule (lineCode l) list) nofun rfl (Part.checkLoadSchedule_entries hlen hbad)⟩

end Sys2Proof.Machine
end

section
/-! PROOFS. DROP RELEASE and BIND POSITION (R44, R60, R61). -/

namespace Sys2Proof.Machine

open Sys2Proof.Safety

/-! ### Offers in turn -/

/-- Notices offered first, then others. -/
theorem offered_trans {rs ts : List Rec} {p q r : Part} (h : Offered rs p q) (h' : Offered ts q r) : Offered (rs ++ ts) p r := by
  obtain ⟨hq, hf⟩ := Part.offerAll_congr ts h.1 h.2
  have happ := Part.offerAll_append p rs ts
  exact ⟨(h'.1.trans hq).trans (by rw [happ]), (h'.2.trans hf).trans (by rw [happ])⟩

theorem offered_of_eq {p q : Part} (hq : q.queue = p.queue) (hf : q.faults = p.faults) : Offered [] p q := ⟨hq, hf⟩

/-- An operation on each position in turn that changes that position alone, and offers notices that depend on it alone. -/
theorem foldl_positions {f : Part → PosId → Part} {g : Position → Position} {ns : PosId → Position → List Rec}
    (hself : ∀ q i, (f q i).position i = g (q.position i)) (hne : ∀ q i j, j ≠ i → (f q i).position j = q.position j)
    (hoff : ∀ q i, Offered (ns i (q.position i)) q (f q i)) {is : List PosId} (hn : is.Nodup) (p : Part) :
    (∀ j, (is.foldl f p).position j = if j ∈ is then g (p.position j) else p.position j) ∧
    Offered (is.flatMap fun i => ns i (p.position i)) p (is.foldl f p) := by
  induction is generalizing p with
  | nil => exact ⟨fun j => by simp, rfl, rfl⟩
  | cons i is ih =>
    obtain ⟨hi, hn⟩ := List.nodup_cons.mp hn
    obtain ⟨hpos, hoffered⟩ := ih hn (f p i)
    refine ⟨fun j => ?_, ?_⟩
    · rw [List.foldl_cons, hpos]
      by_cases hj : j = i
      · subst hj; simp [hi, hself]
      · simp [hj, hne p i j hj]
    · rw [List.foldl_cons, List.flatMap_cons]
      refine offered_trans (hoff p i) ?_
      have hsame : (is.flatMap fun k => ns k ((f p i).position k)) = is.flatMap fun k => ns k (p.position k) := by
        rw [List.flatMap_def, List.flatMap_def, List.map_congr_left fun k hk => by rw [hne p i k fun h => hi (h ▸ hk)]]
      rwa [hsame] at hoffered

/-! ### Pointers cleared (R61) -/

/-- A position without the pointer, if that names c. -/
def Position.without (c : CtxId) (ptr : PointerKind) (x : Position) : Position := if x.pointer ptr = some c then x.clear ptr else x

/-- The notice of a pointer that is cleared. -/
def clearNotices (c : CtxId) (why : ClearCause) (ptr : PointerKind) (i : PosId) (x : Position) : List Rec :=
  if x.pointer ptr = some c then [.of (.position ptr c why (x.clear ptr)) (some i)] else []

section
variable (c : CtxId) (why : ClearCause) (ptr : PointerKind) (p : Part) (i : PosId)

theorem Part.position_clearPointer : (p.clearPointer c why ptr i).position i = (p.position i).without c ptr := by
  unfold Part.clearPointer Position.without
  split <;> simp

theorem Part.position_clearPointer_ne {j : PosId} (h : j ≠ i) : (p.clearPointer c why ptr i).position j = p.position j := by
  unfold Part.clearPointer
  split <;> simp [h]

theorem Part.offered_clearPointer : Offered (clearNotices c why ptr i (p.position i)) p (p.clearPointer c why ptr i) := by
  unfold Part.clearPointer clearNotices
  split
  · exact Part.offer_congr _ rfl rfl
  · exact offered_of_eq rfl rfl

/-- The pointers of one kind that name c cleared at every position. -/
theorem Part.clearPointers_one : (∀ j, (p.clearPointers c why [ptr]).position j = (p.position j).without c ptr) ∧
    Offered (allPos.flatMap fun i => clearNotices c why ptr i (p.position i)) p (p.clearPointers c why [ptr]) := by
  obtain ⟨hpos, hoff⟩ := foldl_positions (f := fun q i => q.clearPointer c why ptr i) (g := Position.without c ptr)
    (ns := clearNotices c why ptr) (fun q i => q.position_clearPointer c why ptr i)
    (fun q i j h => q.position_clearPointer_ne c why ptr i h) (fun q i => q.offered_clearPointer c why ptr i)
    (is := allPos) (by decide) p
  exact ⟨fun j => (hpos j).trans (if_pos (mem_allPos j)), hoff⟩

/-- The pointers of both kinds that name c cleared at every position, the reader's first. -/
theorem Part.clearPointers_both :
    (∀ j, (p.clearPointers c why [.reader, .keypad]).position j = ((p.position j).without c .reader).without c .keypad) ∧
    Offered (allPos.flatMap fun i => clearNotices c why .reader i (p.position i) ++
      clearNotices c why .keypad i ((p.position i).without c .reader)) p (p.clearPointers c why [.reader, .keypad]) := by
  obtain ⟨hpos, hoff⟩ := foldl_positions (f := fun q i => (q.clearPointer c why .reader i).clearPointer c why .keypad i)
    (g := fun x => (x.without c .reader).without c .keypad)
    (ns := fun i x => clearNotices c why .reader i x ++ clearNotices c why .keypad i (x.without c .reader))
    (fun q i => by rw [Part.position_clearPointer, Part.position_clearPointer])
    (fun q i j h => by rw [Part.position_clearPointer_ne _ _ _ _ _ h, Part.position_clearPointer_ne _ _ _ _ _ h])
    (fun q i => offered_trans (q.offered_clearPointer c why .reader i)
      (by rw [← q.position_clearPointer c why .reader i]; exact Part.offered_clearPointer ..))
    (is := allPos) (by decide) p
  exact ⟨fun j => (hpos j).trans (if_pos (mem_allPos j)), hoff⟩

end

theorem Position.without_reader (c : CtxId) (x : Position) :
    x.without c .reader = { x with reader := if x.reader = some c then none else x.reader } := by
  unfold Position.without
  by_cases h : x.reader = some c <;> simp [Position.pointer, Position.clear, h]

theorem Position.without_keypad (c : CtxId) (x : Position) :
    x.without c .keypad = { x with keypad := if x.keypad = some c then none else x.keypad } := by
  unfold Position.without
  by_cases h : x.keypad = some c <;> simp [Position.pointer, Position.clear, h]

theorem clearNotices_eq (c : CtxId) (why : ClearCause) (ptr : PointerKind) (i : PosId) (x : Position) :
    clearNotices c why ptr i x = if x.pointer ptr = some c then
      [{ level := 0, pos := some i, ctx := none, line := none, body := .position ptr c why (x.without c ptr) }] else [] := by
  unfold clearNotices Position.without
  split <;> rfl

/-! ### DROP RELEASE (R44) -/

theorem Part.checkDropRelease_eq (p : Part) (c : CtxId) : p.checkDropRelease c.val =
    (need ((p.ctx c).attach = .free ∨ (p.ctx c).attach = .parked) .wrongState >>= fun _ => pure c) := by
  rw [Part.checkDropRelease, readCtx_val, want_some_bind]

/-- Settles O29. -/
theorem dropRelease : Obligations.DropRelease := by
  intro s tag c hs empty noReader cleared notice
  have hcheck (h : (s.part.ctx c).attach = .free ∨ (s.part.ctx c).attach = .parked) : s.part.checkDropRelease c.val = .ok c := by
    rw [Part.checkDropRelease_eq, need_bind_of _ _ h]; rfl
  have hexec (h : (s.part.ctx c).attach = .free ∨ (s.part.ctx c).attach = .parked) :=
    exec_of_ok hs tag (.dropRelease c.val) nofun rfl (hcheck h)
  have hcleared (x : Position) : (x.without c .reader).without c .keypad = cleared x := by
    rw [Position.without_keypad, Position.without_reader]
  refine ⟨fun pr hparked hpr => ⟨_, hexec (.inr hparked), ?_, ?_, fun m hm => ?_, fun d hd => ?_, fun i => ?_, ?_⟩,
    fun hfree hnone => ?_, fun h1 h2 => ?_⟩
  · simp only [Part.ctx_releaseCtx, hpr]
    rfl
  · rw [Part.line_releaseCtx, if_pos (by simp [Context.lineId, hpr]), Part.line_purge, if_pos rfl]
    rfl
  · simp only [Part.line_releaseCtx, Context.lineId, hpr, Option.map_some, Option.some.injEq, Ne.symm hm, if_false]
  · simp only [Part.ctx_releaseCtx, hd, false_and, if_false]
  · simp only [Part.releaseCtx, hpr]
    rw [(Part.clearPointers_both ..).1, hcleared]
    simp
  · simp only [Part.releaseCtx, hpr]
    have h := (Part.clearPointers_both c .released ((s.part.purge pr.line c).setCtx c .free)).2
    simp only [clearNotices_eq, Position.without_keypad, Position.without_reader, Position.pointer, Part.position_setCtx, Part.position_purge] at h
    have hbase := fun rs => Part.offerAll_congr (p := (s.part.purge pr.line c).setCtx c .free) (q := s.part) rs
      (by simp [Part.purge]) (by simp [Part.purge])
    exact ⟨h.1.trans (hbase _).1, h.2.trans (hbase _).2⟩
  · have h := hexec (.inl hfree)
    simp only [Part.releaseCtx, hnone] at h
    exact h
  · refine exec_of_error hs tag (.dropRelease c.val) nofun rfl (e := (.wrongState, 0)) ?_
    rw [Part.checkDropRelease_eq, need_bind_of_not _ _ (by simp [h1, h2])]

/-! ### BIND POSITION (R60) -/

theorem readPos_val (i : PosId) : readPos (i.val + 1) = some i := by
  rw [readPos, dif_pos ⟨Nat.le_add_left 1 i.val, i.isLt⟩]
  rfl

theorem readPos_of_range {n : Nat} (h : 1 ≤ n ∧ n ≤ 8) : ∃ i, readPos n = some i := ⟨_, by rw [readPos, dif_pos h]⟩

theorem wantOpt_code {α : Type} {read : Nat → Option α} {num : α → Nat} (h : ∀ a, read (num a) = some a) (o : Option α)
    (code : RefusalCode) (field : Nat) : wantOpt read (o.map num) code field = .ok o := by
  rw [wantOpt_ok]
  cases o <;> simp [h]

theorem wantOpt_none {α : Type} {read : Nat → Option α} {n : Nat} (h : read n = none) (code : RefusalCode) (field : Nat) :
    wantOpt read (some n) code field = .error (code, field) := by
  simp [wantOpt, h, want, Except.map]

theorem Part.mayPoint_iff {p : Part} {ptr : PointerKind} {o : Option CtxId} : p.mayPoint ptr o = true ↔ ∀ c, o = some c →
    match ptr with
    | .keypad => (p.ctx c).kind = some .keypad
    | .reader => (p.ctx c).kind = some .readerStripe ∨ (p.ctx c).kind = some .readerHybrid := by
  cases o with
  | none => simp [Part.mayPoint]
  | some c =>
    cases ptr <;> cases hk : (p.ctx c).kind with
    | none => simp [Part.mayPoint, hk]
    | some k => cases k <;> simp [Part.mayPoint, hk]

theorem Part.holdsThrough_iff {p : Part} {i : PosId} {o : Option CtxId} :
    p.holdsThrough i o = true ↔ ∃ c, o = some c ∧ (p.ctx c).holder = some i := by
  cases o <;> simp [Part.holdsThrough]

theorem Part.checkBind_eq (p : Part) (i : PosId) {reader keypad : Option (Option CtxId)} (h : reader.isSome ∨ keypad.isSome) :
    p.checkBind (i.val + 1) (reader.map pointerCode) (keypad.map pointerCode) =
      (need (p.mayPoint .reader (reader.getD none)) .badField 2 >>= fun _ =>
        need (p.mayPoint .keypad (keypad.getD none)) .badField 3 >>= fun _ =>
        need (¬ p.holdsThrough i (p.position i).reader ∧ ¬ p.holdsThrough i (p.position i).keypad) .busy >>= fun _ =>
        pure (i, reader, keypad)) := by
  rw [Part.checkBind, readPos_val, want_some_bind, need_bind_of _ _ (by simpa using h), wantOpt_code readPointer_pointerCode,
    wantOpt_code readPointer_pointerCode]
  rfl

/-- A pointer field out of range is refused, whichever of the two it is. -/
theorem Part.checkBind_fields (p : Part) {pos : Nat} {reader keypad : Option Nat}
    (h : ¬ (1 ≤ pos ∧ pos ≤ 8) ∨ (reader = none ∧ keypad = none) ∨ ∃ n, (reader = some n ∨ keypad = some n) ∧ 16 ≤ n ∧ n ≠ 255) :
    ∃ field, p.checkBind pos reader keypad = .error (.badField, field) := by
  unfold Part.checkBind
  by_cases hpos : 1 ≤ pos ∧ pos ≤ 8
  case neg => exact ⟨1, by rw [readPos_eq_none hpos, want_none_bind]⟩
  obtain ⟨i, hi⟩ := readPos_of_range hpos
  rw [hi, want_some_bind]
  by_cases hsome : reader.isSome ∨ keypad.isSome
  case neg => exact ⟨0, by rw [need_bind_of_not _ _ hsome]⟩
  rw [need_bind_of _ _ hsome]
  obtain h | ⟨rfl, rfl⟩ | ⟨n, hn, hrange⟩ := h
  · exact absurd hpos h
  · simp at hsome
  · have hbad := readPointer_eq_none.mpr hrange
    obtain rfl | rfl := hn
    · exact ⟨2, by rw [wantOpt_none hbad]; rfl⟩
    · cases hr : wantOpt readPointer reader .badField 2 with
      | error e => exact ⟨2, by rw [wantOpt_error hr]; rfl⟩
      | ok r => exact ⟨3, by rw [wantOpt_none hbad]; rfl⟩

/-- Settles O30. -/
theorem bindPosition : Obligations.BindPosition := by
  refine ⟨fun s tag pos reader keypad hs h => ?fields, fun s tag i reader keypad hs => ?inRange⟩
  case fields =>
    obtain ⟨field, he⟩ := s.part.checkBind_fields h
    exact ⟨field, exec_of_error hs tag (.bindPosition pos reader keypad) nofun rfl he⟩
  case inRange =>
    intro x kindOf goodReader goodKeypad holds command refused hsome
    have hreader : s.part.mayPoint .reader (reader.getD none) = true ↔ goodReader := by
      rw [Part.mayPoint_iff]
      cases reader <;> simp [goodReader, kindOf]
    have hkeypad : s.part.mayPoint .keypad (keypad.getD none) = true ↔ goodKeypad := by
      rw [Part.mayPoint_iff]
      cases keypad <;> simp [goodKeypad, kindOf]
    have hholds : ¬ s.part.holdsThrough i x.reader ∧ ¬ s.part.holdsThrough i x.keypad ↔ ¬ holds := by
      simp only [Part.holdsThrough_iff, holds, ← not_or]
      refine not_congr ⟨?_, ?_⟩
      · rintro (⟨c, h1, h2⟩ | ⟨c, h1, h2⟩)
        · exact ⟨c, .inl h1, h2⟩
        · exact ⟨c, .inr h1, h2⟩
      · rintro ⟨c, h1 | h1, h2⟩
        · exact .inl ⟨c, h1, h2⟩
        · exact .inr ⟨c, h1, h2⟩
    have hcheck := s.part.checkBind_eq i hsome
    have refuse {code : RefusalCode} {field : Nat}
        (h : s.part.checkBind (i.val + 1) (reader.map pointerCode) (keypad.map pointerCode) = .error (code, field)) : refused code field :=
      exec_of_error hs tag (.bindPosition (i.val + 1) (reader.map pointerCode) (keypad.map pointerCode)) nofun rfl h
    refine ⟨fun h1 => refuse ?_, fun ⟨h1, h2⟩ => refuse ?_, fun ⟨h1, h2, h3⟩ => refuse ?_, fun ⟨h1, h2, h3⟩ => ?_⟩
    · rw [hcheck, need_bind_of_not _ _ ((not_congr hreader).mpr h1)]
    · rw [hcheck, need_bind_of _ _ (hreader.mpr h1), need_bind_of_not _ _ ((not_congr hkeypad).mpr h2)]
    · rw [hcheck, need_bind_of _ _ (hreader.mpr h1), need_bind_of _ _ (hkeypad.mpr h2), need_bind_of_not _ _ ((not_congr hholds).mpr (Classical.not_not.mpr h3))]
    · rw [need_bind_of _ _ (hreader.mpr h1), need_bind_of _ _ (hkeypad.mpr h2), need_bind_of _ _ (hholds.mpr h3)] at hcheck
      have h := exec_of_ok hs tag (.bindPosition (i.val + 1) (reader.map pointerCode) (keypad.map pointerCode)) nofun rfl hcheck
      simp only [pointerByte_eq] at h
      exact ⟨_, h, by simp [x], fun j hj => by simp [hj], fun l => by simp, fun c => by simp, by simp, by simp⟩

end Sys2Proof.Machine
end

section
/-! PROOFS. DROP PROFILE: its checks, and what it makes of the part (R40 to R43, R28, R61). -/

namespace Sys2Proof.Machine

open Sys2Proof.Safety

/-! ### The effect of a profiling -/

section
variable (p : Part) (c : CtxId) (pr : Profile)

theorem Part.profile_eq : p.profile c pr = (p.identified c pr).recomputeScan c (max 1 ((p.identified c pr).slotsOf c)) := rfl

@[simp] theorem Part.line_profile (m : LineId) : (p.profile c pr).line m = (p.identified c pr).line m := Part.line_recomputeScan ..

@[simp] theorem Part.position_profile (i : PosId) : (p.profile c pr).position i = (p.identified c pr).position i :=
  Part.position_recomputeScan ..

@[simp] theorem Part.queue_profile : (p.profile c pr).queue = (p.identified c pr).queue := Part.queue_recomputeScan ..

@[simp] theorem Part.faults_profile : (p.profile c pr).faults = (p.identified c pr).faults := Part.faults_recomputeScan ..

/-- The line a context is profiled on is as it was. -/
theorem Part.line_identified_own : (p.identified c pr).line pr.line = p.line pr.line := by
  rw [Part.line_identified]
  split
  · rename_i h
    obtain ⟨old, -, hne, heq⟩ := h
    exact absurd heq.symm hne
  · rfl

/-- The context takes its profile, and a keypad its N, with k taken as 1 while it is 0 (R14, R42, R43). -/
theorem Part.ctx_profile_self : (p.profile c pr).ctx c = rescanned ((p.ctx c).profiled pr) (p.line pr.line).rate (p.line pr.line).frameLen
    (max 1 ((p.line pr.line).active.count (some c))) := by
  have hctx : (p.identified c pr).ctx c = (p.ctx c).profiled pr := by rw [Part.ctx_identified, if_pos rfl]
  have hprofile : ((p.identified c pr).ctx c).profile = some pr := by rw [hctx, Context.profile_profiled]
  have hk : (p.identified c pr).slotsOf c = (p.line pr.line).active.count (some c) := by
    simp only [Part.slotsOf, hprofile, Part.line_identified_own]
    rfl
  rw [Part.profile_eq, hk, Part.ctx_recomputeScan _ _ _ pr.line (by simp [Context.lineId, hprofile]), hctx, Part.line_identified_own]

theorem Part.ctx_profile_ne {d : CtxId} (h : d ≠ c) : (p.profile c pr).ctx d = p.ctx d := by
  rw [Part.profile_eq, Part.ctx_recomputeScan_ne _ _ h, Part.ctx_identified, if_neg h]

/-- Without a change of kind no pointer and no notice follows (R42, R43). -/
theorem Part.identified_sameKind (h : ∀ old, (p.ctx c).profile = some old → old.kind = pr.kind) :
    (∀ i, (p.identified c pr).position i = p.position i) ∧ (p.identified c pr).queue = p.queue ∧
      (p.identified c pr).faults = p.faults := by
  unfold Part.identified
  cases hold : (p.ctx c).profile with
  | none => exact ⟨fun i => by simp, by simp, by simp⟩
  | some old =>
    simp only [h old hold, if_true]
    split <;> exact ⟨fun i => by simp, by simp [Part.purge], by simp [Part.purge]⟩

/-- After a change of kind the pointers of the wrong kind that name the context are none, with a notice for each (R61). -/
theorem Part.identified_otherKind {old : Profile} (hold : (p.ctx c).profile = some old) (h : old.kind ≠ pr.kind) :
    (∀ i, (p.identified c pr).position i = (p.position i).without c pr.kind.wrongPointer) ∧
    Offered (allPos.flatMap fun i => clearNotices c .kindChanged pr.kind.wrongPointer i (p.position i)) p (p.identified c pr) := by
  have hbase : ∃ q : Part, p.identified c pr = q.clearPointers c .kindChanged [pr.kind.wrongPointer] ∧
      (∀ i, q.position i = p.position i) ∧ q.queue = p.queue ∧ q.faults = p.faults := by
    simp only [Part.identified, hold, h, if_false]
    split
    · exact ⟨_, rfl, fun i => by simp, by simp, by simp⟩
    · exact ⟨_, rfl, fun i => by simp, by simp [Part.purge], by simp [Part.purge]⟩
  obtain ⟨q, hq, hpos, hqueue, hfaults⟩ := hbase
  obtain ⟨h1, h2⟩ := q.clearPointers_one c .kindChanged pr.kind.wrongPointer
  simp only [hpos] at h1 h2
  rw [hq]
  have hsame := fun rs => Part.offerAll_congr (p := q) (q := p) rs hqueue hfaults
  exact ⟨h1, h2.1.trans (hsame _).1, h2.2.trans (hsame _).2⟩

end

/-! ### The context under its profile -/

/-- A context that starts anew as the kind of its profile (R42, R69, R72, R104, R118). -/
theorem Context.anew_eq (k : DropKind) (att : Attach) (pr : Profile) (m : Nat) :
    ({ Context.free.asKind k with attach := att, profile := some pr, miss := m } : Context) =
      { attach := att, profile := some pr, miss := m, holder := none, features := none, lateBlock := false, fresh := false
        controls := [], formHold := 0, latchHold := 0, powerHold := 0, cursor := 0
        keypad := if k = .keypad then some { reported := .opened, keys := List.replicate 16 { down := false, run := 0 }, n := 1, wanted := .opened, entry := none } else none
        reader := if k = .keypad then none
          else some { card := .unknown, capture := none, seen := { t1 := false, t2 := false, t3 := false }, discarded := 0 }
        chip := if k = .readerHybrid then some
          { reportedLatch := .unknown, reportedPower := .unknown, session := .off, owner := none, wantedLatch := false, wantedPower := false
            discardLate := false, powerSeen := false, atr := [], atrWait := none, exchanges := 0, command := [], unitsSent := 0
            response := [], overrun := false, respTimer := none } else none
        image := if k = .keypad then .keypad (Vector.replicate 16 0x20) (Vector.replicate 4 .off) else .reader .off } := by
  cases k
  · have htext : displayText [] = Vector.replicate 16 0x20 := by decide
    simp [Context.asKind, blankImage, htext, Context.free, DropKind.isReader]
    exact ⟨rfl, rfl⟩
  · rfl
  · rfl

theorem missUnder_eq (att : Attach) (miss q : Nat) : missUnder att miss q =
    if att = .attached then (if q ≤ miss then q - 1 else miss) else if att = .lost then q else min miss q := by
  cases att <;> rfl

theorem Context.profiled_first {x : Context} (pr : Profile) (h : x.profile = none) :
    x.profiled pr = { Context.free.asKind pr.kind with attach := .parked, profile := some pr, miss := 0 } := by
  simp only [Context.profiled, h]
  rfl

theorem Context.profiled_sameKind {x : Context} {old : Profile} (pr : Profile) (h : x.profile = some old) (hk : old.kind = pr.kind) :
    x.profiled pr = { x with profile := some pr, miss := missUnder x.attach x.miss pr.q } := by
  simp [Context.profiled, h, hk]

theorem Context.profiled_otherKind {x : Context} {old : Profile} (pr : Profile) (h : x.profile = some old) (hk : old.kind ≠ pr.kind) :
    x.profiled pr =
      { Context.free.asKind pr.kind with attach := x.attach, profile := some pr, miss := missUnder x.attach x.miss pr.q } := by
  simp [Context.profiled, h, hk]

/-! ### The fields and the later checks of R40 -/

theorem readRule_eq_none {r : RuleField} : readRule r = none ↔ ¬ RuleGood r := by
  unfold readRule
  simp only [noneCode, Config.trackSize, List.all_eq_true, decide_eq_true_eq, or_comm (a := r.start = 255)]
  split <;> simp_all [RuleGood]

theorem readRuleList_of_good {rs : List RuleField} (h : ∀ r ∈ rs, RuleGood r) : ∃ xs, readRuleList rs = some xs := by
  induction rs with
  | nil => exact ⟨[], rfl⟩
  | cons r rs ih =>
    obtain ⟨xs, hxs⟩ := ih fun y hy => h y (List.mem_cons_of_mem _ hy)
    cases hr : readRule r with
    | none => exact absurd (h r List.mem_cons_self) (readRule_eq_none.mp hr)
    | some x => exact ⟨(r.track, x) :: xs, by simp only [readRuleList, hr, hxs]⟩

theorem readRuleList_eq_none {rs : List RuleField} {r : RuleField} (hmem : r ∈ rs) (h : ¬ RuleGood r) : readRuleList rs = none := by
  induction rs with
  | nil => cases hmem
  | cons x rs ih =>
    rcases List.mem_cons.mp hmem with rfl | hmem
    · simp only [readRuleList, readRule_eq_none.mpr h]
    · simp only [readRuleList, ih hmem]
      cases readRule x <;> rfl

theorem readKind_code (k : DropKind) : readKind k.code = some k := by cases k <;> rfl

theorem readKind_eq_none {n : Nat} (h : 2 < n) : readKind n = none := by
  unfold readKind
  split <;> first | rfl | omega

/-- The checks of R40 that follow the identity. -/
def Part.checkIdentified (p : Part) (c : CtxId) (f : ProfileFields) (rules : List (Nat × TrackRule)) (line : LineId) (address : Nat)
    (kind : DropKind) : Check (CtxId × Profile) := do
  need (f.d.isNone ∨ kind = .keypad) .badField 6
  need (f.rules.isNone ∨ kind.isReader) .badField 7
  need (f.chipTimeout.isNone ∨ kind = .readerHybrid) .badField 8
  need ((p.ctx c).attach = .free ∨ (p.ctx c).attach = .parked ∨ (p.ctx c).keepsIdentity line address kind) .wrongState
  need (¬ p.addressTaken c line address) .badField 3
  pure (c, newProfile line address kind (p.ctx c).profile f rules)

section
variable {p : Part} {c : CtxId} {f : ProfileFields} {line : Option LineId} {kind : Option DropKind} {rules : List (Nat × TrackRule)}
  (hline : f.line = line.map lineCode) (haddress : ∀ a ∈ f.address, 1 ≤ a ∧ a ≤ 15) (hkind : f.kind = kind.map DropKind.code)
  (hrules : readRuleList (f.rules.getD []) = some rules)
include hline haddress hkind hrules

/-- With every field in range the identity is found, and then the later checks decide. -/
theorem Part.checkDropProfile_fields : p.checkDropProfile c.val f =
    (want (line <|> (p.ctx c).profile.map (·.line)) .badField 2 >>= fun l =>
      want (f.address <|> (p.ctx c).profile.map (·.address)) .badField 3 >>= fun a =>
      want (kind <|> (p.ctx c).profile.map (·.kind)) .badField 4 >>= fun k => p.checkIdentified c f rules l a k) := by
  rw [Part.checkDropProfile, readCtx_val, want_some_bind, hline, wantOpt_code readLine_lineCode, hkind, hrules]
  refine Eq.trans (need_bind_of _ _ haddress _) ?_
  rw [wantOpt_code readKind_code]
  rfl

/-- The same with the whole identity known. -/
theorem Part.checkDropProfile_identity {l : LineId} {a : Nat} {k : DropKind} (h1 : (line <|> (p.ctx c).profile.map (·.line)) = some l)
    (h2 : (f.address <|> (p.ctx c).profile.map (·.address)) = some a) (h3 : (kind <|> (p.ctx c).profile.map (·.kind)) = some k) :
    p.checkDropProfile c.val f = p.checkIdentified c f rules l a k := by
  rw [Part.checkDropProfile_fields hline haddress hkind hrules, h1, want_some_bind, h2, want_some_bind, h3, want_some_bind]

end

theorem Part.addressTaken_iff {p : Part} {c : CtxId} {l : LineId} {a : Nat} :
    p.addressTaken c l a = true ↔ ∃ o pr, o ≠ c ∧ (p.ctx o).profile = some pr ∧ pr.line = l ∧ pr.address = a := by
  simp only [Part.addressTaken, List.any_eq_true, mem_allCtx, true_and, Bool.and_eq_true, bne_iff_ne]
  refine exists_congr fun o => ?_
  cases (p.ctx o).profile <;> simp

theorem DropKind.isReader_iff (k : DropKind) : k.isReader = true ↔ k ≠ .keypad := by cases k <;> simp [DropKind.isReader]

section
variable {p : Part} {c : CtxId} {f : ProfileFields} {rules : List (Nat × TrackRule)} {l : LineId} {a : Nat} {k : DropKind}

/-- A request whose fields are those of its kind goes on to the state and the address. -/
theorem Part.checkIdentified_fields (hd : f.d.isSome → k = .keypad) (hr : f.rules.isSome → k ≠ .keypad)
    (ht : f.chipTimeout.isSome → k = .readerHybrid) : p.checkIdentified c f rules l a k =
      (need ((p.ctx c).attach = .free ∨ (p.ctx c).attach = .parked ∨ (p.ctx c).keepsIdentity l a k) .wrongState >>= fun _ =>
        need (¬ p.addressTaken c l a) .badField 3 >>= fun _ => pure (c, newProfile l a k (p.ctx c).profile f rules)) := by
  have given {α : Type} {o : Option α} {P : Prop} (h : o.isSome → P) : o.isNone ∨ P := by
    cases o with
    | none => exact .inl rfl
    | some x => exact .inr (h rfl)
  rw [Part.checkIdentified, need_bind_of _ _ (given hd), need_bind_of _ _ (given fun h => (DropKind.isReader_iff k).mpr (hr h)),
    need_bind_of _ _ (given ht)]

theorem Part.checkIdentified_ok (hd : f.d.isSome → k = .keypad) (hr : f.rules.isSome → k ≠ .keypad)
    (ht : f.chipTimeout.isSome → k = .readerHybrid)
    (hstate : (p.ctx c).attach = .free ∨ (p.ctx c).attach = .parked ∨ (p.ctx c).keepsIdentity l a k = true)
    (hfree : ∀ o pr, o ≠ c → (p.ctx o).profile = some pr → ¬ (pr.line = l ∧ pr.address = a)) :
    p.checkIdentified c f rules l a k = .ok (c, newProfile l a k (p.ctx c).profile f rules) := by
  have hclash : ¬ p.addressTaken c l a = true := fun h => by
    obtain ⟨o, pr, ho, hpr, hsame⟩ := Part.addressTaken_iff.mp h
    exact hfree o pr ho hpr hsame
  rw [Part.checkIdentified_fields hd hr ht, need_bind_of _ _ hstate, need_bind_of _ _ hclash]
  rfl

end

theorem exec_dropProfile {s : State} (hs : Ready s) (tag : Byte) {c : CtxId} {f : ProfileFields} {pr : Profile}
    (h : s.part.checkDropProfile c.val f = .ok (c, pr)) : exec (.dropProfile tag c.val f) s =
      .next (Replied s (s.part.profile c pr) tag 0x1E (.accepted ((s.part.profile c pr).profileReply c pr))) :=
  exec_of_ok hs tag (.dropProfile c.val f) nofun rfl h

theorem exec_dropProfile_refused {s : State} (hs : Ready s) (tag : Byte) {c : CtxId} {f : ProfileFields} {code : RefusalCode} {field : Nat}
    (h : s.part.checkDropProfile c.val f = .error (code, field)) :
    exec (.dropProfile tag c.val f) s = .next (Replied s s.part tag 0x1E (.refused code field)) :=
  exec_of_error hs tag (.dropProfile c.val f) nofun rfl h

/-! ### The profile taken -/

/-- The values that a request gives, brought into range, or else those kept from an earlier profile, or else the defaults (R41, R42). -/
theorem newProfile_eq (l : LineId) (a : Nat) (k : DropKind) (old : Option Profile) (f : ProfileFields) (rules : List (Nat × TrackRule)) :
    newProfile l a k old f rules =
      { line := l, address := a, kind := k
        q := (f.q.map fun n => max 2 (min 255 n)).getD (((old.filter fun o => o.kind == k).map (·.q)).getD 8)
        d := if k = .keypad then some ((f.d.map fun n => max 1 (min 100 n)).getD (((old.filter fun o => o.kind == k).bind (·.d)).getD 20)) else none
        rules := if k = .keypad then none
          else some (rules.foldl (fun r y => r.put y.1 y.2) (((old.filter fun o => o.kind == k).bind (·.rules)).getD defaultRules))
        chipTimeout := if k = .readerHybrid then some ((f.chipTimeout.map fun n => max 100 (min 60000 n)).getD
          (((old.filter fun o => o.kind == k).bind (·.chipTimeout)).getD 5000)) else none } := by
  unfold newProfile
  cases f.q <;> cases f.d <;> cases f.chipTimeout <;> cases k <;> rfl

/-- Settles O26. -/
theorem firstProfile : Obligations.FirstProfile := by
  intro s tag c l a kind q d t given rules hs hfree hnone h1 h15 hunique hd hr ht hrules x dTaken n std pr keys card chip fields
  have hcheck : s.part.checkDropProfile c.val fields = .ok (c, newProfile l a kind none fields rules) := by
    have h := Part.checkDropProfile_identity (p := s.part) (c := c) (f := fields) (line := some l) (kind := some kind) rfl
      (fun b hb => by obtain rfl : a = b := Option.some.inj hb; exact ⟨h1, h15⟩) rfl hrules (l := l) (a := a) (k := kind) rfl rfl rfl
    rw [h, Part.checkIdentified_ok hd hr ht (.inl hfree) hunique, hnone]
  have hpr : newProfile l a kind none fields rules = pr := by
    rw [newProfile_eq]
    cases q <;> cases d <;> cases t <;> rfl
  rw [hpr] at hcheck
  have hexec := exec_dropProfile hs tag hcheck
  have hctx : (s.part.profile c pr).ctx c = _ := Part.ctx_profile_self ..
  rw [Context.profiled_first pr hnone, Context.anew_eq] at hctx
  obtain ⟨hpos, hqueue, hfaults⟩ := s.part.identified_sameKind c pr fun old hold => by rw [hnone] at hold; cases hold
  have hkeys : (s.part.profile c pr).ctx c =
        { attach := .parked, profile := some pr, miss := 0, holder := none, features := none, lateBlock := false, fresh := false
          controls := [], formHold := 0, latchHold := 0, powerHold := 0, cursor := 0
          keypad := if kind = .keypad then some keys else none
          reader := if kind = .keypad then none else some card
          chip := if kind = .readerHybrid then some chip else none
          image := if kind = .keypad then .keypad (Vector.replicate 16 0x20) (Vector.replicate 4 .off) else .reader .off } := by
    rw [hctx]
    cases kind <;> rfl
  refine ⟨_, ?_, hkeys, fun e he => Part.ctx_profile_ne _ _ _ he, fun m => ?_, fun i => ?_, ?_, ?_⟩
  · rw [hexec, Part.profileReply, hkeys]
    cases kind <;> rfl
  · rw [Part.line_profile, Part.line_identified, if_neg]
    rintro ⟨old, hold, -⟩
    rw [hnone] at hold
    cases hold
  · rw [Part.position_profile, hpos]
  · rw [Part.queue_profile, hqueue]
  · rw [Part.faults_profile, hfaults]

/-! ### Behaviour fields (R43) -/

/-- A field that is left out, or gives the number of what is there. -/
theorem exists_code {α : Type} {num : α → Nat} {o : Option Nat} {x : α} (h : ∀ n ∈ o, n = num x) :
    ∃ y : Option α, o = y.map num ∧ (y <|> some x) = some x := by
  cases o with
  | none => exact ⟨none, rfl, rfl⟩
  | some n => exact ⟨some x, by simp [h n rfl], rfl⟩

/-- A profile of the same kind keeps what the request leaves out (R41). -/
theorem newProfile_kept {old : Profile} (f : ProfileFields) (rules : List (Nat × TrackRule)) (hoD : old.d.isSome ↔ old.kind = .keypad)
    (hoR : old.rules.isSome ↔ old.kind ≠ .keypad) (hoT : old.chipTimeout.isSome ↔ old.kind = .readerHybrid)
    (hd : f.d.isSome → old.kind = .keypad) (ht : f.chipTimeout.isSome → old.kind = .readerHybrid) :
    newProfile old.line old.address old.kind (some old) f rules = { old with
      q := (f.q.map fun n => max 2 (min 255 n)).getD old.q
      d := (f.d.map fun n => max 1 (min 100 n)).or old.d
      rules := old.rules.map fun r => rules.foldl (fun r y => r.put y.1 y.2) r
      chipTimeout := (f.chipTimeout.map fun n => max 100 (min 60000 n)).or old.chipTimeout } := by
  obtain ⟨l, a, kind, q, d, r, t⟩ := old
  rw [newProfile_eq]
  simp only [beq_self_eq_true, Option.filter_some, if_true, Option.map_some, Option.bind_some, Option.getD_some] at *
  congr 1
  · by_cases hk : kind = .keypad
    · obtain ⟨n, rfl⟩ := Option.isSome_iff_exists.mp (hoD.mpr hk)
      rw [if_pos hk]
      cases f.d <;> rfl
    · rw [if_neg hk, Option.not_isSome_iff_eq_none.mp (mt hoD.mp hk), Option.not_isSome_iff_eq_none.mp (mt hd hk)]
      rfl
  · by_cases hk : kind = .keypad
    · rw [if_pos hk, Option.not_isSome_iff_eq_none.mp (fun h => hoR.mp h hk)]
      rfl
    · obtain ⟨n, rfl⟩ := Option.isSome_iff_exists.mp (hoR.mpr hk)
      rw [if_neg hk]
      rfl
  · by_cases hk : kind = .readerHybrid
    · obtain ⟨n, rfl⟩ := Option.isSome_iff_exists.mp (hoT.mpr hk)
      rw [if_pos hk]
      cases f.chipTimeout <;> rfl
    · rw [if_neg hk, Option.not_isSome_iff_eq_none.mp (mt hoT.mp hk), Option.not_isSome_iff_eq_none.mp (mt ht hk)]
      rfl

/-- Settles O27. -/
theorem behaviourProfile : Obligations.BehaviourProfile := by
  intro s tag c old line address kind q d t given rules hs hfree hold h1 h15 hunique hline haddress hkind hoD hoR hoT hd hr ht hrules
    x q' pr y ln fields
  obtain ⟨line', hline', hl⟩ := exists_code hline
  obtain ⟨kind', hkind', hk⟩ := exists_code hkind
  have hadr : (address <|> some old.address) = some old.address ∧ ∀ b ∈ address, 1 ≤ b ∧ b ≤ 15 := by
    cases address with
    | none => exact ⟨rfl, nofun⟩
    | some b =>
      obtain rfl := haddress b rfl
      exact ⟨rfl, fun b hb => by obtain rfl := Option.some.inj hb; exact ⟨h1, h15⟩⟩
  have hidentity : x.keepsIdentity old.line old.address old.kind = true := keepsIdentity_iff.mpr ⟨old, hold, rfl, rfl, rfl⟩
  have hcheck : s.part.checkDropProfile c.val fields = .ok (c, newProfile old.line old.address old.kind (some old) fields rules) := by
    rw [Part.checkDropProfile_identity (p := s.part) (c := c) (f := fields) hline' hadr.2 hkind' hrules (l := old.line) (a := old.address)
        (k := old.kind) (by rw [hold]; exact hl) (by rw [hold]; exact hadr.1) (by rw [hold]; exact hk),
      Part.checkIdentified_ok hd hr ht (.inr (.inr hidentity)) hunique, hold]
  have hpr : newProfile old.line old.address old.kind (some old) fields rules = pr := by
    exact newProfile_kept fields rules hoD hoR hoT hd ht
  rw [hpr] at hcheck
  have hctx : (s.part.profile c pr).ctx c = _ := Part.ctx_profile_self ..
  rw [Context.profiled_sameKind pr hold rfl, missUnder_eq] at hctx
  obtain ⟨hpos, hqueue, hfaults⟩ := s.part.identified_sameKind c pr fun old' hold' => by
    rw [hold] at hold'
    exact (Option.some.inj hold') ▸ rfl
  have hattach : ((s.part.profile c pr).ctx c).attach = x.attach := by
    rw [hctx]
    unfold rescanned
    split <;> rfl
  refine ⟨_, ?_, hctx, fun e he => Part.ctx_profile_ne _ _ _ he, fun m => ?_, fun i => ?_, ?_, ?_⟩
  · rw [exec_dropProfile hs tag hcheck, Part.profileReply, hattach]
    rfl
  · rw [Part.line_profile, Part.line_identified, if_neg]
    rintro ⟨old', hold', hne, -⟩
    rw [hold] at hold'
    exact hne ((Option.some.inj hold') ▸ rfl)
  · rw [Part.position_profile, hpos]
  · rw [Part.queue_profile, hqueue]
  · rw [Part.faults_profile, hfaults]

end Sys2Proof.Machine
end

section
/-! PROOFS. DROP PROFILE of identity fields (R40, R42, R28, R61). -/

namespace Sys2Proof.Machine

open Sys2Proof.Safety

/-- Refusals of the fields that the check order reads first (R40). -/
theorem Part.checkDropProfile_line (p : Part) (c : CtxId) {f : ProfileFields} {n : Nat} (hf : f.line = some n) (h : 1 < n) :
    p.checkDropProfile c.val f = .error (.badField, 2) := by
  rw [Part.checkDropProfile, readCtx_val, want_some_bind, hf, wantOpt_none (readLine_eq_none h)]; rfl

theorem Part.checkDropProfile_address (p : Part) (c : CtxId) {f : ProfileFields} {n : Nat} (hl : f.line = none) (hf : f.address = some n)
    (h : n = 0 ∨ 15 < n) : p.checkDropProfile c.val f = .error (.badField, 3) := by
  rw [Part.checkDropProfile, readCtx_val, want_some_bind, hl]
  exact need_bind_of_not (c := ∀ a ∈ f.address, 1 ≤ a ∧ a ≤ 15) _ _ (fun hall => by have := hall n hf; omega) _

theorem Part.checkDropProfile_kind (p : Part) (c : CtxId) {f : ProfileFields} {n : Nat} (hl : f.line = none) (ha : f.address = none)
    (hf : f.kind = some n) (h : 2 < n) : p.checkDropProfile c.val f = .error (.badField, 4) := by
  rw [Part.checkDropProfile, readCtx_val, want_some_bind, hl]
  refine Eq.trans (need_bind_of (c := ∀ a ∈ f.address, 1 ≤ a ∧ a ≤ 15) _ _ (fun a h => by rw [ha] at h; cases h) _) ?_
  rw [hf, wantOpt_none (readKind_eq_none h)]; rfl

theorem Part.checkDropProfile_rules (p : Part) (c : CtxId) {f : ProfileFields} {rules : List RuleField} (hl : f.line = none)
    (ha : f.address = none) (hk : f.kind = none) (hf : f.rules = some rules) (h : ∃ r ∈ rules, ¬ RuleGood r) :
    p.checkDropProfile c.val f = .error (.badField, 7) := by
  obtain ⟨r, hmem, hbad⟩ := h
  rw [Part.checkDropProfile, readCtx_val, want_some_bind, hl]
  refine Eq.trans (need_bind_of (c := ∀ a ∈ f.address, 1 ≤ a ∧ a ≤ 15) _ _ (fun a h => by rw [ha] at h; cases h) _) ?_
  rw [hk, hf, show readRuleList ((some rules).getD []) = none from readRuleList_eq_none hmem hbad]; rfl

section
variable {p : Part} {c : CtxId} {f : ProfileFields} {rules : List (Nat × TrackRule)} {l : LineId} {a : Nat} {k : DropKind}

theorem Part.checkIdentified_debounce (hf : f.d.isSome) (hk : k ≠ .keypad) : p.checkIdentified c f rules l a k = .error (.badField, 6) := by
  rw [Part.checkIdentified, need_bind_of_not _ _ (by simp [hk, Option.isSome_iff_ne_none.mp hf])]

theorem Part.checkIdentified_rules (hd : f.d = none) (hf : f.rules.isSome) (hk : k = .keypad) :
    p.checkIdentified c f rules l a k = .error (.badField, 7) := by
  rw [Part.checkIdentified, need_bind_of _ _ (by simp [hd]),
    need_bind_of_not _ _ (by simp [hk, DropKind.isReader, Option.isSome_iff_ne_none.mp hf])]

theorem Part.checkIdentified_timeout (hd : f.d = none) (hr : f.rules = none) (hf : f.chipTimeout.isSome) (hk : k ≠ .readerHybrid) :
    p.checkIdentified c f rules l a k = .error (.badField, 8) := by
  rw [Part.checkIdentified, need_bind_of _ _ (by simp [hd]), need_bind_of _ _ (by simp [hr]),
    need_bind_of_not _ _ (by simp [hk, Option.isSome_iff_ne_none.mp hf])]

variable (hd : f.d = none) (hr : f.rules = none) (ht : f.chipTimeout = none)
include hd hr ht

theorem Part.checkIdentified_state (h1 : (p.ctx c).attach ≠ .free) (h2 : (p.ctx c).attach ≠ .parked)
    (h3 : ¬ (p.ctx c).keepsIdentity l a k = true) : p.checkIdentified c f rules l a k = .error (.wrongState, 0) := by
  rw [Part.checkIdentified_fields (by simp [hd]) (by simp [hr]) (by simp [ht]), need_bind_of_not _ _ (by simp [h1, h2, h3])]

theorem Part.checkIdentified_clash (h1 : (p.ctx c).attach = .free ∨ (p.ctx c).attach = .parked)
    (h2 : ∃ o pr, o ≠ c ∧ (p.ctx o).profile = some pr ∧ pr.line = l ∧ pr.address = a) :
    p.checkIdentified c f rules l a k = .error (.badField, 3) := by
  rw [Part.checkIdentified_fields (by simp [hd]) (by simp [hr]) (by simp [ht]), need_bind_of _ _ (h1.imp_right .inl),
    need_bind_of_not _ _ (Classical.not_not.mpr (Part.addressTaken_iff.mpr h2))]

end

/-- A profile read off an identity with a default for what is left out. -/
theorem orElse_getD {α : Type} (o : Option α) (x : α) : (o <|> some x) = some (o.getD x) := by cases o <;> rfl

/-- Notices made at some positions and not at others. -/
theorem flatMap_ite {α β : Type} (l : List α) (P : α → Bool) (f : α → β) :
    (l.flatMap fun a => if P a = true then [f a] else []) = (l.filter P).map f := by
  induction l with
  | nil => rfl
  | cons a l ih => cases h : P a <;> simp [h, ih]

/-- The values kept from an earlier profile are those of one of the same kind (R41, R42). -/
theorem newProfile_of_old {l : LineId} {a : Nat} {k : DropKind} (old : Profile) (f : ProfileFields) (rules : List (Nat × TrackRule)) :
    newProfile l a k (some old) f rules =
      { line := l, address := a, kind := k
        q := (f.q.map fun n => max 2 (min 255 n)).getD (if k = old.kind then old.q else 8)
        d := if k = .keypad then some ((f.d.map fun n => max 1 (min 100 n)).getD (if k = old.kind then old.d.getD 20 else 20)) else none
        rules := if k = .keypad then none
          else some (rules.foldl (fun r y => r.put y.1 y.2) (if k = old.kind then old.rules.getD defaultRules else defaultRules))
        chipTimeout := if k = .readerHybrid
          then some ((f.chipTimeout.map fun n => max 100 (min 60000 n)).getD (if k = old.kind then old.chipTimeout.getD 5000 else 5000)) else none } := by
  rw [newProfile_eq, Option.filter_some]
  by_cases h : k = old.kind
  · simp [h]
  · simp [h, Ne.symm h]

/-- A position without the pointer that may not name a context of a kind (R61). -/
theorem Position.without_wrong (c : CtxId) (k : DropKind) (z : Position) : z.without c k.wrongPointer =
    if (if k = .keypad then z.reader == some c else z.keypad == some c) = true
    then (if k = .keypad then { z with reader := none } else { z with keypad := none }) else z := by
  cases k with
  | keypad => by_cases h : z.reader = some c <;> simp [Position.without, DropKind.wrongPointer, Position.pointer, Position.clear, h]
  | readerStripe => by_cases h : z.keypad = some c <;> simp [Position.without, DropKind.wrongPointer, Position.pointer, Position.clear, h]
  | readerHybrid => by_cases h : z.keypad = some c <;> simp [Position.without, DropKind.wrongPointer, Position.pointer, Position.clear, h]

theorem DropKind.pointer_wrong (k : DropKind) (z : Position) :
    z.pointer k.wrongPointer = if k = .keypad then z.reader else z.keypad := by
  cases k <;> rfl

theorem DropKind.wrongPointer_eq (k : DropKind) : k.wrongPointer = if k = .keypad then .reader else .keypad := by
  cases k <;> rfl

/-- Settles O28. -/
theorem identityChange : Obligations.IdentityChange := by
  refine ⟨fun s tag c hs => ?refusals, fun s tag c old line address kind' q d t given rules hs => ?change⟩
  case refusals =>
    intro blank refused
    have refuse {f : ProfileFields} {code : RefusalCode} {field : Nat} (h : s.part.checkDropProfile c.val f = .error (code, field)) :
        refused f code field := exec_dropProfile_refused hs tag h
    refine ⟨fun n h => refuse (s.part.checkDropProfile_line c rfl h), fun n h => refuse (s.part.checkDropProfile_address c rfl rfl h),
      fun n h => refuse (s.part.checkDropProfile_kind c rfl rfl rfl h), fun rules h => refuse (s.part.checkDropProfile_rules c rfl rfl rfl rfl h),
      fun hnone l a k h1 h15 => ?_, fun old hold => ?_⟩
    · have hfields (f : ProfileFields) (line : Option LineId) (kind : Option DropKind) (hline : f.line = line.map lineCode)
          (ha : f.address = none ∨ f.address = some a) (hkind : f.kind = kind.map DropKind.code) (hr : f.rules = none) :=
        Part.checkDropProfile_fields (p := s.part) (c := c) (rules := []) hline
          (fun b hb => by
            obtain ha | ha := ha <;> rw [ha] at hb
            · cases hb
            · obtain rfl := Option.some.inj hb; exact ⟨h1, h15⟩) hkind (by rw [hr]; rfl)
      rw [hnone] at hfields
      refine ⟨refuse ?_, refuse ?_, refuse ?_, fun hfree hclash => refuse ?_⟩
      · rw [hfields (IdentityFields none (some a) (some k)) none (some k) rfl (.inr rfl) rfl rfl]; rfl
      · rw [hfields (IdentityFields (some l) none (some k)) (some l) (some k) rfl (.inl rfl) rfl rfl]; rfl
      · rw [hfields (IdentityFields (some l) (some a) none) (some l) none rfl (.inr rfl) rfl rfl]; rfl
      · rw [hfields (IdentityFields (some l) (some a) (some k)) (some l) (some k) rfl (.inr rfl) rfl rfl]
        exact Part.checkIdentified_clash (f := IdentityFields (some l) (some a) (some k)) rfl rfl rfl (.inl hfree) hclash
    · have hfields (f : ProfileFields) (rules : List (Nat × TrackRule)) (line : Option LineId) (kind : Option DropKind)
          (hline : f.line = line.map lineCode) (ha : ∀ b ∈ f.address, 1 ≤ b ∧ b ≤ 15) (hkind : f.kind = kind.map DropKind.code)
          (hr : readRuleList (f.rules.getD []) = some rules) : s.part.checkDropProfile c.val f =
            s.part.checkIdentified c f rules (line.getD old.line) (f.address.getD old.address) (kind.getD old.kind) :=
        Part.checkDropProfile_identity hline ha hkind hr (by rw [hold]; exact orElse_getD ..) (by rw [hold]; exact orElse_getD ..)
          (by rw [hold]; exact orElse_getD ..)
      refine ⟨fun n hk => refuse ?_, fun rules hgood hk => refuse ?_, fun n hk => refuse ?_, fun line address kind ha => ?_⟩
      · rw [hfields { blank with d := some n } [] none none rfl nofun rfl rfl]
        exact Part.checkIdentified_debounce rfl hk
      · obtain ⟨xs, hxs⟩ := readRuleList_of_good hgood
        rw [hfields { blank with rules := some rules } xs none none rfl nofun rfl hxs]
        exact Part.checkIdentified_rules rfl rfl hk
      · rw [hfields { blank with chipTimeout := some n } [] none none rfl nofun rfl rfl]
        exact Part.checkIdentified_timeout rfl rfl rfl hk
      · refine ⟨fun h1 h2 h3 => refuse ?_, fun hparked hclash => refuse ?_⟩
        · rw [hfields (IdentityFields line address kind) [] line kind rfl ha rfl rfl]
          refine Part.checkIdentified_state (f := IdentityFields line address kind) rfl rfl rfl h1 h2 fun hkeeps => h3 ?_
          obtain ⟨pr, hpr, e1, e2, e3⟩ := keepsIdentity_iff.mp hkeeps
          rw [hold] at hpr
          obtain rfl := Option.some.inj hpr
          exact ⟨e1.symm, e2.symm, e3.symm⟩
        · rw [hfields (IdentityFields line address kind) [] line kind rfl ha rfl rfl]
          exact Part.checkIdentified_clash (f := IdentityFields line address kind) rfl rfl rfl (.inr hparked) hclash
  case change =>
    intro hparked hold l a kind haddress hunique hd hr ht hrules x keep std pr keys card chip y ln empty wrong cleared pointer fields
    have hcheck : s.part.checkDropProfile c.val fields = .ok (c, pr) := by
      rw [Part.checkDropProfile_identity (p := s.part) (c := c) (f := fields) (line := line) (kind := kind') rfl haddress rfl hrules
          (l := l) (a := a) (k := kind) (by rw [hold]; exact orElse_getD ..) (by rw [hold]; exact orElse_getD ..)
          (by rw [hold]; exact orElse_getD ..), Part.checkIdentified_ok hd hr ht (.inr (.inl hparked)) hunique, hold, newProfile_of_old]
      rfl
    have hmiss (q : Nat) : missUnder x.attach x.miss q = min x.miss q := by rw [hparked]; rfl
    have hprofiled : x.profiled pr = y := by
      by_cases hk : keep
      · rw [Context.profiled_sameKind pr hold (Eq.symm hk), hmiss]
        exact (if_pos hk).symm
      · rw [Context.profiled_otherKind pr hold (fun h => hk h.symm), hmiss, Context.anew_eq, hparked]
        exact (if_neg hk).symm
    have hctx : (s.part.profile c pr).ctx c = _ := Part.ctx_profile_self ..
    rw [hprofiled] at hctx
    have hattach : ((s.part.profile c pr).ctx c).attach = .parked := by
      have hy : y.attach = .parked := by
        show (if keep then _ else _ : Context).attach = _
        split
        · exact hparked
        · rfl
      rw [hctx, ← hy]
      unfold rescanned
      split <;> rfl
    refine ⟨_, ?reply, hctx, fun m => ?lines, fun i => ?positions, ?notices, fun e he => Part.ctx_profile_ne _ _ _ he⟩
    case reply =>
      rw [exec_dropProfile hs tag hcheck, Part.profileReply, hattach]
      rfl
    case lines =>
      rw [Part.line_profile, Part.line_identified, hold]
      by_cases hm : m = old.line ∧ l ≠ old.line
      · rw [if_pos hm, if_pos ⟨old, rfl, fun h => hm.2 h.symm, hm.1⟩, Part.line_purge, if_pos rfl]
        rfl
      · rw [if_neg hm, if_neg]
        rintro ⟨old', hold', hne, hm'⟩
        obtain rfl := Option.some.inj hold'
        exact hm ⟨hm', fun h => hne h.symm⟩
    case positions =>
      rw [Part.position_profile]
      by_cases hk : old.kind = kind
      · rw [(s.part.identified_sameKind c pr fun old' h => by rw [hold] at h; exact (Option.some.inj h) ▸ hk).1]
        simp [cleared, wrong, hk]
      · rw [(s.part.identified_otherKind c pr hold hk).1, Position.without_wrong]
        simp only [cleared, wrong, ne_eq, Ne.symm hk, not_false_eq_true, decide_true, Bool.true_and]
        rfl
    case notices =>
      by_cases hk : old.kind = kind
      · obtain ⟨-, hqueue, hfaults⟩ := s.part.identified_sameKind c pr fun old' h => by rw [hold] at h; exact (Option.some.inj h) ▸ hk
        have hnone : (allPos.filter fun i => wrong (s.part.position i)) = [] := by simp [wrong, hk]
        rw [hnone]
        exact offered_of_eq ((Part.queue_profile ..).trans hqueue) ((Part.faults_profile ..).trans hfaults)
      · have hoff := (s.part.identified_otherKind c pr hold hk).2
        have hwrong (z : Position) : (z.pointer kind.wrongPointer = some c) = (wrong z = true) := by
          simp only [DropKind.pointer_wrong, wrong, ne_eq, Ne.symm hk, not_false_eq_true, decide_true, Bool.true_and]
          split <;> simp
        have hcleared (z : Position) : z.without c kind.wrongPointer = cleared z := by
          rw [Position.without_wrong]
          simp only [cleared, wrong, ne_eq, Ne.symm hk, not_false_eq_true, decide_true, Bool.true_and]
        simp only [clearNotices_eq, show pr.kind = kind from rfl, hwrong, hcleared, flatMap_ite] at hoff
        rw [DropKind.wrongPointer_eq] at hoff
        exact ⟨(Part.queue_profile ..).trans hoff.1, (Part.faults_profile ..).trans hoff.2⟩

end Sys2Proof.Machine
end

section
/-! PROOFS. SET INDICATORS (R65 to R68). -/

namespace Sys2Proof.Machine

open Sys2Proof.Safety

/-! ### The images written -/

theorem get_displayText (t : List Byte) (n : Fin 16) : (displayText t).get n = shown t n.val := by
  have hchar (m : Nat) : ((t[m]?.map displayChar).getD 0x20) = shown t m := by
    unfold shown
    cases t[m]? <;> rfl
  rw [← hchar]
  match n with
  | 0 | 1 | 2 | 3 | 4 | 5 | 6 | 7 | 8 | 9 | 10 | 11 | 12 | 13 | 14 | 15 => rfl
  | ⟨k + 16, hk⟩ => exact absurd hk (by omega)

/-- The characters of a display after a text that may be left out (R67, R70). -/
def charsAfter (chars : Vector Byte 16) (text : Option (List Byte)) : Vector Byte 16 := (text.map displayText).getD chars

theorem get_charsAfter_none (chars : Vector Byte 16) (n : Fin 16) : (charsAfter chars none).get n = chars.get n := rfl

theorem get_charsAfter_some (chars : Vector Byte 16) (t : List Byte) (n : Fin 16) : (charsAfter chars (some t)).get n = shown t n.val :=
  get_displayText t n

theorem writeKeypadPart_keypad (k : KeypadPart) (chars : Vector Byte 16) (lamps : Vector Lamp 4) :
    writeKeypadPart k (.keypad chars lamps) = .keypad (charsAfter chars k.text)
      #v[writeLamp lamps[0] k.lamp1, writeLamp lamps[1] k.lamp2, writeLamp lamps[2] k.lamp3, writeLamp lamps[3] k.lamp4] := by
  unfold writeKeypadPart charsAfter
  cases k.text <;> rfl

theorem readLamp_isSome {n : Nat} : (readLamp n).isSome = true ↔ n ≤ 2 := by
  unfold readLamp
  split <;> simp_all
  omega

theorem lampGood_iff {o : Option Nat} : lampGood o = true ↔ ∀ n, o = some n → n ≤ 2 := by
  cases o <;> simp [lampGood, readLamp_isSome]

theorem keypadLampsGood_iff {k : KeypadPart} : keypadLampsGood k = true ↔
    ∀ n, k.lamp1 = some n ∨ k.lamp2 = some n ∨ k.lamp3 = some n ∨ k.lamp4 = some n → n ≤ 2 := by
  simp only [keypadLampsGood, Bool.and_eq_true, lampGood_iff]
  constructor
  · rintro ⟨⟨⟨h1, h2⟩, h3⟩, h4⟩ n (h | h | h | h)
    · exact h1 n h
    · exact h2 n h
    · exact h3 n h
    · exact h4 n h
  · exact fun h => ⟨⟨⟨fun n hn => h n (.inl hn), fun n hn => h n (.inr (.inl hn))⟩, fun n hn => h n (.inr (.inr (.inl hn)))⟩,
      fun n hn => h n (.inr (.inr (.inr hn)))⟩

/-! ### A target written -/

/-- A context under a new image and a beep (R67, R68). -/
theorem Context.written_eq (x : Context) (img : Image) (beep : Option Nat) : (x.writeImage img).takeBeep beep =
    { x with
      image := img, cursor := if img ≠ x.image then 0 else x.cursor
      controls := if x.attach = .attached then x.controls ++ ((beep.map fun n => max 1 (min 255 n)).map Control.beep).toList
        else x.controls } := by
  have himage : x.writeImage img = { x with image := img, cursor := if img ≠ x.image then 0 else x.cursor } := by
    unfold Context.writeImage
    by_cases h : img = x.image <;> simp [h]
  rw [himage]
  cases beep with
  | none => simp [Context.takeBeep]
  | some n =>
    by_cases h : x.attach = .attached
    · simp only [Context.takeBeep, h, if_true]
      rfl
    · simp only [Context.takeBeep, h, if_false]

section
variable (p : Part) (t : Target)

theorem Part.ctx_indicate_self : (p.indicate t).ctx t.ctx = ((p.ctx t.ctx).writeImage t.image).takeBeep t.beep := by simp [Part.indicate]

theorem Part.ctx_indicate_ne {d : CtxId} (h : d ≠ t.ctx) : (p.indicate t).ctx d = p.ctx d := by simp [Part.indicate, h]

@[simp] theorem Part.line_indicate (l : LineId) : (p.indicate t).line l = p.line l := by simp [Part.indicate]

@[simp] theorem Part.position_indicate (i : PosId) : (p.indicate t).position i = p.position i := by simp [Part.indicate]

@[simp] theorem Part.queue_indicate : (p.indicate t).queue = p.queue := by simp [Part.indicate]

@[simp] theorem Part.faults_indicate : (p.indicate t).faults = p.faults := by simp [Part.indicate]

end

/-! ### The checks (R66) -/

section
variable {p : Part} {i : PosId} {k : Option KeypadPart} {r : Option ReaderPart}

theorem Part.mayWrite_iff {t : Target} : p.mayWrite i t = true ↔ ¬ ((p.ctx t.ctx).holder ≠ none ∧ (p.ctx t.ctx).holder ≠ some i) := by
  simp only [Part.mayWrite, Bool.or_eq_true, Option.isNone_iff_eq_none, beq_iff_eq, Classical.not_and_iff_not_or_not, Classical.not_not, ne_eq]

theorem Part.beepFits_iff_not {t : Target} : p.beepFits t = true ↔
    ¬ (t.beep.isSome = true ∧ (p.ctx t.ctx).attach = .attached ∧ 6 ≤ (p.ctx t.ctx).controls.length) := by
  rw [beepFits_iff, not_and, not_and]
  exact ⟨fun h h1 h2 => by have := h h1 h2; omega, fun h h1 h2 => by have := h h1 h2; omega⟩

theorem Part.checkIndicators_none : p.checkIndicators (i.val + 1) none none = .error (.badField, 0) := by
  rw [Part.checkIndicators, readPos_val, want_some_bind, need_bind_of_not _ _ (by simp)]

variable (hgiven : k.isSome ∨ r.isSome)
include hgiven

theorem Part.checkIndicators_keypad (h : ¬ ∀ z ∈ k, keypadLampsGood z = true) : p.checkIndicators (i.val + 1) k r = .error (.badField, 2) := by
  rw [Part.checkIndicators, readPos_val, want_some_bind, need_bind_of _ _ hgiven, need_bind_of_not _ _ h]

theorem Part.checkIndicators_reader (hk : ∀ z ∈ k, keypadLampsGood z = true) (h : ¬ ∀ z ∈ r, lampGood z.bezel = true) :
    p.checkIndicators (i.val + 1) k r = .error (.badField, 3) := by
  rw [Part.checkIndicators, readPos_val, want_some_bind, need_bind_of _ _ hgiven, need_bind_of _ _ hk, need_bind_of_not _ _ h]

/-- With every field in range the targets are found, and then the holder and the room decide. -/
theorem Part.checkIndicators_fields (hk : ∀ z ∈ k, keypadLampsGood z = true) (hr : ∀ z ∈ r, lampGood z.bezel = true) :
    p.checkIndicators (i.val + 1) k r =
      (p.target k (p.position i).keypad writeKeypadPart (·.beep) >>= fun ks =>
        p.target r (p.position i).reader writeReaderPart (·.beep) >>= fun rs =>
        need ((ks ++ rs).all (p.mayWrite i)) .busy >>= fun _ =>
        need ((ks ++ rs).all p.beepFits) .controlFull >>= fun _ => pure (ks ++ rs)) := by
  rw [Part.checkIndicators, readPos_val, want_some_bind, need_bind_of _ _ hgiven, need_bind_of _ _ hk, need_bind_of _ _ hr]

end

/-- The holder and the room of the targets found (R66). -/
def Part.checkTargets (p : Part) (i : PosId) (ts : List Target) : Check (List Target) := do
  need (ts.all (p.mayWrite i)) .busy
  need (ts.all p.beepFits) .controlFull
  pure ts

section
variable {p : Part} {i : PosId} {ts : List Target}

theorem Part.checkTargets_busy (h : ∃ t ∈ ts, (p.ctx t.ctx).holder ≠ none ∧ (p.ctx t.ctx).holder ≠ some i) :
    p.checkTargets i ts = .error (.busy, 0) := by
  rw [Part.checkTargets, need_bind_of_not]
  simp only [List.all_eq_true, Part.mayWrite_iff]
  obtain ⟨t, ht, hheld⟩ := h
  exact fun hall => hall t ht hheld

variable (hfree : ∀ t ∈ ts, ¬ ((p.ctx t.ctx).holder ≠ none ∧ (p.ctx t.ctx).holder ≠ some i))
include hfree

theorem Part.checkTargets_full
    (h : ∃ t ∈ ts, t.beep.isSome = true ∧ (p.ctx t.ctx).attach = .attached ∧ 6 ≤ (p.ctx t.ctx).controls.length) :
    p.checkTargets i ts = .error (.controlFull, 0) := by
  rw [Part.checkTargets, need_bind_of _ _ (by simpa only [List.all_eq_true, Part.mayWrite_iff] using hfree), need_bind_of_not]
  simp only [List.all_eq_true, Part.beepFits_iff_not]
  obtain ⟨t, ht, hfull⟩ := h
  exact fun hall => hall t ht hfull

theorem Part.checkTargets_ok
    (h : ∀ t ∈ ts, ¬ (t.beep.isSome = true ∧ (p.ctx t.ctx).attach = .attached ∧ 6 ≤ (p.ctx t.ctx).controls.length)) :
    p.checkTargets i ts = .ok ts := by
  rw [Part.checkTargets, need_bind_of _ _ (by simpa only [List.all_eq_true, Part.mayWrite_iff] using hfree),
    need_bind_of _ _ (by simpa only [List.all_eq_true, Part.beepFits_iff_not] using h)]
  rfl

end

section
variable {p : Part} {i : PosId} {c : CtxId}

/-- The target of the keypad part. -/
abbrev keypadTarget (p : Part) (c : CtxId) (k : KeypadPart) : Target := ⟨c, writeKeypadPart k (p.ctx c).image, k.beep⟩

/-- The target of the reader part. -/
abbrev readerTarget (p : Part) (c : CtxId) (r : ReaderPart) : Target := ⟨c, writeReaderPart r (p.ctx c).image, r.beep⟩

theorem Part.checkIndicators_one_keypad {k : KeypadPart} (hk : keypadLampsGood k = true) : p.checkIndicators (i.val + 1) (some k) none =
    (want (p.position i).keypad .notBound >>= fun c => p.checkTargets i [keypadTarget p c k]) := by
  rw [Part.checkIndicators_fields (by simp) (by simpa using hk) (by simp)]
  cases (p.position i).keypad <;> rfl

theorem Part.checkIndicators_one_reader {r : ReaderPart} (hr : lampGood r.bezel = true) : p.checkIndicators (i.val + 1) none (some r) =
    (want (p.position i).reader .notBound >>= fun c => p.checkTargets i [readerTarget p c r]) := by
  rw [Part.checkIndicators_fields (by simp) (by simp) (by simpa using hr)]
  cases (p.position i).reader <;> rfl

theorem Part.checkIndicators_both {k : KeypadPart} {r : ReaderPart} (hk : keypadLampsGood k = true) (hr : lampGood r.bezel = true) :
    p.checkIndicators (i.val + 1) (some k) (some r) =
    (want (p.position i).keypad .notBound >>= fun c => want (p.position i).reader .notBound >>= fun d =>
      p.checkTargets i [keypadTarget p c k, readerTarget p d r]) := by
  rw [Part.checkIndicators_fields (by simp) (by simpa using hk) (by simpa using hr)]
  cases (p.position i).keypad <;> cases (p.position i).reader <;> rfl

end

section
variable {s : State} (hs : Ready s) (tag : Byte) (i : PosId) {k : Option KeypadPart} {r : Option ReaderPart}
include hs

theorem exec_setIndicators {ts : List Target} (h : s.part.checkIndicators (i.val + 1) k r = .ok ts) :
    exec (.setIndicators tag (i.val + 1) k r) s =
      .next (Replied s (ts.foldl Part.indicate s.part) tag 0x19 (.accepted [some (ts.flatMap s.part.indicateEntry)])) :=
  exec_of_ok hs tag (.setIndicators (i.val + 1) k r) nofun rfl h

theorem exec_setIndicators_refused {code : RefusalCode} {field : Nat} (h : s.part.checkIndicators (i.val + 1) k r = .error (code, field)) :
    exec (.setIndicators tag (i.val + 1) k r) s = .next (Replied s s.part tag 0x19 (.refused code field)) :=
  exec_of_error hs tag (.setIndicators (i.val + 1) k r) nofun rfl h

end

/-- The entry of a target in the reply. -/
theorem Part.indicateEntry_eq (p : Part) (c : CtxId) (img : Image) (beep : Option Nat) {changed : Prop} [Decidable changed]
    (h : img ≠ (p.ctx c).image ↔ changed) : p.indicateEntry ⟨c, img, beep⟩ =
      num 1 c.val ++ flag (decide changed) ++ present ((beep.map fun n => max 1 (min 255 n)).map (num 1 ·)) ++
        present (beep.map fun _ => num 1 (if (p.ctx c).attach = .attached then 0 else 1)) := by
  rw [Part.indicateEntry, decide_eq_decide.mpr h]
  cases beep <;> rfl

theorem keypadImage_ne {chars chars' : Vector Byte 16} {lamps lamps' : Vector Lamp 4} :
    Image.keypad chars' lamps' ≠ .keypad chars lamps ↔ chars' ≠ chars ∨ lamps' ≠ lamps := by
  rw [ne_eq, Image.keypad.injEq, Classical.not_and_iff_not_or_not]

theorem readerImage_ne {bezel bezel' : Lamp} : Image.reader bezel' ≠ .reader bezel ↔ bezel' ≠ bezel := by
  rw [ne_eq, Image.reader.injEq]

/-- The context of a target written, with its image known to change or not. -/
theorem Part.ctx_indicate_eq (p : Part) (c : CtxId) (img : Image) (beep : Option Nat) {changed : Prop} [Decidable changed]
    (h : img ≠ (p.ctx c).image ↔ changed) : (p.indicate ⟨c, img, beep⟩).ctx c = { p.ctx c with
      image := img, cursor := if changed then 0 else (p.ctx c).cursor
      controls := if (p.ctx c).attach = .attached
        then (p.ctx c).controls ++ ((beep.map fun n => max 1 (min 255 n)).map Control.beep).toList else (p.ctx c).controls } := by
  rw [Part.ctx_indicate_self, Context.written_eq, ite_of_iff h]

/-- Settles O31. -/
theorem keypadIndicators : Obligations.KeypadIndicators := by
  refine ⟨fun s tag i c k chars lamps hs hptr himage hlamps hholder hroom => ?keypad,
    fun s tag i c r bezel hs hptr himage hlamps hholder hroom => ?reader, fun s tag i k r hs => ?refusals⟩
  case keypad =>
    intro x lamp lamps'
    have hlamp (n : Option Nat) (old : Lamp) : lamp n old = writeLamp old n :=
      match n with
      | none => rfl
      | some 0 => rfl
      | some 1 => rfl
      | some 2 => rfl
      | some (n + 3) => rfl
    have himg : writeKeypadPart k (s.part.ctx c).image = .keypad (charsAfter chars k.text) lamps' := by
      rw [himage, writeKeypadPart_keypad]
      simp only [lamps', hlamp]
    have hcheck : s.part.checkIndicators (i.val + 1) (some k) none = .ok [⟨c, .keypad (charsAfter chars k.text) lamps', k.beep⟩] := by
      rw [← himg, Part.checkIndicators_one_keypad (keypadLampsGood_iff.mpr hlamps), hptr, want_some_bind, Part.checkTargets_ok]
      · simpa using fun h => hholder.resolve_left h
      · simpa using fun h1 h2 => Nat.lt_succ_of_le (hroom h1 h2)
    have hchanged : Image.keypad (charsAfter chars k.text) lamps' ≠ (s.part.ctx c).image ↔ charsAfter chars k.text ≠ chars ∨ lamps' ≠ lamps := by
      rw [himage, keypadImage_ne]
    refine ⟨s.part.indicate ⟨c, .keypad (charsAfter chars k.text) lamps', k.beep⟩, charsAfter chars k.text, fun n => ?_, ?_, ?_, fun d hd => ?_, fun l => ?_, fun j => ?_, ?_, ?_⟩
    · cases k.text with
      | none => rfl
      | some t => exact get_charsAfter_some chars t n
    · rw [exec_setIndicators hs tag i hcheck, List.flatMap_singleton, Part.indicateEntry_eq _ _ _ _ hchanged]
      cases k.beep <;> rfl
    · exact Part.ctx_indicate_eq _ _ _ _ hchanged
    · exact Part.ctx_indicate_ne _ _ hd
    · exact Part.line_indicate ..
    · exact Part.position_indicate ..
    · exact Part.queue_indicate ..
    · exact Part.faults_indicate ..
  case reader =>
    intro x bezel' tens
    have himg : writeReaderPart r (s.part.ctx c).image = .reader bezel' := by
      have hlamp : writeLamp bezel r.bezel = bezel' := by
        simp only [bezel']
        cases hb : r.bezel with
        | none => rfl
        | some n =>
          have := hlamps n hb
          rcases (show n = 0 ∨ n = 1 ∨ n = 2 by omega) with rfl | rfl | rfl <;> rfl
      rw [himage, writeReaderPart, hlamp]
    have hcheck : s.part.checkIndicators (i.val + 1) none (some r) = .ok [⟨c, .reader bezel', r.beep⟩] := by
      rw [← himg, Part.checkIndicators_one_reader (lampGood_iff.mpr hlamps), hptr, want_some_bind, Part.checkTargets_ok]
      · simpa using fun h => hholder.resolve_left h
      · simpa using fun h1 h2 => Nat.lt_succ_of_le (hroom h1 h2)
    have hchanged : Image.reader bezel' ≠ (s.part.ctx c).image ↔ bezel' ≠ bezel := by
      rw [himage, readerImage_ne]
    refine ⟨s.part.indicate ⟨c, .reader bezel', r.beep⟩, ?_, ?_, fun d hd => ?_, fun l => ?_, fun j => ?_, ?_, ?_⟩
    · rw [exec_setIndicators hs tag i hcheck, List.flatMap_singleton, Part.indicateEntry_eq _ _ _ _ hchanged]
      simp only [tens]
      cases r.beep <;> rfl
    · exact Part.ctx_indicate_eq _ _ _ _ hchanged
    · exact Part.ctx_indicate_ne _ _ hd
    · exact Part.line_indicate ..
    · exact Part.position_indicate ..
    · exact Part.queue_indicate ..
    · exact Part.faults_indicate ..
  case refusals =>
    intro refused badKeypad badReader stops
    have refuse {code : RefusalCode} {field : Nat} (h : s.part.checkIndicators (i.val + 1) k r = .error (code, field)) :
        refused code field := exec_setIndicators_refused hs tag i h
    have hkeypad : (∀ z ∈ k, keypadLampsGood z = true) ↔ ¬ badKeypad := by
      simp only [keypadLampsGood_iff, badKeypad, not_exists, not_and, Nat.not_lt]
      exact ⟨fun h z n hz hn => h z hz n hn, fun h z hz n hn => h z n hz hn⟩
    have hreader : (∀ z ∈ r, lampGood z.bezel = true) ↔ ¬ badReader := by
      simp only [lampGood_iff, badReader, not_exists, not_and, Nat.not_lt]
      exact ⟨fun h z n hz hn => h z hz n hn, fun h z hz n hn => h z n hz hn⟩
    have hgivenK (h : badKeypad) : k.isSome ∨ r.isSome := by obtain ⟨z, -, rfl, -⟩ := h; exact .inl rfl
    have hgivenR (h : badReader) : k.isSome ∨ r.isSome := by obtain ⟨z, -, rfl, -⟩ := h; exact .inr rfl
    refine ⟨fun h1 h2 => refuse ?_, fun h => refuse ?_, fun h1 h2 => refuse ?_, fun h1 h2 => ⟨fun z hk hr => ?_, fun z hk hr => ?_⟩⟩
    · subst h1 h2
      exact Part.checkIndicators_none
    · exact Part.checkIndicators_keypad (hgivenK h) ((not_congr hkeypad).mpr (Classical.not_not.mpr h))
    · exact Part.checkIndicators_reader (hgivenR h2) (hkeypad.mpr h1) ((not_congr hreader).mpr (Classical.not_not.mpr h2))
    · subst hk hr
      have hcheck := Part.checkIndicators_one_keypad (p := s.part) (i := i) (hkeypad.mpr h1 z rfl)
      refine ⟨fun hnone => refuse ?_, fun c hc => ⟨fun hheld => refuse ?_, fun hfree hbeep hatt hlen => refuse ?_⟩⟩
      · rw [hcheck, hnone, want_none_bind]
      · rw [hcheck, hc, want_some_bind, Part.checkTargets_busy ⟨_, List.mem_singleton_self _, hheld⟩]
      · rw [hcheck, hc, want_some_bind, Part.checkTargets_full (by simpa only [List.mem_singleton, forall_eq] using hfree)
          ⟨_, List.mem_singleton_self _, hbeep, hatt, hlen⟩]
    · subst hk hr
      have hcheck := Part.checkIndicators_one_reader (p := s.part) (i := i) (hreader.mpr h2 z rfl)
      refine ⟨fun hnone => refuse ?_, fun c hc => ⟨fun hheld => refuse ?_, fun hfree hbeep hatt hlen => refuse ?_⟩⟩
      · rw [hcheck, hnone, want_none_bind]
      · rw [hcheck, hc, want_some_bind, Part.checkTargets_busy ⟨_, List.mem_singleton_self _, hheld⟩]
      · rw [hcheck, hc, want_some_bind, Part.checkTargets_full (by simpa only [List.mem_singleton, forall_eq] using hfree)
          ⟨_, List.mem_singleton_self _, hbeep, hatt, hlen⟩]

/-- Settles O32. -/
theorem bothIndicatorsOrNone : Obligations.BothIndicatorsOrNone := by
  intro s tag i k r hs hlamps command refused held full
  have hk : keypadLampsGood k = true := keypadLampsGood_iff.mpr fun n hn => hlamps n (by rcases hn with h | h | h | h <;> simp [h])
  have hr : lampGood r.bezel = true := lampGood_iff.mpr fun n hn => hlamps n (.inr (.inr (.inr (.inr hn))))
  have hcheck := Part.checkIndicators_both (p := s.part) (i := i) hk hr
  have refuse {code : RefusalCode} (h : s.part.checkIndicators (i.val + 1) (some k) (some r) = .error (code, 0)) : refused code :=
    exec_setIndicators_refused hs tag i h
  refine ⟨fun h => refuse ?_, fun kc rc hkc hrc => ?_⟩
  · rw [hcheck]
    cases hptr : (s.part.position i).keypad with
    | none => rw [want_none_bind]
    | some c => rw [want_some_bind, h.resolve_left (by rw [hptr]; nofun), want_none_bind]
  rw [hkc, want_some_bind, hrc, want_some_bind] at hcheck
  refine ⟨fun h => refuse ?busy, fun h1 h2 h => refuse ?full, fun h1 h2 h3 h4 hne chars lamps bezel himgK himgR => ?taken⟩
  case busy =>
    rw [hcheck, Part.checkTargets_busy]
    obtain h | h := h
    · exact ⟨_, List.mem_cons_self, h⟩
    · exact ⟨_, List.mem_cons_of_mem _ List.mem_cons_self, h⟩
  case full =>
    rw [hcheck, Part.checkTargets_full]
    · simpa only [List.mem_cons, List.not_mem_nil, or_false, forall_eq_or_imp, forall_eq] using ⟨h1, h2⟩
    · obtain h | h := h
      · exact ⟨_, List.mem_cons_self, h⟩
      · exact ⟨_, List.mem_cons_of_mem _ List.mem_cons_self, h⟩
  case taken =>
    intro lamp lamps' bezel' taken joined entry
    rw [Part.checkTargets_ok (by simpa only [List.mem_cons, List.not_mem_nil, or_false, forall_eq_or_imp, forall_eq] using ⟨h1, h2⟩)
      (by simpa only [List.mem_cons, List.not_mem_nil, or_false, forall_eq_or_imp, forall_eq] using ⟨h3, h4⟩)] at hcheck
    have hlamp (n : Option Nat) (old : Lamp) : lamp n old = writeLamp old n :=
      match n with
      | none => rfl
      | some 0 => rfl
      | some 1 => rfl
      | some 2 => rfl
      | some (n + 3) => rfl
    have hwriteK : writeKeypadPart k (s.part.ctx kc).image = .keypad (charsAfter chars k.text) lamps' := by
      rw [himgK, writeKeypadPart_keypad]
      simp only [lamps', hlamp]
    have hwriteR : writeReaderPart r (s.part.ctx rc).image = .reader bezel' := by
      rw [himgR, writeReaderPart]
      simp only [bezel', hlamp]
    rw [keypadTarget, hwriteK, readerTarget, hwriteR] at hcheck
    have hchangedK : Image.keypad (charsAfter chars k.text) lamps' ≠ (s.part.ctx kc).image ↔ charsAfter chars k.text ≠ chars ∨ lamps' ≠ lamps := by
      rw [himgK, keypadImage_ne]
    have hchangedR : Image.reader bezel' ≠ (s.part.ctx rc).image ↔ bezel' ≠ bezel := by
      rw [himgR, readerImage_ne]
    let q := s.part.indicate ⟨kc, .keypad (charsAfter chars k.text) lamps', k.beep⟩
    have hother : q.ctx rc = s.part.ctx rc := Part.ctx_indicate_ne _ _ hne.symm
    refine ⟨q.indicate ⟨rc, .reader bezel', r.beep⟩, charsAfter chars k.text, fun n => ?_, ?_, ?_, ?_, fun d hd1 hd2 => ?_, fun l => ?_,
      fun j => ?_, ?_, ?_⟩
    · cases k.text with
      | none => rfl
      | some t => exact get_charsAfter_some chars t n
    · refine (exec_setIndicators hs tag i hcheck).trans ?_
      rw [List.flatMap_cons, List.flatMap_singleton, Part.indicateEntry_eq _ _ _ _ hchangedK, Part.indicateEntry_eq _ _ _ _ hchangedR]
      rfl
    · rw [Part.ctx_indicate_ne _ _ hne]
      exact Part.ctx_indicate_eq _ _ _ _ hchangedK
    · rw [← hother] at hchangedR
      refine (Part.ctx_indicate_eq q rc (.reader bezel') r.beep hchangedR).trans ?_
      rw [hother]
    · rw [Part.ctx_indicate_ne _ _ hd2, Part.ctx_indicate_ne _ _ hd1]
    · simp [q]
    · simp [q]
    · simp [q]
    · simp [q]

end Sys2Proof.Machine
end

section
/-! PROOFS. The requests that start operations: OPEN ENTRY, ARM READER, CHIP START, CHIP EXCHANGE, RELEASE CARD (R83 to R85, R105, R106, R119, R120,
R123, R127). -/

namespace Sys2Proof.Machine

open Sys2Proof.Safety

/-! ### Claims on a context -/

theorem canReserve_iff {p : Part} {n : Nat} : p.queue.canReserve n = true ↔ Room p n :=
  (reservationTakesAPlace p (.loop .a)).2.2 n

theorem takesClaims_iff {p : Part} {c : CtxId} {l : LineId} (h : (p.ctx c).lineId = some l) :
    p.takesClaims c = true ↔ (p.line l).state = .run ∧ (p.line l).loop.state = .noTest := by
  simp only [Part.takesClaims, Part.lineOf_eq h, Bool.and_eq_true, beq_iff_eq]

theorem timeoutTaken_eq (t : Option Nat) : takeTimeout t = timeoutTaken t := rfl

/-- A queue after one reservation. -/
theorem reserved_one (p : Part) (r : Reservation) (c : CtxId) (f : Context → Context) : Reserved [r] p ((p.reserve r).modCtx c f) := ⟨rfl, rfl⟩

/-- What a reservation and a change of one context leave as they were. -/
theorem claim_leaves (p : Part) (rs : List Reservation) (c : CtxId) (f : Context → Context) :
    let q := (p.reserveAll rs).modCtx c f
    q.ctx c = f (p.ctx c) ∧ SameContextsBut c p q ∧ SameLines p q ∧ SamePositions p q ∧ Reserved rs p q :=
  ⟨by simp, fun d hd => by simp [hd], fun l => by simp, fun i => by simp, rfl, rfl⟩

/-! ### OPEN ENTRY -/

theorem readEntryKind_eq_some {n : Nat} {k : EntryKind} :
    readEntryKind n = some k ↔ (n = 0 ∧ k = .opened) ∨ (n = 1 ∧ k = .secure) := by
  unfold readEntryKind
  split <;> simp_all [eq_comm]

theorem readTerms_eq_some {ks : List Nat} {t : TermSet} : readTerms ks = some t ↔
    (ks ≠ [] ∧ ∀ k ∈ ks, k = 10 ∨ k = 14 ∨ k = 15) ∧
      t = { enter := ks.contains 10, f1 := ks.contains 14, f2 := ks.contains 15 } := by
  have hkeys : (ks.all fun k => k = keyEnter || k = keyF1 || k = keyF2) = true ↔ ∀ k ∈ ks, k = 10 ∨ k = 14 ∨ k = 15 := by
    simp only [List.all_eq_true, Bool.or_eq_true, or_assoc]
    exact forall₂_congr fun k _ => or_congr decide_eq_true_iff (or_congr decide_eq_true_iff decide_eq_true_iff)
  rw [readTerms, ← hkeys]
  by_cases h : ks ≠ [] ∧ (ks.all fun k => k = keyEnter || k = keyF1 || k = keyF2) = true
  · rw [if_pos h, Option.some.injEq, eq_comm]
    exact ⟨fun ht => ⟨h, ht⟩, fun ht => ht.2⟩
  · rw [if_neg h]
    exact ⟨nofun, fun ht => absurd ht.1 h⟩

theorem readFlagOr_eq_some {o : Option Nat} {b : Bool} : readFlagOr o = some b ↔ (∀ n, o = some n → n ≤ 1) ∧ b = decide (o = some 1) := by
  cases o with
  | none => simp [readFlagOr, eq_comm]
  | some n => simp [readFlagOr, readFlag_eq_some, beq_eq_decide_eq]

/-- The terminators of an entry: ENTER alone when the request names none (R83). -/
def termsTaken (terms : Option (List Nat)) : TermSet :=
  match terms with
  | none => { enter := true, f1 := false, f2 := false }
  | some ks => { enter := ks.contains 10, f1 := ks.contains 14, f2 := ks.contains 15 }

/-- The fields of OPEN ENTRY that R83 takes. -/
def GoodEntry (f : EntryFields) : Prop :=
  let size (n : Nat) : Prop := (f.kind = 0 ∧ n ≤ 32) ∨ (f.kind = 1 ∧ 4 ≤ n ∧ n ≤ 12)
  f.kind ≤ 1 ∧ size f.min ∧ size f.max ∧ f.min ≤ f.max ∧
    (∀ ks, f.terms = some ks → ks ≠ [] ∧ ∀ k ∈ ks, k = 10 ∨ k = 14 ∨ k = 15) ∧ ∀ n, f.echo = some n → n ≤ 1

/-- What R83 makes of good fields. -/
def entryTaken (f : EntryFields) : EntryTaken :=
  { kind := if f.kind = 0 then .opened else .secure, min := f.min, max := f.max, terms := termsTaken f.terms
    firstMs := timeoutTaken f.firstKey, interMs := timeoutTaken f.interKey, totalMs := timeoutTaken f.total, echo := f.echo = some 1 }

/-- The check of the terminators. -/
def checkTerms (terms : Option (List Nat)) : Check TermSet :=
  match terms with
  | none => .ok { enter := true, f1 := false, f2 := false }
  | some l => want (readTerms l) .badField 5

theorem checkEntryFields_eq (f : EntryFields) : checkEntryFields f = (do
    let kind ← want (readEntryKind f.kind) .badField 2
    need (kind.bounds f.min) .badField 3
    need (kind.bounds f.max) .badField 4
    need (f.min ≤ f.max) .badField 4
    let terms ← checkTerms f.terms
    let echo ← want (readFlagOr f.echo) .badField 9
    pure { kind, min := f.min, max := f.max, terms, echo
           firstMs := timeoutTaken f.firstKey, interMs := timeoutTaken f.interKey, totalMs := timeoutTaken f.total }) := by
  cases h : f.terms <;> simp only [checkEntryFields, checkTerms, h] <;> rfl

theorem checkTerms_ok {terms : Option (List Nat)} {t : TermSet} : checkTerms terms = .ok t ↔
    (∀ ks, terms = some ks → ks ≠ [] ∧ ∀ k ∈ ks, k = 10 ∨ k = 14 ∨ k = 15) ∧ t = termsTaken terms := by
  cases terms with
  | none => simp [checkTerms, termsTaken, eq_comm]
  | some ks => simp [checkTerms, want_ok, readTerms_eq_some, termsTaken]

theorem checkTerms_error {terms : Option (List Nat)} {e : RefusalCode × Nat} (h : checkTerms terms = .error e) : e = (.badField, 5) := by
  cases terms with
  | none => cases h
  | some ks => exact (want_error.mp h).2

theorem bounds_opened {n : Nat} : EntryKind.bounds .opened n = true ↔ n ≤ 32 := by simp [EntryKind.bounds]

theorem bounds_secure {n : Nat} : EntryKind.bounds .secure n = true ↔ 4 ≤ n ∧ n ≤ 12 := by simp [EntryKind.bounds]

theorem checkEntryFields_ok {f : EntryFields} {t : EntryTaken} : checkEntryFields f = .ok t ↔ GoodEntry f ∧ t = entryTaken f := by
  simp only [checkEntryFields_eq, bind_ok, want_ok, need_ok, pure_ok, checkTerms_ok, readFlagOr_eq_some, readEntryKind_eq_some]
  constructor
  · rintro ⟨kind, ⟨hk, rfl⟩ | ⟨hk, rfl⟩, -, hmin, -, hmax, -, hle, _, ⟨hterms, rfl⟩, _, ⟨hecho, rfl⟩, rfl⟩
    · rw [bounds_opened] at hmin hmax
      exact ⟨⟨by omega, .inl ⟨hk, hmin⟩, .inl ⟨hk, hmax⟩, hle, hterms, hecho⟩, by simp [entryTaken, hk]⟩
    · rw [bounds_secure] at hmin hmax
      exact ⟨⟨by omega, .inr ⟨hk, hmin⟩, .inr ⟨hk, hmax⟩, hle, hterms, hecho⟩, by simp [entryTaken, hk]⟩
  · rintro ⟨⟨-, hmin, hmax, hle, hterms, hecho⟩, rfl⟩
    obtain ⟨hk, hmin⟩ | ⟨hk, hmin⟩ := hmin
    · have hmax : f.max ≤ 32 := by omega
      exact ⟨.opened, .inl ⟨hk, rfl⟩, (), bounds_opened.mpr hmin, (), bounds_opened.mpr hmax, (), hle, _, ⟨hterms, rfl⟩, _, ⟨hecho, rfl⟩,
        by simp [entryTaken, hk]⟩
    · have hmax : 4 ≤ f.max ∧ f.max ≤ 12 := by omega
      exact ⟨.secure, .inr ⟨hk, rfl⟩, (), bounds_secure.mpr hmin, (), bounds_secure.mpr hmax, (), hle, _, ⟨hterms, rfl⟩, _, ⟨hecho, rfl⟩,
        by simp [entryTaken, hk]⟩

theorem checkEntryFields_error {f : EntryFields} {e : RefusalCode × Nat} (h : checkEntryFields f = .error e) :
    e.1 = .badField ∧ 2 ≤ e.2 := by
  simp only [checkEntryFields_eq, bind_error, want_error, need_error, pure_error] at h
  obtain ⟨-, rfl⟩ | ⟨_, -, ⟨-, rfl⟩ | ⟨_, -, ⟨-, rfl⟩ | ⟨_, -, ⟨-, rfl⟩ | ⟨_, -, h | ⟨_, -, ⟨-, rfl⟩ | ⟨_, -, ⟨⟩⟩⟩⟩⟩⟩⟩ := h
  case inr.inr.inr.inr.inl => exact checkTerms_error h ▸ ⟨rfl, by decide⟩
  all_goals exact ⟨rfl, by decide⟩

/-- The checks of a claim on an attached context (R84). -/
def Part.checkClaim (p : Part) (c : CtxId) : Check Unit := do
  need ((p.ctx c).attach = .attached) .notAttached
  need (p.takesClaims c) .wrongState
  need (p.ctx c).holder.isNone .busy
  need (p.queue.canReserve 1) .noResultRoom

section
variable {p : Part} {c : CtxId} {l : LineId}

theorem Part.checkClaim_attach (h : (p.ctx c).attach ≠ .attached) : p.checkClaim c = .error (.notAttached, 0) := by
  rw [Part.checkClaim, need_bind_of_not _ _ h]

theorem Part.checkClaim_state (hl : (p.ctx c).lineId = some l) (h1 : (p.ctx c).attach = .attached)
    (h : ¬ ((p.line l).state = .run ∧ (p.line l).loop.state = .noTest)) : p.checkClaim c = .error (.wrongState, 0) := by
  rw [Part.checkClaim, need_bind_of _ _ h1, need_bind_of_not _ _ ((not_congr (takesClaims_iff hl)).mpr h)]

theorem Part.checkClaim_busy (hl : (p.ctx c).lineId = some l) (h1 : (p.ctx c).attach = .attached)
    (h2 : (p.line l).state = .run ∧ (p.line l).loop.state = .noTest) (h : (p.ctx c).holder ≠ none) : p.checkClaim c = .error (.busy, 0) := by
  rw [Part.checkClaim, need_bind_of _ _ h1, need_bind_of _ _ ((takesClaims_iff hl).mpr h2), need_bind_of_not _ _ (by simpa using h)]

theorem Part.checkClaim_room (h : Claimable p c l) : p.checkClaim c = need (p.queue.canReserve 1) .noResultRoom := by
  obtain ⟨h1, hl, h2, h3, h4⟩ := h
  rw [Part.checkClaim, need_bind_of _ _ h1, need_bind_of _ _ ((takesClaims_iff hl).mpr ⟨h2, h3⟩), need_bind_of _ _ (by simp [h4])]

theorem Part.checkOpenEntry_eq (p : Part) (i : PosId) (f : EntryFields) : p.checkOpenEntry (i.val + 1) f =
    (checkEntryFields f >>= fun t => want (p.position i).keypad .notBound >>= fun c => p.checkClaim c >>= fun _ => pure (i, c, t)) := by
  rw [Part.checkOpenEntry, readPos_val, want_some_bind]
  cases checkEntryFields f with
  | error e => rfl
  | ok t =>
    cases (p.position i).keypad with
    | none => rfl
    | some c =>
      show (need _ _ >>= _) = (Part.checkClaim p c >>= _)
      simp only [Part.checkClaim, bind_assoc]

theorem Part.checkOpenEntry_good {i : PosId} {f : EntryFields} (hgood : GoodEntry f) (hc : (p.position i).keypad = some c) :
    p.checkOpenEntry (i.val + 1) f = (p.checkClaim c >>= fun _ => pure (i, c, entryTaken f)) := by
  rw [Part.checkOpenEntry_eq, checkEntryFields_ok.mpr ⟨hgood, rfl⟩, hc]
  rfl

end

/-- Settles O33. -/
theorem openEntryChecks : Obligations.OpenEntryChecks := by
  intro s tag i f hs size good answers refused
  have refuse {code : RefusalCode} {field : Nat} (h : s.part.checkOpenEntry (i.val + 1) f = .error (code, field)) : answers code field :=
    exec_of_error hs tag (.openEntry (i.val + 1) f) nofun rfl h
  have hcheck := s.part.checkOpenEntry_eq i f
  refine ⟨fun hbad => ?fields, fun hgood => ?order⟩
  case fields =>
    cases h : checkEntryFields f with
    | ok t => exact absurd (checkEntryFields_ok.mp h).1 hbad
    | error e =>
      obtain ⟨h1, h2⟩ := checkEntryFields_error h
      rw [h] at hcheck
      exact ⟨e.2, h2, refuse (hcheck.trans (by rw [← h1]; rfl))⟩
  case order =>
    refine ⟨fun hnone => refuse ?_, fun c l hc hl => ?_⟩
    · rw [hcheck, checkEntryFields_ok.mpr ⟨hgood, rfl⟩, hnone]; rfl
    have hclaim := Part.checkOpenEntry_good hgood hc
    refine ⟨fun h1 => refuse ?_, fun h1 h2 => refuse ?_, fun h1 h2 h3 => refuse ?_, fun h1 h2 => refuse ?_⟩
    · rw [hclaim, Part.checkClaim_attach h1]; rfl
    · rw [hclaim, Part.checkClaim_state hl h1 h2]; rfl
    · rw [hclaim, Part.checkClaim_busy hl h1 h2 h3]; rfl
    · rw [hclaim, Part.checkClaim_room h1, need_bind_of_not _ _ ((not_congr canReserve_iff).mpr h2)]

/-- A prompt written to the display of a keypad (R70). -/
theorem Context.writePrompt_eq {x : Context} {chars : Vector Byte 16} {lamps : Vector Lamp 4} (h : x.image = .keypad chars lamps)
    (prompt : Option (List Byte)) : x.writePrompt prompt =
      { x with image := .keypad (charsAfter chars prompt) lamps, cursor := if charsAfter chars prompt ≠ chars then 0 else x.cursor } := by
  cases prompt with
  | none => simp [Context.writePrompt, charsAfter, ← h]
  | some t =>
    have hnew : Image.writeText x.image t = .keypad (charsAfter chars (some t)) lamps := by rw [h]; rfl
    rw [Context.writePrompt, hnew, Context.writeImage, h]
    by_cases hc : charsAfter chars (some t) = chars
    · rw [if_pos (by rw [hc])]
      simp [hc, ← h]
    · rw [if_neg (by simpa using hc)]
      simp [hc]

theorem Line.timeoutEntry_eq (x : Line) (ms : Nat) : x.timeoutEntry ms = num 3 ms ++ num 3 ((timerFrames x ms).getD 0) := rfl

/-- Settles O34. -/
theorem openEntryTaken : Obligations.OpenEntryTaken := by
  intro s tag i c l kp chars lamps secure min max terms t1 t2 t3 echo prompt hs hptr hclaim hroom hkp himage hle hsize hterms hecho
    x line set e fields times
  have hgood : GoodEntry fields := by
    cases secure with
    | true =>
      obtain ⟨h4, h12⟩ : 4 ≤ min ∧ max ≤ 12 := hsize
      exact ⟨Nat.le_refl 1, .inr ⟨rfl, h4, Nat.le_trans hle h12⟩, .inr ⟨rfl, Nat.le_trans h4 hle, h12⟩, hle, hterms, hecho⟩
    | false =>
      have h32 : max ≤ 32 := hsize
      exact ⟨Nat.zero_le 1, .inl ⟨rfl, Nat.le_trans hle h32⟩, .inl ⟨rfl, h32⟩, hle, hterms, hecho⟩
  have hcheck : s.part.checkOpenEntry (i.val + 1) fields = .ok (i, c, entryTaken fields) := by
    rw [Part.checkOpenEntry_good hgood hptr, Part.checkClaim_room hclaim, need_bind_of _ _ (canReserve_iff.mpr hroom)]
    rfl
  have hset : termsTaken terms = set := by cases terms <;> rfl
  have hline : s.part.lineOf c = line := Part.lineOf_eq hclaim.2.1
  have hexec := exec_of_ok hs tag (.openEntry (i.val + 1) fields) nofun rfl hcheck
  simp only [hline] at hexec
  obtain ⟨hctx, hothers, hlines, hpos, hreserved⟩ := claim_leaves s.part [.entry c] c fun x => x.openEntry i (entryTaken fields) line prompt
  refine ⟨_, charsAfter chars prompt, fun n => ?_, hexec.trans ?_, hctx.trans ?_, hothers, hlines, hpos, hreserved⟩
  · cases prompt with
    | none => rfl
    | some t => exact get_charsAfter_some chars t n
  · simp only [termBytes, entryTaken, Line.timeoutEntry_eq, hset, fields]
    cases secure <;> rfl
  · simp only [Context.openEntry, Context.writePrompt_eq himage, hkp, Option.map_some, EntryTaken.record, entryTaken, hset, fields]
    cases secure <;> simp [e, x, EntryKind.wantedForm, Line.startTimer_eq, fields]

end Sys2Proof.Machine
end

section
/-! PROOFS. ARM READER, CHIP START, CHIP EXCHANGE and RELEASE CARD (R105, R106, R119, R120, R123, R127). -/

namespace Sys2Proof.Machine

open Sys2Proof.Safety

/-! ### ARM READER -/

/-- The tracks that a mask names: bit i for track i + 1 (log 16). -/
def maskTracks (n : Nat) : TrackSet := { t1 := n % 2 = 1, t2 := n / 2 % 2 = 1, t3 := n / 4 = 1 }

theorem readMask_of_range {n : Nat} (h1 : 1 ≤ n) (h7 : n ≤ 7) : readMask n = some (maskTracks n) := by
  rcases (show n = 1 ∨ n = 2 ∨ n = 3 ∨ n = 4 ∨ n = 5 ∨ n = 6 ∨ n = 7 by omega) with rfl | rfl | rfl | rfl | rfl | rfl | rfl <;> decide

theorem readMask_eq_none {n : Nat} (h : n = 0 ∨ 7 < n) : readMask n = none := by
  rw [readMask, if_neg (by omega)]

theorem mask_maskTracks {n : Nat} (h : n ≤ 7) : (maskTracks n).mask = n := by
  rcases (show n = 0 ∨ n = 1 ∨ n = 2 ∨ n = 3 ∨ n = 4 ∨ n = 5 ∨ n = 6 ∨ n = 7 by omega) with rfl | rfl | rfl | rfl | rfl | rfl | rfl | rfl <;> decide

theorem tracks_eq (t : TrackSet) : t.tracks = (if t.t1 then [1] else []) ++ (if t.t2 then [2] else []) ++ (if t.t3 then [3] else []) := by
  obtain ⟨t1, t2, t3⟩ := t
  cases t1 <;> cases t2 <;> cases t3 <;> rfl

theorem Part.checkArmReader_mask (p : Part) (i : PosId) {mask : Nat} (h : mask = 0 ∨ 7 < mask) :
    p.checkArmReader (i.val + 1) mask = .error (.badField, 2) := by
  rw [Part.checkArmReader, readPos_val, want_some_bind, readMask_eq_none h, want_none_bind]

section
variable {p : Part} {i : PosId} {mask : Nat} (h1 : 1 ≤ mask) (h7 : mask ≤ 7)
include h1 h7

theorem Part.checkArmReader_pointer (h : (p.position i).reader = none) : p.checkArmReader (i.val + 1) mask = .error (.notBound, 0) := by
  rw [Part.checkArmReader, readPos_val, want_some_bind, readMask_of_range h1 h7, want_some_bind, h, want_none_bind]

/-- With the mask and the pointer good the reader is left to check. -/
theorem Part.checkArmReader_reader {c : CtxId} (hc : (p.position i).reader = some c) : p.checkArmReader (i.val + 1) mask =
    (need ((p.ctx c).attach = .attached) .notAttached >>= fun _ => need (p.takesClaims c) .wrongState >>= fun _ =>
      need ((p.ctx c).holder.isNone ∧ (p.ctx c).session = .off) .busy >>= fun _ =>
      need (p.queue.canReserve 1) .noResultRoom >>= fun _ => pure (i, c, maskTracks mask)) := by
  rw [Part.checkArmReader, readPos_val, want_some_bind, readMask_of_range h1 h7, want_some_bind, hc, want_some_bind]

end

theorem captureRecord_eq (i : PosId) (m : TrackSet) (rules : Rules) (timer : Option Nat) : captureRecord i m rules timer =
    { state := .armed, owner := i, mask := m, armTimer := timer, limitTimer := none
      tracks := (if m.t1 then [TrackRec.start rules 1] else []) ++ (if m.t2 then [TrackRec.start rules 2] else []) ++
        (if m.t3 then [TrackRec.start rules 3] else []) } := by
  rw [captureRecord, tracks_eq]
  obtain ⟨t1, t2, t3⟩ := m
  cases t1 <;> cases t2 <;> cases t3 <;> rfl

/-- Settles O38. -/
theorem armReader : Obligations.ArmReader := by
  intro s tag i mask timeout hs refused
  have refuse {code : RefusalCode} {field : Nat} (h : s.part.checkArmReader (i.val + 1) mask = .error (code, field)) : refused code field :=
    exec_of_error hs tag (.armReader (i.val + 1) mask timeout) nofun rfl h
  refine ⟨fun h => refuse (s.part.checkArmReader_mask i h), fun h1 h7 => ⟨fun h => refuse (Part.checkArmReader_pointer h1 h7 h), ?_⟩⟩
  intro c l r rules hc hl hr hrules x line runs set track timer u
  have hcheck := Part.checkArmReader_reader h1 h7 hc
  refine ⟨fun ha => refuse ?_, fun ha hn => refuse ?_, fun ha hn hb => refuse ?_, fun hclaim hoff hroom => refuse ?_,
    fun hclaim hoff hroom => ?_⟩
  · rw [hcheck, need_bind_of_not _ _ ha]
  · rw [hcheck, need_bind_of _ _ ha, need_bind_of_not _ _ ((not_congr (takesClaims_iff hl)).mpr hn)]
  · rw [hcheck, need_bind_of _ _ ha, need_bind_of _ _ ((takesClaims_iff hl).mpr hn), need_bind_of_not]
    rintro ⟨h3, h4⟩
    exact hb.elim (fun h => h (Option.isNone_iff_eq_none.mp h3)) fun h => h h4
  all_goals
    obtain ⟨ha, -, hrun, htest, hholder⟩ := hclaim
    rw [need_bind_of _ _ ha, need_bind_of _ _ ((takesClaims_iff hl).mpr ⟨hrun, htest⟩), need_bind_of _ _ ⟨by simp [hholder], hoff⟩] at hcheck
  · rw [hcheck, need_bind_of_not _ _ ((not_congr canReserve_iff).mpr hroom)]
  · rw [need_bind_of _ _ (canReserve_iff.mpr hroom)] at hcheck
    have hexec := exec_of_ok hs tag (.armReader (i.val + 1) mask timeout) nofun rfl hcheck
    have hline : s.part.lineOf c = line := Part.lineOf_eq hl
    have hxrules : x.rules = rules := by rw [Context.rules, hrules]; rfl
    simp only [hline, mask_maskTracks h7] at hexec
    obtain ⟨hctx, hothers, hlines, hpos, hreserved⟩ := claim_leaves s.part [.capture c] c fun y =>
      y.arm i (maskTracks mask) (line.startTimer (takeTimeout timeout))
    refine ⟨_, hexec, hctx.trans ?_, hothers, hlines, hpos, hreserved⟩
    simp only [Context.arm, hr, Option.map_some, show (s.part.ctx c).rules = rules from hxrules, captureRecord_eq]
    rfl

/-! ### CHIP START -/

theorem cardReady_iff {x : Context} {r : Reader} {h : Chip} (hr : x.reader = some r) (hc : x.chip = some h) :
    x.cardReady = true ↔ (r.card = .inserted ∨ r.card = .latched) ∧ h.reportedPower = .off := by
  simp [Context.cardReady, hr, hc]

section
variable {p : Part} {i : PosId}

theorem Part.checkChipStart_pointer (h : (p.position i).reader = none) : p.checkChipStart (i.val + 1) = .error (.notBound, 0) := by
  rw [Part.checkChipStart, readPos_val, want_some_bind, h, want_none_bind]

theorem Part.checkChipStart_reader {c : CtxId} (hc : (p.position i).reader = some c) : p.checkChipStart (i.val + 1) =
    (need ((p.ctx c).kind = some .readerHybrid) .badField 1 >>= fun _ => need ((p.ctx c).attach = .attached) .notAttached >>= fun _ =>
      need (p.takesClaims c) .wrongState >>= fun _ => need (p.ctx c).holder.isNone .busy >>= fun _ =>
      need (p.ctx c).cardReady .wrongState >>= fun _ => need (p.queue.canReserve 2) .noResultRoom >>= fun _ => pure (i, c)) := by
  rw [Part.checkChipStart, readPos_val, want_some_bind, hc, want_some_bind]

end

/-- Settles O39. -/
theorem chipStart : Obligations.ChipStart := by
  have refuse {s : State} (hs : Ready s) (tag : Byte) {i : PosId} {code : RefusalCode} {field : Nat}
      (h : s.part.checkChipStart (i.val + 1) = .error (code, field)) :
      exec (.chipStart tag (i.val + 1)) s = .next (Replied s s.part tag 0x20 (.refused code field)) :=
    exec_of_error hs tag (.chipStart (i.val + 1)) nofun rfl h
  refine ⟨fun s tag i hs => ?order, fun s tag i c l r h hs hc hclaim hkind hr hchip => ?claimed⟩
  case order =>
    refine ⟨fun h => refuse hs tag (Part.checkChipStart_pointer h), fun c l hc hl => ?_⟩
    have hcheck := Part.checkChipStart_reader hc
    refine ⟨fun hk => refuse hs tag ?_, fun hk => ⟨fun ha => refuse hs tag ?_, fun ha hn => refuse hs tag ?_, fun ha hn hh => refuse hs tag ?_⟩⟩
    · rw [hcheck, need_bind_of_not _ _ hk]
    · rw [hcheck, need_bind_of _ _ hk, need_bind_of_not _ _ ha]
    · rw [hcheck, need_bind_of _ _ hk, need_bind_of _ _ ha, need_bind_of_not _ _ ((not_congr (takesClaims_iff hl)).mpr hn)]
    · rw [hcheck, need_bind_of _ _ hk, need_bind_of _ _ ha, need_bind_of _ _ ((takesClaims_iff hl).mpr hn),
        need_bind_of_not _ _ (by simpa using hh)]
  case claimed =>
    intro wait cardIn
    obtain ⟨ha, hl, hrun, htest, hholder⟩ := hclaim
    have hcheck := Part.checkChipStart_reader hc
    rw [need_bind_of _ _ hkind, need_bind_of _ _ ha, need_bind_of _ _ ((takesClaims_iff hl).mpr ⟨hrun, htest⟩),
      need_bind_of _ _ (by simp [hholder])] at hcheck
    refine ⟨fun hcard => refuse hs tag ?_, fun hcard hroom => refuse hs tag ?_, fun hcard hroom => ?_⟩
    · rw [hcheck, need_bind_of_not _ _ ((not_congr (cardReady_iff hr hchip)).mpr hcard)]
    · rw [hcheck, need_bind_of _ _ ((cardReady_iff hr hchip).mpr hcard), need_bind_of_not _ _ ((not_congr canReserve_iff).mpr hroom)]
    · rw [need_bind_of _ _ ((cardReady_iff hr hchip).mpr hcard), need_bind_of _ _ (canReserve_iff.mpr hroom)] at hcheck
      have hexec := exec_of_ok hs tag (.chipStart (i.val + 1)) nofun rfl hcheck
      simp only [Part.lineOf_eq hl] at hexec
      obtain ⟨hctx, hothers, hlines, hpos, hreserved⟩ := claim_leaves s.part [.chipStart c, .chipEnd c] c fun y =>
        y.startChip i ((s.part.line l).startTimer Config.atrWaitMs)
      refine ⟨_, hexec, hctx.trans ?_, hothers, hlines, hpos, hreserved⟩
      simp only [Context.startChip, hchip, Option.map_some]
      rfl

/-! ### CHIP EXCHANGE -/

section
variable {p : Part} {i : PosId} {bytes : List Byte}

theorem Part.checkChipExchange_length (h : bytes.length < 4 ∨ 261 < bytes.length) :
    p.checkChipExchange (i.val + 1) bytes = .error (.badLength, 2) := by
  rw [Part.checkChipExchange, readPos_val, want_some_bind, need_bind_of_not _ _ (by omega)]

theorem Part.checkChipExchange_pointer (hlen : 4 ≤ bytes.length ∧ bytes.length ≤ 261) (h : (p.position i).reader = none) :
    p.checkChipExchange (i.val + 1) bytes = .error (.notBound, 0) := by
  rw [Part.checkChipExchange, readPos_val, want_some_bind, need_bind_of _ _ hlen, h, want_none_bind]

theorem Part.checkChipExchange_reader (hlen : 4 ≤ bytes.length ∧ bytes.length ≤ 261) {c : CtxId} (hc : (p.position i).reader = some c) :
    p.checkChipExchange (i.val + 1) bytes =
      (need ((p.ctx c).session = .ready) .wrongState >>= fun _ => need ((p.ctx c).holder = some i) .busy >>= fun _ =>
        need (p.queue.canReserve 1) .noResultRoom >>= fun _ => pure (i, c)) := by
  rw [Part.checkChipExchange, readPos_val, want_some_bind, need_bind_of _ _ hlen, hc, want_some_bind]

end

theorem Context.session_none {x : Context} (h : x.chip = none) : x.session = .off := by simp [Context.session, h]

/-- Settles O40. -/
theorem chipExchange : Obligations.ChipExchange := by
  intro s tag i bytes hs n refused
  have refuse {code : RefusalCode} {field : Nat} (h : s.part.checkChipExchange (i.val + 1) bytes = .error (code, field)) : refused code field :=
    exec_of_error hs tag (.chipExchange (i.val + 1) bytes) nofun rfl h
  refine ⟨fun h => refuse (Part.checkChipExchange_length h), fun h4 h261 => ?_⟩
  refine ⟨fun h => refuse (Part.checkChipExchange_pointer ⟨h4, h261⟩ h), fun c hc hnone => refuse ?_, fun c h hc hchip => ?_⟩
  · rw [Part.checkChipExchange_reader ⟨h4, h261⟩ hc, need_bind_of_not _ _ (by rw [Context.session_none hnone]; nofun)]
  have hcheck := Part.checkChipExchange_reader (p := s.part) ⟨h4, h261⟩ hc
  rw [Context.session_eq hchip] at hcheck
  refine ⟨fun h1 => refuse ?_, fun h1 h2 => refuse ?_, fun h1 h2 h3 => refuse ?_, fun h1 h2 h3 => ?_⟩
  · rw [hcheck, need_bind_of_not _ _ h1]
  · rw [hcheck, need_bind_of _ _ h1, need_bind_of_not _ _ h2]
  · rw [hcheck, need_bind_of _ _ h1, need_bind_of _ _ h2, need_bind_of_not _ _ ((not_congr canReserve_iff).mpr h3)]
  · rw [need_bind_of _ _ h1, need_bind_of _ _ h2, need_bind_of _ _ (canReserve_iff.mpr h3)] at hcheck
    have hexec := exec_of_ok hs tag (.chipExchange (i.val + 1) bytes) nofun rfl hcheck
    simp only [Context.exchangeCount, hchip, satInc_eq_min] at hexec
    obtain ⟨hctx, hothers, hlines, hpos, hreserved⟩ := claim_leaves s.part [.exchange c] c fun y => y.modChip fun h => h.exchange bytes
    refine ⟨_, hexec, hctx.trans ?_, hothers, hlines, hpos, hreserved⟩
    simp only [Context.modChip, hchip, Option.map_some, Chip.exchange, satInc_eq_min]

/-! ### RELEASE CARD -/

section
variable {p : Part} {i : PosId}

theorem Part.checkReleaseCard_pointer (h : (p.position i).reader = none) : p.checkReleaseCard (i.val + 1) = .error (.notBound, 0) := by
  rw [Part.checkReleaseCard, readPos_val, want_some_bind, h, want_none_bind]

theorem Part.checkReleaseCard_reader {c : CtxId} (hc : (p.position i).reader = some c) : p.checkReleaseCard (i.val + 1) =
    (need ((p.ctx c).kind = some .readerHybrid) .badField 1 >>= fun _ => need ((p.ctx c).attach = .attached) .notAttached >>= fun _ =>
      need ((p.ctx c).session = .off) .busy >>= fun _ => pure (i, c)) := by
  rw [Part.checkReleaseCard, readPos_val, want_some_bind, hc, want_some_bind]

end

/-- Settles O42. -/
theorem releaseCard : Obligations.ReleaseCard := by
  have refuse {s : State} (hs : Ready s) (tag : Byte) {i : PosId} {code : RefusalCode} {field : Nat}
      (h : s.part.checkReleaseCard (i.val + 1) = .error (code, field)) :
      exec (.releaseCard tag (i.val + 1)) s = .next (Replied s s.part tag 0x23 (.refused code field)) :=
    exec_of_error hs tag (.releaseCard (i.val + 1)) nofun rfl h
  refine ⟨fun s tag i hs h => refuse hs tag (Part.checkReleaseCard_pointer h), fun s tag i c hs hc => ?_⟩
  have hcheck := Part.checkReleaseCard_reader hc
  refine ⟨fun hk => refuse hs tag ?_, fun hk ha => refuse hs tag ?_, fun hk ha h hchip => ⟨fun hon => refuse hs tag ?_, fun hoff => ?_⟩⟩
  · rw [hcheck, need_bind_of_not _ _ hk]
  · rw [hcheck, need_bind_of _ _ hk, need_bind_of_not _ _ ha]
  · rw [hcheck, need_bind_of _ _ hk, need_bind_of _ _ ha, need_bind_of_not _ _ (by rwa [Context.session_eq hchip])]
  · rw [need_bind_of _ _ hk, need_bind_of _ _ ha, need_bind_of _ _ (by rwa [Context.session_eq hchip])] at hcheck
    have hexec := exec_of_ok hs tag (.releaseCard (i.val + 1)) nofun rfl hcheck
    simp only [Context.latchWanted, hchip] at hexec
    refine ⟨_, hexec, ?_, fun d hd => by simp [hd], fun l => by simp, fun j => by simp, by simp, by simp⟩
    simp [Context.modChip, hchip]

end Sys2Proof.Machine
end

section
/-! PROOFS. How operations end (R98, R99, R114, R122, R128, R140): the result made of its reservation, the context without the operation; and the
requests and keys that end one (R97, R107, R126, R34, R89 to R94). -/

namespace Sys2Proof.Machine

open Sys2Proof.Safety

/-! ### Reservations and operations of one context -/

/-- The reservations held for a context's operations, and its holder, in step with the operations (R62, R63, R139, R140). -/
structure OpsOk (held : List Reservation) (c : CtxId) (x : Context) : Prop where
  entryHeld     : held.count (.entry c) = x.entry.isSome.toNat
  captureHeld   : held.count (.capture c) = x.capture.isSome.toNat
  startHeld     : held.count (.chipStart c) = (decide (x.session = .starting)).toNat
  endHeld       : held.count (.chipEnd c) = (decide (x.session ≠ .off)).toNat
  exchangeHeld  : held.count (.exchange c) = (decide (x.session = .sending ∨ x.session = .awaiting)).toNat
  holder_none   : x.holder = none ↔ x.entry = none ∧ x.capture = none ∧ x.session = .off
  entry_alone   : x.entry.isSome = true → x.capture = none ∧ x.session = .off
  capture_alone : x.capture.isSome = true → x.session = .off
  entry_owner   : ∀ e, x.entry = some e → x.holder = some e.owner
  capture_owner : ∀ u, x.capture = some u → x.holder = some u.owner
  chip_owner    : ∀ h, x.chip = some h → h.session ≠ .off → x.holder = h.owner
  attached      : x.holder ≠ none → x.attach = .attached

theorem opsOk_iff {held : List Reservation} {c : CtxId} {x : Context} : OpsOk held c x ↔
    held.count (.entry c) = x.entry.isSome.toNat ∧ held.count (.capture c) = x.capture.isSome.toNat ∧
    held.count (.chipStart c) = (decide (x.session = .starting)).toNat ∧ held.count (.chipEnd c) = (decide (x.session ≠ .off)).toNat ∧
    held.count (.exchange c) = (decide (x.session = .sending ∨ x.session = .awaiting)).toNat ∧
    (x.holder = none ↔ x.entry = none ∧ x.capture = none ∧ x.session = .off) ∧
    (x.entry.isSome = true → x.capture = none ∧ x.session = .off) ∧ (x.capture.isSome = true → x.session = .off) ∧
    (∀ e, x.entry = some e → x.holder = some e.owner) ∧ (∀ u, x.capture = some u → x.holder = some u.owner) ∧
    (∀ h, x.chip = some h → h.session ≠ .off → x.holder = h.owner) ∧ (x.holder ≠ none → x.attach = .attached) :=
  ⟨fun h => ⟨h.1, h.2, h.3, h.4, h.5, h.6, h.7, h.8, h.9, h.10, h.11, h.12⟩,
    fun ⟨h1, h2, h3, h4, h5, h6, h7, h8, h9, h10, h11, h12⟩ => ⟨h1, h2, h3, h4, h5, h6, h7, h8, h9, h10, h11, h12⟩⟩

theorem opsOk_of_sound {s : State} (h : OperationsSound s) (c : CtxId) : OpsOk s.part.queue.reservations c (s.part.ctx c) :=
  opsOk_iff.mpr (h.1 c)

/-! ### A result from its reservation -/

theorem Part.convert_eq_converted {p : Part} {r : Reservation} (h : r ∈ p.queue.reservations) (body : Body) (pos : Option PosId)
    (ctx : Option CtxId) (line : Option LineId) :
    p.convert r (.of body pos ctx line) = p.setQueue (converted p.queue r pos ctx line body) := by
  rw [Part.convert, if_pos h]
  rfl

theorem mem_of_count {held : List Reservation} {r : Reservation} (h : held.count r = 1) : r ∈ held :=
  List.count_pos_iff.mp (by omega)

section
variable {held : List Reservation} {c : CtxId} {x : Context}

theorem OpsOk.entry_mem (h : OpsOk held c x) {e : Entry} (he : x.entry = some e) : .entry c ∈ held :=
  mem_of_count (by rw [h.entryHeld, he]; rfl)

theorem OpsOk.capture_mem (h : OpsOk held c x) {u : Capture} (hu : x.capture = some u) : .capture c ∈ held :=
  mem_of_count (by rw [h.captureHeld, hu]; rfl)

theorem OpsOk.start_mem (h : OpsOk held c x) (hs : x.session = .starting) : .chipStart c ∈ held :=
  mem_of_count (by rw [h.startHeld, hs]; rfl)

theorem OpsOk.end_mem (h : OpsOk held c x) (hs : x.session ≠ .off) : .chipEnd c ∈ held :=
  mem_of_count (by rw [h.endHeld, decide_eq_true hs]; rfl)

theorem OpsOk.exchange_mem (h : OpsOk held c x) (hs : x.session = .sending ∨ x.session = .awaiting) : .exchange c ∈ held :=
  mem_of_count (by rw [h.exchangeHeld, decide_eq_true hs]; rfl)

end

/-! ### The end of an entry -/

theorem Entry.digitCount_eq (e : Entry) : e.digitCount = if e.kind = .opened then e.digits.length else e.count := by
  unfold Entry.digitCount
  cases e.kind <;> rfl

theorem abandonBlock_eq (q : List Control) : abandonBlock q =
    if .finishBlock ∈ q then removeLast (· == .finishBlock) q else joinControl .abandonBlock q := by
  rw [abandonBlock]
  by_cases h : Control.finishBlock ∈ q <;> simp [h]

section
variable {p : Part} {c : CtxId} {e : Entry} (he : (p.ctx c).entry = some e) (hres : .entry c ∈ p.queue.reservations) (o : EntryEnding)
include he

theorem Part.ctx_endEntry : (p.endEntry c o).ctx c = (p.ctx c).afterEntry e o := by
  simp [Part.endEntry, he]

include hres

theorem Part.queue_endEntry : (p.endEntry c o).queue =
    converted p.queue (.entry c) (some e.owner) (some c) (p.ctx c).lineId (.entry (e.result o)) := by
  simp only [Part.endEntry, he, Part.queue_forgetArming, Part.queue_modCtx, Part.convert_eq_converted hres, Part.queue_setQueue]

end

/-- An entry's result other than of a good or faulty block (R101). -/
theorem Entry.result_eq (e : Entry) (o : EntryEnding) (h1 : o.outcome ≠ .completed ∨ e.kind = .opened) (h2 : o.outcome ≠ .blockFault) :
    e.result o =
    { kind := e.kind, outcome := o.outcome, endKey := o.endKey, detail := o.detail, digits := if e.kind = .opened then some e.digits else none
      count := if e.kind = .opened then e.digits.length else e.count, ignored := e.ignored, block := none, blockBytes := none } := by
  have hblock : ¬ (e.kind = .secure ∧ o.outcome = .completed) := fun ⟨hs, hc⟩ =>
    h1.elim (fun h => h hc) fun h => by rw [h] at hs; cases hs
  have hfault : ¬ (e.kind = .secure ∧ o.outcome = .blockFault) := fun h => h2 h.2
  simp only [Entry.result, Entry.digitCount_eq, if_neg hblock, if_neg hfault]

/-- The context after an entry has ended (R98, R99). -/
theorem Context.afterEntry_eq {x : Context} {kp : Keypad} (h : x.keypad = some kp) (e : Entry) (o : EntryEnding) : x.afterEntry e o =
    { x with
      holder := none, keypad := some { kp with wanted := .opened, entry := none }
      controls := if e.state = .closing ∧ o.abandons = true then abandonBlock x.controls else x.controls
      lateBlock := x.lateBlock || (decide (e.state = .closing) && o.leavesBlock) } := by
  simp only [Context.afterEntry, h, Option.map_some]

/-! ### The end of a capture -/

section
variable {p : Part} {c : CtxId} {u : Capture} (hu : (p.ctx c).capture = some u) (hres : .capture c ∈ p.queue.reservations) (o : CaptureOutcome)
include hu

theorem Part.ctx_endCapture {r : Reader} (hr : (p.ctx c).reader = some r) : (p.endCapture c o).ctx c =
    { p.ctx c with
      holder := none, reader := some { r with capture := none, seen := { t1 := false, t2 := false, t3 := false }, discarded := 0 } } := by
  simp only [Part.endCapture, hu, Part.ctx_modCtx_self, Part.ctx_convert, hr, Option.map_some]
  rfl

theorem Part.line_endCapture (l : LineId) : (p.endCapture c o).line l = p.line l := by
  simp [Part.endCapture, hu]

include hres

theorem Part.queue_endCapture : (p.endCapture c o).queue =
    converted p.queue (.capture c) (some u.owner) (some c) (p.ctx c).lineId (.capture (captureShown u o)) := by
  simp only [Part.endCapture, hu, Part.queue_modCtx, Part.convert_eq_converted hres, Part.queue_setQueue, Capture.result_eq]

end

/-! ### The end of a session -/

section
variable {p : Part} {c : CtxId} {h : Chip} (hc : (p.ctx c).chip = some h)
include hc

theorem Part.ctx_startFails (o : StartOutcome) : (p.startFails c o).ctx c = { p.ctx c with holder := none, chip := some (h.afterFailedStart o) } := by
  simp [Part.startFails, hc]

theorem Part.queue_startFails (hres : .chipStart c ∈ p.queue.reservations) (o : StartOutcome) : (p.startFails c o).queue =
    { converted p.queue (.chipStart c) h.owner (some c) (p.ctx c).lineId (.chip (.start o none)) with
      reservations := (p.queue.reservations.erase (.chipStart c)).erase (.chipEnd c) } := by
  simp only [Part.startFails, hc, chipRecord, Part.queue_modCtx, Part.convert_eq_converted hres, Part.release, Part.queue_setQueue]
  rfl

theorem Part.ctx_endExchange (st : ExchangeStatus) : (p.endExchange c st).ctx c =
    { p.ctx c with chip := some { h with session := .ready, command := [], unitsSent := 0, response := [], overrun := false, respTimer := none } } := by
  simp [Part.endExchange, hc]

theorem Part.queue_endExchange (hres : .exchange c ∈ p.queue.reservations) (st : ExchangeStatus) : (p.endExchange c st).queue =
    converted p.queue (.exchange c) h.owner (some c) (p.ctx c).lineId (.chip (.exchange h.exchanges st h.response)) := by
  simp only [Part.endExchange, hc, chipRecord, Part.queue_modCtx, Part.convert_eq_converted hres, Part.queue_setQueue]

theorem Part.ctx_endSession (r : EndReason) (inFlight : Bool) : (p.endSession c r inFlight).ctx c =
    { p.ctx c with holder := none, chip := some (h.afterSession r inFlight) } := by
  simp [Part.endSession, hc]

theorem Part.queue_endSession (hres : .chipEnd c ∈ p.queue.reservations) (r : EndReason) (inFlight : Bool) :
    (p.endSession c r inFlight).queue =
      converted p.queue (.chipEnd c) h.owner (some c) (p.ctx c).lineId (.chip (.sessionEnd r h.exchanges)) := by
  simp only [Part.endSession, hc, chipRecord, Part.queue_modCtx, Part.convert_eq_converted hres, Part.queue_setQueue]

end

/-- What a session leaves of its record when it is cut (R122, R126, R128 to R131). -/
def Chip.cut (h : Chip) (o : StartOutcome) (r : EndReason) : Chip :=
  match h.session with
  | .off => h
  | .starting => h.afterFailedStart o
  | .ready => h.afterSession r false
  | _ => h.afterSession r true

section
variable {p : Part} {c : CtxId} {h : Chip} (hc : (p.ctx c).chip = some h) (hops : OpsOk p.queue.reservations c (p.ctx c))
  (o : StartOutcome) (st : ExchangeStatus) (r : EndReason)
include hc

theorem Part.cutSession_eq : p.cutSession c o st r =
    match h.session with
    | .off => p
    | .starting => p.startFails c o
    | .ready => p.endSession c r false
    | _ => (p.endExchange c st).endSession c r true := by
  rw [Part.cutSession, Context.session_eq hc]
  cases h.session <;> rfl

theorem Part.ctx_cutSession : (p.cutSession c o st r).ctx c =
    { p.ctx c with holder := if h.session = .off then (p.ctx c).holder else none, chip := some (h.cut o r) } := by
  have hflight : ((p.endExchange c st).endSession c r true).ctx c = { p.ctx c with holder := none, chip := some (h.afterSession r true) } := by
    rw [Part.ctx_endSession (h := { h with session := .ready, command := [], unitsSent := 0, response := [], overrun := false, respTimer := none })
      (by rw [Part.ctx_endExchange hc]), Part.ctx_endExchange hc]
    rfl
  rw [Part.cutSession_eq hc]
  cases hsess : h.session with
  | off => simp only [Chip.cut, hsess, if_true, ← hc]
  | starting => simp only [Chip.cut, hsess, Part.ctx_startFails hc]; rfl
  | ready => simp only [Chip.cut, hsess, Part.ctx_endSession hc]; rfl
  | sending => simp only [Chip.cut, hsess, hflight]; rfl
  | awaiting => simp only [Chip.cut, hsess, hflight]; rfl

include hops

theorem Part.queue_cutSession : (p.cutSession c o st r).queue = endedSession c (p.ctx c).lineId h o st r p.queue := by
  have hsession := Context.session_eq hc
  have hflight (hf : (p.ctx c).session = .sending ∨ (p.ctx c).session = .awaiting) : ((p.endExchange c st).endSession c r true).queue =
      converted (converted p.queue (.exchange c) h.owner (some c) (p.ctx c).lineId (.chip (.exchange h.exchanges st h.response)))
        (.chipEnd c) h.owner (some c) (p.ctx c).lineId (.chip (.sessionEnd r h.exchanges)) := by
    have hon : (p.ctx c).session ≠ .off := by rcases hf with hf | hf <;> simp [hf]
    have hend : .chipEnd c ∈ (p.endExchange c st).queue.reservations := by
      rw [Part.queue_endExchange hc (hops.exchange_mem hf)]
      exact (List.mem_erase_of_ne (by simp)).mpr (hops.end_mem hon)
    rw [Part.queue_endSession (h := { h with session := .ready, command := [], unitsSent := 0, response := [], overrun := false, respTimer := none })
      (by rw [Part.ctx_endExchange hc]) hend, Part.queue_endExchange hc (hops.exchange_mem hf), Part.ctx_endExchange hc]
    rfl
  rw [Part.cutSession_eq hc]
  cases hsess : h.session with
  | off => simp only [endedSession, hsess]
  | starting => simp only [endedSession, hsess, Part.queue_startFails hc (hops.start_mem (hsession.trans hsess))]
  | ready => simp only [endedSession, hsess, Part.queue_endSession hc (hops.end_mem (by rw [hsession, hsess]; nofun))]
  | sending => simp only [endedSession, hsess, hflight (.inl (hsession.trans hsess))]
  | awaiting => simp only [endedSession, hsess, hflight (.inr (hsession.trans hsess))]

end

end Sys2Proof.Machine
end

section
/-! PROOFS. The requests and keys that end operations: CANCEL ENTRY, DISARM READER, CHIP STOP, the keys of an entry (R97, R107, R126, R34, R89 to R94). -/

namespace Sys2Proof.Machine

open Sys2Proof.Safety

/-! ### CANCEL ENTRY and DISARM READER -/

section
variable {p : Part} {i : PosId}

theorem Part.checkCancelEntry_pointer (h : (p.position i).keypad = none) : p.checkCancelEntry (i.val + 1) = .error (.notBound, 0) := by
  rw [Part.checkCancelEntry, readPos_val, want_some_bind, h, want_none_bind]

theorem Part.checkDisarmReader_pointer (h : (p.position i).reader = none) : p.checkDisarmReader (i.val + 1) = .error (.notBound, 0) := by
  rw [Part.checkDisarmReader, readPos_val, want_some_bind, h, want_none_bind]

variable {c : CtxId}

theorem Part.checkCancelEntry_keypad (hc : (p.position i).keypad = some c) : p.checkCancelEntry (i.val + 1) =
    (need ((p.ctx c).holder = some i) .wrongState >>= fun _ => want (p.ctx c).entry .wrongState >>= fun e => pure (i, c, e)) := by
  rw [Part.checkCancelEntry, readPos_val, want_some_bind, hc, want_some_bind]

theorem Part.checkDisarmReader_reader (hc : (p.position i).reader = some c) : p.checkDisarmReader (i.val + 1) =
    (want (p.ctx c).capture .wrongState >>= fun u => need ((p.ctx c).holder = some i) .busy >>= fun _ => pure (i, c, u)) := by
  rw [Part.checkDisarmReader, readPos_val, want_some_bind, hc, want_some_bind]

end

/-- Settles O35: the checks by pointer and holder, then the end of the entry or capture as the ending layer gives it. -/
theorem workstationCancels : Obligations.WorkstationCancels := by
  have refuseCancel {s : State} (hs : Ready s) (tag : Byte) {i : PosId} {code : RefusalCode} {field : Nat}
      (h : s.part.checkCancelEntry (i.val + 1) = .error (code, field)) :
      exec (.cancelEntry tag (i.val + 1)) s = .next (Replied s s.part tag 0x1B (.refused code field)) :=
    exec_of_error hs tag (.cancelEntry (i.val + 1)) nofun rfl h
  have refuseDisarm {s : State} (hs : Ready s) (tag : Byte) {i : PosId} {code : RefusalCode} {field : Nat}
      (h : s.part.checkDisarmReader (i.val + 1) = .error (code, field)) :
      exec (.disarmReader tag (i.val + 1)) s = .next (Replied s s.part tag 0x1D (.refused code field)) :=
    exec_of_error hs tag (.disarmReader (i.val + 1)) nofun rfl h
  refine ⟨fun s tag i hs => ⟨fun h => refuseCancel hs tag (Part.checkCancelEntry_pointer h),
    fun h => refuseDisarm hs tag (Part.checkDisarmReader_pointer h)⟩, fun s tag i c hs hsound => ?_⟩
  intro x
  have hops := opsOk_of_sound hsound c
  refine ⟨fun hc hother => refuseCancel hs tag ?_, fun kp e hc hholder hkp hentry => ?cancel, fun hc hnone => refuseDisarm hs tag ?_,
    fun r u hc hr hcapture => ⟨fun hother => refuseDisarm hs tag ?_, fun hholder => ?disarm⟩⟩
  · rw [Part.checkCancelEntry_keypad hc, need_bind_of_not _ _ hother]
  case cancel =>
    have he : x.entry = some e := (Context.entry_eq hkp).trans hentry
    have hown : i = e.owner := Option.some.inj (hholder.symm.trans (hops.entry_owner e he))
    have hcheck : s.part.checkCancelEntry (i.val + 1) = .ok (i, c, e) := by
      rw [Part.checkCancelEntry_keypad hc, need_bind_of _ _ hholder, he, want_some_bind]; rfl
    have hends : Ends c s.part (s.part.endEntry c (.plain .workstationCancelled)) := .endEntry _
    refine ⟨_, exec_of_ok hs tag (.cancelEntry (i.val + 1)) nofun rfl hcheck, ?_, ?_, hends.ctx, hends.line, hends.position, hends.faults⟩
    · refine (Part.ctx_endEntry he _).trans ?_
      rw [Context.afterEntry_eq hkp, abandonBlock_eq]
      simp [EntryEnding.plain, EntryEnding.abandons, EntryEnding.leavesBlock, x]
    · refine (Part.queue_endEntry he (hops.entry_mem he) _).trans ?_
      rw [Entry.result_eq e _ (.inl (by simp [EntryEnding.plain])) (by simp [EntryEnding.plain]), hown]
      rfl
  · rw [Part.checkDisarmReader_reader hc, hnone, want_none_bind]
  all_goals
    have hu : x.capture = some u := (Context.capture_eq hr).trans hcapture
  · rw [Part.checkDisarmReader_reader hc, hu, want_some_bind, need_bind_of_not _ _ hother]
  case disarm =>
    have hown : i = u.owner := Option.some.inj (hholder.symm.trans (hops.capture_owner u hu))
    have hcheck : s.part.checkDisarmReader (i.val + 1) = .ok (i, c, u) := by
      rw [Part.checkDisarmReader_reader hc, hu, want_some_bind, need_bind_of _ _ hholder]; rfl
    have hends : Ends c s.part (s.part.endCapture c .workstationCancelled) := .endCapture _
    refine ⟨_, exec_of_ok hs tag (.disarmReader (i.val + 1)) nofun rfl hcheck, Part.ctx_endCapture hu _ hr, ?_, hends.ctx,
      Part.line_endCapture hu _, hends.position, hends.faults⟩
    rw [hown]
    exact Part.queue_endCapture hu (hops.capture_mem hu) _

/-! ### CHIP STOP -/

section
variable {p : Part} {i : PosId}

theorem Part.checkChipStop_pointer (h : (p.position i).reader = none) : p.checkChipStop (i.val + 1) = .error (.notBound, 0) := by
  rw [Part.checkChipStop, readPos_val, want_some_bind, h, want_none_bind]

theorem Part.checkChipStop_reader {c : CtxId} (hc : (p.position i).reader = some c) : p.checkChipStop (i.val + 1) =
    (need ((p.ctx c).session ≠ .off) .wrongState >>= fun _ => need ((p.ctx c).holder = some i) .busy >>= fun _ => pure (i, c)) := by
  rw [Part.checkChipStop, readPos_val, want_some_bind, hc, want_some_bind]

end

section
variable {p : Part} {c : CtxId} (o : StartOutcome) (st : ExchangeStatus) (r : EndReason)

/-- A session that is cut touches no line. -/
theorem Part.line_cutSession (l : LineId) : (p.cutSession c o st r).line l = p.line l := by
  have hstart : (p.startFails c o).line l = p.line l := by unfold Part.startFails; split <;> simp
  have hexchange : (p.endExchange c st).line l = p.line l := by unfold Part.endExchange; split <;> simp
  have hsession (q : Part) (b : Bool) : (q.endSession c r b).line l = q.line l := by unfold Part.endSession; split <;> simp
  unfold Part.cutSession
  split <;> simp only [hstart, hsession, hexchange]

end

/-- Settles O41: the session is cut, case by case over its state. -/
theorem chipStop : Obligations.ChipStop := by
  have refuse {s : State} (hs : Ready s) (tag : Byte) {i : PosId} {code : RefusalCode} {field : Nat}
      (h : s.part.checkChipStop (i.val + 1) = .error (code, field)) :
      exec (.chipStop tag (i.val + 1)) s = .next (Replied s s.part tag 0x22 (.refused code field)) :=
    exec_of_error hs tag (.chipStop (i.val + 1)) nofun rfl h
  refine ⟨fun s tag i hs => ⟨fun h => refuse hs tag (Part.checkChipStop_pointer h), fun c hc hnone => refuse hs tag ?_⟩,
    fun s tag i c h hs hsound hc hchip => ?_⟩
  · rw [Part.checkChipStop_reader hc, need_bind_of_not _ _ (by simp [Context.session_none hnone])]
  intro x q rec_
  have hops := opsOk_of_sound hsound c
  have hsession : (s.part.ctx c).session = h.session := Context.session_eq hchip
  have hcheck := Part.checkChipStop_reader hc
  rw [hsession] at hcheck
  refine ⟨fun hoff => refuse hs tag ?_, fun hon hother => refuse hs tag ?_, fun hon hholder => ?_⟩
  · rw [hcheck, need_bind_of_not _ _ (Classical.not_not.mpr hoff)]
  · rw [hcheck, need_bind_of _ _ hon, need_bind_of_not _ _ hother]
  · rw [need_bind_of _ _ hon, need_bind_of _ _ hholder] at hcheck
    have hexec := exec_of_ok hs tag (.chipStop (i.val + 1)) nofun rfl hcheck
    simp only [hsession] at hexec
    have hends : Ends c s.part (s.part.cutSession c .stopped .stopped .stopped) := .cutSession ..
    have hown : some i = h.owner := hholder.symm.trans (hops.chip_owner h hchip hon)
    refine ⟨_, hexec, (Part.ctx_cutSession hchip ..).trans ?_, (Part.queue_cutSession hchip hops ..).trans ?_, hends.ctx,
      Part.line_cutSession _ _ _, hends.position, hends.faults⟩
    · have hoff : ¬ h.session = .off := hon
      rw [if_neg hoff]
      cases hsess : h.session with
      | off => exact absurd hsess hoff
      | _ => simp [hsess, x,Chip.cut, Chip.afterFailedStart, Chip.afterSession, Chip.toOff, StartOutcome.leavesLate, StartOutcome.byCause,
          EndReason.keepsLatch, EndReason.late, EndReason.byCause]
    · simp only [endedSession, ← hown]
      cases hsess : h.session with
      | off => exact absurd hsess hon
      | starting => rfl
      | ready => rfl
      | sending => rfl
      | awaiting => rfl

/-! ### The keys that end an entry -/

theorem TermSet.has_iff (t : TermSet) (key : Fin 16) : t.has key.val = true ↔
    (key = 10 ∧ t.enter = true) ∨ (key = 14 ∧ t.f1 = true) ∨ (key = 15 ∧ t.f2 = true) := by
  simp only [TermSet.has, Bool.or_eq_true, Bool.and_eq_true, Fin.ext_iff, or_assoc]
  exact or_congr (and_congr decide_eq_true_iff Iff.rfl) (or_congr (and_congr decide_eq_true_iff Iff.rfl) (and_congr decide_eq_true_iff Iff.rfl))

/-- A terminator, or a key of no use: what the entry in COLLECTING makes of it (R90, R91, R94). -/
theorem Part.takePress_terminator (p : Part) (c : CtxId) (e : Entry) {key : Fin 16} (h : key = 10 ∨ key = 14 ∨ key = 15) :
    p.takePress c e (.key key) =
      if e.terms.has key.val ∧ e.min ≤ e.digitCount then
        match e.kind with
        | .opened => p.endEntry c { outcome := .completed, endKey := some key.val, detail := none }
        | .secure =>
          p.modCtx c fun x => { x.setEntry (some (e.close (p.lineOf c) key.val)) with
            controls := joinControl .finishBlock x.controls, lateBlock := false }
      else p.modCtx c fun x => x.setEntry (some e.ignore) := by
  rcases h with rfl | rfl | rfl <;> rfl

theorem removeLast_append {α : Type} {f : α → Bool} {before after : List α} {a : α} (ha : f a = true) (hafter : ∀ x ∈ after, f x = false) :
    removeLast f (before ++ a :: after) = before ++ after := by
  have hrev : ∀ x ∈ after.reverse, ¬ f x = true := fun x hx => by simp [hafter x (List.mem_reverse.mp hx)]
  rw [removeLast, List.reverse_append, List.reverse_cons, List.append_assoc, List.eraseP_append_right _ hrev, List.singleton_append,
    List.eraseP_cons_of_pos ha, List.reverse_append, List.reverse_reverse, List.reverse_reverse]

theorem isBeep_iff {x : Control} : x.isBeep = true ↔ ∃ m, x = .beep m := by cases x <;> simp [Control.isBeep]

/-- Settles O37: the terminators have one equation, `takePress_terminator`; the queue rules are those of `joinControl` and `removeLast`. -/
theorem keysThatEndAnEntry : Obligations.KeysThatEndAnEntry := by
  refine ⟨fun p c kp e l hkp hl hcollecting hres => ?keys, fun b queue => ⟨?room, fun hfull => ⟨?beep, ?oldest⟩, ?finish⟩⟩
  case keys =>
    intro digits body ends
    have he : (p.ctx c).entry = some e := Context.entry_eq hkp
    have hdigits : e.digitCount = digits := e.digitCount_eq
    have hends (o : EntryOutcome) (key : Nat) (h1 : o ≠ .completed ∨ e.kind = .opened) (h2 : o ≠ .blockFault) :
        ends (p.endEntry c { outcome := o, endKey := some key, detail := none }) o key := by
      have h : Ends c p (p.endEntry c { outcome := o, endKey := some key, detail := none }) := .endEntry _
      refine ⟨(Part.queue_endEntry he hres _).trans ?_, (Part.ctx_endEntry he _).trans ?_, h.ctx, h.line, h.position, h.faults⟩
      · rw [Entry.result_eq e _ h1 h2, hl]
      · rw [Context.afterEntry_eq hkp, hcollecting]
        simp
    refine ⟨hends .customerCancelled 13 (.inl nofun) nofun, fun key hkey => ?_⟩
    intro q inSet
    have hq := p.takePress_terminator c e hkey
    have hterm : (e.terms.has key.val = true ∧ e.min ≤ e.digitCount) ↔ inSet ∧ e.min ≤ digits := by rw [TermSet.has_iff, hdigits]
    refine ⟨fun hno => ?_, fun hin hmin hkind => ?_, fun hin hmin hkind => ?_⟩
    · refine hq.trans ?_
      rw [if_neg (fun h => hno.elim (fun hn => hn (hterm.mp h).1) fun hn => absurd (hterm.mp h).2 (by omega)), Part.modCtx_setEntry hkp, Entry.ignore, satInc8_eq_min]
    · rw [if_pos (hterm.mpr ⟨hin, hmin⟩), hkind] at hq
      rw [show q = _ from hq]
      exact hends .completed key.val (.inr hkind) nofun
    · rw [if_pos (hterm.mpr ⟨hin, hmin⟩), hkind] at hq
      refine hq.trans ?_
      rw [Part.modCtx, Context.setEntry_eq hkp, Part.lineOf_eq hl]
      rfl
  case room => exact fun h => if_pos h
  case beep =>
    intro before n after hqueue hafter
    have hbeep : queue.any Control.isBeep = true := by rw [hqueue]; simp [Control.isBeep]
    rw [joinControl, if_neg (show ¬ queue.length < Config.controlPlaces from Nat.not_lt.mpr hfull), if_pos hbeep, hqueue, removeLast_append rfl]
    intro x hx
    rw [Bool.eq_false_iff]
    intro h
    obtain ⟨m, rfl⟩ := isBeep_iff.mp h
    exact hafter m hx
  case oldest =>
    intro hnone oldest rest hqueue
    have hbeep : ¬ queue.any Control.isBeep = true := by
      rw [List.any_eq_true]
      rintro ⟨x, hx, h⟩
      obtain ⟨m, rfl⟩ := isBeep_iff.mp h
      exact hnone m hx
    rw [joinControl, if_neg (show ¬ queue.length < Config.controlPlaces from Nat.not_lt.mpr hfull), if_neg hbeep, hqueue]
    rfl
  case finish =>
    intro before after hqueue hafter
    rw [hqueue, removeLast_append (by decide)]
    intro x hx
    simp only [beq_eq_false_iff_ne, ne_eq]
    rintro rfl
    exact hafter hx

end Sys2Proof.Machine
end

section
/-! PROOFS. LOOP START and LOOP STOP (R154, R159). -/

namespace Sys2Proof.Machine

open Sys2Proof.Safety

theorem ok_bind {α β : Type} (a : α) (next : α → Check β) : ((.ok a : Check α) >>= next) = next a := rfl

/-! ### The fields of LOOP START -/

theorem exists_of_length_four {α : Type} {xs : List α} (h : xs.length = 4) : ∃ a b c d, xs = [a, b, c, d] := by
  match xs, h with
  | [a, b, c, d], _ => exact ⟨a, b, c, d, rfl⟩

/-- A pattern as a request gives it (R154). -/
def GoodPattern (ws : List Nat) : Prop := ws.length = 4 ∧ ∀ w ∈ ws, w ≤ 65535

theorem readPattern_of_good {ws : List Nat} (h : GoodPattern ws) : ∃ v, readPattern ws = some v := by
  obtain ⟨hlen, hw⟩ := h
  obtain ⟨a, b, c, d, rfl⟩ := exists_of_length_four hlen
  simp only [List.mem_cons, List.not_mem_nil, or_false, forall_eq_or_imp, forall_eq] at hw
  exact ⟨_, if_pos hw⟩

theorem good_of_readPattern {ws : List Nat} {v : Vector Payload 4} (h : readPattern ws = some v) : GoodPattern ws := by
  unfold readPattern at h
  split at h
  · split at h
    · next hw => exact ⟨rfl, by simpa using hw⟩
    · cases h
  · cases h

theorem readPattern_toNat (v : Vector Payload 4) : readPattern (v.toList.map BitVec.toNat) = some v := by
  obtain ⟨⟨l⟩, h⟩ := v
  obtain ⟨a, b, c, d, rfl⟩ := exists_of_length_four h
  have hle (w : Payload) : w.toNat ≤ 65535 := by omega
  simp [readPattern, hle]

/-- The check of the pattern. -/
def checkPattern : Option (List Nat) → Check (Vector Payload 4)
  | none => .ok defaultSetup.pattern
  | some w => want (readPattern w) .badField 2

theorem checkPattern_of_good {o : Option (List Nat)} (h : ∀ ws ∈ o, GoodPattern ws) : ∃ v, checkPattern o = .ok v := by
  cases o with
  | none => exact ⟨_, rfl⟩
  | some ws =>
    obtain ⟨v, hv⟩ := readPattern_of_good (h ws rfl)
    exact ⟨v, want_ok.mpr hv⟩

theorem checkPattern_of_bad {o : Option (List Nat)} (h : ¬ ∀ ws ∈ o, GoodPattern ws) : checkPattern o = .error (.badField, 2) := by
  cases o with
  | none => exact absurd nofun h
  | some ws =>
    refine want_error.mpr ⟨Option.eq_none_iff_forall_ne_some.mpr fun v hv => h fun _ hw => ?_, rfl⟩
    cases hw
    exact good_of_readPattern hv

/-- The check of a flag field. -/
theorem readFlagOr_of_good {o : Option Nat} (h : ∀ n ∈ o, n ≤ 1) : readFlagOr o = some (decide (o = some 1)) := readFlagOr_eq_some.mpr ⟨h, rfl⟩

theorem readFlagOr_of_bad {o : Option Nat} (h : ¬ ∀ n ∈ o, n ≤ 1) : readFlagOr o = none :=
  Option.eq_none_iff_forall_ne_some.mpr fun _ hb => h (readFlagOr_eq_some.mp hb).1

section
variable {p : Part} {ls : List LineId}

/-- A participant of a test on the named lines (R154). -/
def GoodParticipant (p : Part) (ls : List LineId) (n : Nat) : Prop := ∃ c : CtxId, c.val = n ∧ ∃ l ∈ ls, (p.ctx c).lineId = some l

theorem Part.readParticipants_of_good {cs : List CtxId} (h : ∀ c ∈ cs, ∃ l ∈ ls, (p.ctx c).lineId = some l) :
    p.readParticipants ls (cs.map fun c => c.val) = some (allCtx.filter cs.contains) := by
  simp only [Part.readParticipants, readAll_map readCtx_val]
  exact if_pos (by simpa [Context.onLine] using h)

theorem Part.good_of_readParticipants {ns : List Nat} {cs : List CtxId} (h : p.readParticipants ls ns = some cs) :
    ∀ n ∈ ns, GoodParticipant p ls n := by
  intro n hn
  unfold Part.readParticipants at h
  split at h
  · next as has =>
    split at h
    · next hall =>
      have hmem : readCtx n ∈ as.map some := readAll_eq_some.mp has ▸ List.mem_map_of_mem hn
      obtain ⟨c, hc, hcn⟩ := List.mem_map.mp hmem
      rw [List.all_eq_true] at hall
      have hv : c.val = n := by
        unfold readCtx at hcn
        split at hcn <;> simp_all
      exact ⟨c, hv, by simpa [Context.onLine] using hall c hc⟩
    · cases h
  · cases h

/-- The check of the participants. -/
def Part.checkParticipants (p : Part) (ls : List LineId) : Option (List Nat) → Check (Option (List CtxId))
  | none => .ok none
  | some w => (want (p.readParticipants ls w) .badField 6).map some

theorem Part.checkParticipants_of_good {who : Option (List CtxId)} (h : ∀ cs, who = some cs → ∀ c ∈ cs, ∃ l ∈ ls, (p.ctx c).lineId = some l) :
    p.checkParticipants ls (who.map fun cs => cs.map fun c => c.val) = .ok (who.map fun cs => allCtx.filter fun c => cs.contains c) := by
  cases who with
  | none => rfl
  | some cs => exact map_ok.mpr ⟨_, want_ok.mpr (Part.readParticipants_of_good (h cs rfl)), rfl⟩

theorem Part.checkParticipants_of_bad {o : Option (List Nat)} (h : ¬ ∀ ns ∈ o, ∀ n ∈ ns, GoodParticipant p ls n) :
    p.checkParticipants ls o = .error (.badField, 6) := by
  cases o with
  | none => exact absurd nofun h
  | some ns =>
    refine map_error.mpr (want_error.mpr ⟨Option.eq_none_iff_forall_ne_some.mpr fun v hv => h fun _ hw => ?_, rfl⟩)
    cases hw
    exact Part.good_of_readParticipants hv

/-- The field checks of LOOP START. -/
def Part.checkLoopFields (p : Part) (ls : List LineId) (f : LoopFields) : Check LoopSetup := do
  need (f.passLimit.getD 1 ≤ 4095) .badField 3
  let pattern ← checkPattern f.pattern
  let continuous ← want (readFlagOr f.continuous) .badField 4
  let stopOnError ← want (readFlagOr f.stopOnError) .badField 5
  let who ← p.checkParticipants ls f.participants
  pure { pattern, passLimit := f.passLimit.getD 1, continuous, stopOnError, participants := who }

end

section
variable {p : Part} {lines : Nat} (hlines : lines ≤ 2)
include hlines

/-- The checks of LOOP START: its fields, then the lines, their contexts and the room (R154). -/
theorem Part.checkLoopStart_eq (f : LoopFields) : p.checkLoopStart lines f = (do
    let setup ← p.checkLoopFields (namedLines lines) f
    need ((namedLines lines).all fun l => (p.line l).state == .run && (p.line l).loop.state == .noTest) .wrongState
    need ((namedLines lines).all fun l => (p.contextsOn l).all fun c => (p.ctx c).holder.isNone) .busy
    need (p.queue.canReserve (namedLines lines).length) .noResultRoom
    pure (namedLines lines, setup)) := by
  rw [Part.checkLoopStart, readLines_eq lines hlines, want_some_bind]
  cases hp : f.pattern <;> cases hw : f.participants <;>
    simp only [Part.checkLoopFields, checkPattern, Part.checkParticipants, hp, hw, bind_assoc, pure_bind]

theorem Part.checkLoopStart_of_fields {f : LoopFields} {e : RefusalCode × Nat} (h : p.checkLoopFields (namedLines lines) f = .error e) :
    p.checkLoopStart lines f = .error e := by
  rw [Part.checkLoopStart_eq hlines, h]
  rfl

end

/-! ### The lines of a test -/

/-- Tests accepted in turn on several lines: on each its own setup (R154). -/
theorem line_acceptTests {ls : List LineId} (hn : ls.Nodup) (p : Part) (setup : LoopSetup) (l : LineId) :
    (ls.foldl (fun q l => q.acceptTest setup l) p).line l = if l ∈ ls then { p.line l with loop := { (p.line l).loop with
      state := .accepted, setup := some (p.setupFor l setup), errorFlag := false, entryFrame := none, records := [] } } else p.line l := by
  induction ls generalizing p with
  | nil => rfl
  | cons m ls ih =>
    obtain ⟨hm, hn⟩ := List.nodup_cons.mp hn
    have hsetup : (p.acceptTest setup m).setupFor l setup = p.setupFor l setup := by simp [Part.setupFor, Part.acceptTest, Part.modLoop]
    rw [List.foldl_cons, ih hn, hsetup]
    by_cases hl : l = m
    · subst hl
      simp [hm, Part.acceptTest, Part.modLoop]
    · simp [hl, Part.acceptTest, Part.modLoop]

/-- Tests asked in turn to stop (R159). -/
theorem line_stopTests (ls : List LineId) (p : Part) (l : LineId) :
    (ls.foldl (fun q l => q.modLoop l fun t => { t with state := .stopRequested }) p).line l =
      if l ∈ ls then { p.line l with loop := { (p.line l).loop with state := .stopRequested } } else p.line l := by
  induction ls generalizing p with
  | nil => rfl
  | cons m ls ih =>
    rw [List.foldl_cons, ih]
    by_cases hl : l = m
    · subst hl
      simp [Part.modLoop]
    · simp [hl, Part.modLoop]

theorem Part.mem_contextsOn {p : Part} {l : LineId} {c : CtxId} : c ∈ p.contextsOn l ↔ (p.ctx c).lineId = some l := by
  simp [Part.contextsOn, Context.onLine, mem_allCtx]

/-- Settles O43: the fields are checked in order, then the lines, the holders and the room; an accepted test is written line by line. -/
theorem loopStartAndStop : Obligations.LoopStartAndStop := by
  intro s tag lines hs hlines
  have refuse (f : LoopFields) {code : RefusalCode} {field : Nat} (h : s.part.checkLoopStart lines f = .error (code, field)) :
      exec (.loopStart tag lines f) s = .next (Replied s s.part tag 0x28 (.refused code field)) :=
    exec_of_error hs tag (.loopStart lines f) nofun rfl h
  refine ⟨fun f => ?fields, fun pattern limit continuous stop who hlimit hwho => ?start, ⟨fun ⟨l, hl, hnot⟩ => ?notTesting, fun htest => ?stop⟩⟩
  case fields =>
    intro refused limit pattern cont stp who
    have hlim : limit ↔ f.passLimit.getD 1 ≤ 4095 := by cases h : f.passLimit <;> simp [limit, h]
    have hall : who ↔ ∀ ns ∈ f.participants, ∀ n ∈ ns, GoodParticipant s.part (namedLines lines) n := by
      simp only [who, GoodParticipant, mem_namedLines]
    have hrefuse {field : Nat} (h : s.part.checkLoopFields (namedLines lines) f = .error (.badField, field)) : refused field :=
      refuse f (Part.checkLoopStart_of_fields hlines h)
    refine ⟨fun h1 => hrefuse ?_, fun h1 h2 => hrefuse ?_, fun h1 h2 h3 => hrefuse ?_, fun h1 h2 h3 h4 => hrefuse ?_,
      fun h1 h2 h3 h4 h5 => hrefuse ?_⟩
    · rw [Part.checkLoopFields, need_bind_of_not _ _ ((not_congr hlim).mp h1)]
    all_goals rw [Part.checkLoopFields, need_bind_of _ _ (hlim.mp h1)]
    · rw [checkPattern_of_bad h2]
      rfl
    all_goals
      obtain ⟨v, hv⟩ := checkPattern_of_good h2
      rw [hv]
    · rw [readFlagOr_of_bad h3]
      rfl
    · rw [readFlagOr_of_good h3, readFlagOr_of_bad h4]
      rfl
    · rw [readFlagOr_of_good h3, readFlagOr_of_good h4, Part.checkParticipants_of_bad ((not_congr hall).mp h5)]
      rfl
  case start =>
    intro bit fields v set setup named refused fit quiet
    have hnamed : ∀ l, l ∈ named ↔ Named lines l := fun l => mem_namedLines
    have hbit (o : Option Bool) : readFlagOr (o.map bit) = some (o.getD false) := by
      rw [readFlagOr_eq_some]
      rcases o with - | - | - <;> simp [bit]
    have hfields : s.part.checkLoopFields named fields = .ok
        { pattern := v, passLimit := limit.getD 1, continuous := continuous.getD false, stopOnError := stop.getD false, participants := set } := by
      have hlim : fields.passLimit.getD 1 ≤ 4095 := by
        cases h : limit with
        | none => simp [fields, h]
        | some n => simpa [fields, h] using hlimit n h
      have hpattern : checkPattern fields.pattern = .ok v := by
        cases h : pattern with
        | none => simp [fields, h, v, checkPattern, defaultSetup]
        | some w => simp only [fields, h, v, Option.map_some, checkPattern, readPattern_toNat]; rfl
      have hparticipants : s.part.checkParticipants named fields.participants = .ok set :=
        Part.checkParticipants_of_good (fun cs hcs c hc => (hwho cs hcs c hc).imp fun l ⟨hl, hcl⟩ => ⟨(hnamed l).mpr hl, hcl⟩)
      rw [Part.checkLoopFields, need_bind_of _ _ hlim, hpattern, hparticipants]
      simp only [fields, hbit]
      rfl
    have hcheck := Part.checkLoopStart_eq (p := s.part) hlines fields
    rw [show namedLines lines = named from rfl, hfields, ok_bind] at hcheck
    have hfit : (named.all fun l => (s.part.line l).state == .run && (s.part.line l).loop.state == .noTest) = true ↔ fit := by
      simp [fit, hnamed]
    have hquiet : (named.all fun l => (s.part.contextsOn l).all fun c => (s.part.ctx c).holder.isNone) = true ↔ quiet := by
      simp [quiet, hnamed, Part.mem_contextsOn]
    refine ⟨fun h1 => refuse fields (hcheck.trans ?_), fun h1 h2 => refuse fields (hcheck.trans ?_),
      fun h1 h2 h3 => refuse fields (hcheck.trans ?_), fun h1 h2 h3 => ?_⟩
    · rw [need_bind_of_not _ _ ((not_congr hfit).mpr h1)]
    · rw [need_bind_of _ _ (hfit.mpr h1), need_bind_of_not _ _ ((not_congr hquiet).mpr h2)]
    · rw [need_bind_of _ _ (hfit.mpr h1), need_bind_of _ _ (hquiet.mpr h2), need_bind_of_not _ _ ((not_congr canReserve_iff).mpr h3)]
    · rw [need_bind_of _ _ (hfit.mpr h1), need_bind_of _ _ (hquiet.mpr h2), need_bind_of _ _ (canReserve_iff.mpr h3)] at hcheck
      refine ⟨_, exec_of_ok hs tag (.loopStart lines fields) nofun rfl hcheck, fun l => ?_, fun c => ?_, fun i => ?_, ?_, ?_⟩
      · rw [line_acceptTests (namedLines_nodup lines)]
        have hsetup (q : Part) (hq : q.ctx = s.part.ctx) (x : LoopSetup) (hx : x = { setup l with participants := set }) :
            q.setupFor l x = setup l := by
          rw [hx, Part.setupFor, hq]
          simp only [setup, Context.onLine, beq_eq_decide_eq]
        rw [hsetup _ (funext fun c => by simp) _ rfl, Part.line_reserveAll]
        exact ite_of_iff (hnamed l)
      · exact (Part.foldl_same _ (fun q => q.ctx c) _ _ fun q l => by simp [Part.acceptTest, Part.modLoop]).trans (by simp)
      · exact (Part.foldl_same _ (fun q => q.position i) _ _ fun q l => by simp [Part.acceptTest, Part.modLoop]).trans (by simp)
      · exact Part.foldl_same _ (fun q => q.queue) _ _ fun q l => by simp [Part.acceptTest, Part.modLoop]
      · exact Part.foldl_same _ (fun q => q.faults) _ _ fun q l => by simp [Part.acceptTest, Part.modLoop]
  case notTesting =>
    refine exec_of_error hs tag (.loopStop lines) nofun rfl (e := (.wrongState, 0)) ?_
    rw [Part.checkLoopStop, readLines_eq lines hlines, want_some_bind, need_bind_of_not]
    simp only [List.all_eq_true, Classical.not_forall]
    exact ⟨l, mem_namedLines.mpr hl, by simpa [Line.inLoopTest] using hnot⟩
  case stop =>
    have hcheck : s.part.checkLoopStop lines = .ok (namedLines lines) := by
      rw [Part.checkLoopStop, readLines_eq lines hlines, want_some_bind, need_bind_of]
      · rfl
      · simpa only [List.all_eq_true, mem_namedLines, Line.inLoopTest, Bool.and_eq_true, Bool.or_eq_true, beq_iff_eq] using htest
    refine ⟨_, exec_of_ok hs tag (.loopStop lines) nofun rfl hcheck, fun l => ?_, fun c => ?_, fun i => ?_, ?_, ?_⟩
    · simp only [line_stopTests, mem_namedLines]
    · exact Part.foldl_same _ (fun q => q.ctx c) _ _ fun q l => by simp [Part.modLoop]
    · exact Part.foldl_same _ (fun q => q.position i) _ _ fun q l => by simp [Part.modLoop]
    · exact Part.foldl_same _ (fun q => q.queue) _ _ fun q l => by simp [Part.modLoop]
    · exact Part.foldl_same _ (fun q => q.faults) _ _ fun q l => by simp [Part.modLoop]

end Sys2Proof.Machine
end

section
/-! PROOFS. The frame timers (R13): when an expiry is due, what it ends (R93, R108, R109, R122, R125), and what waits for it. -/

namespace Sys2Proof.Machine

open Sys2Proof.Safety

/-- A command whose meaning is an effect on the part. -/
theorem exec_of_effect {s : State} {i : Instr} {f : Part → Part} {p : Part} (harm : exec i s = effect f s) (hp : f s.part = p) :
    exec i s = .next { s with part := p } := by rw [harm, ← hp]; rfl

/-! ### When an expiry is due -/

theorem Entry.timers_iff (e : Entry) :
    (e.firstKey == some 0 || e.interKey == some 0 || e.total == some 0 || e.blockWait == some 0) = false ↔ ∀ t, e.timer t ≠ some 0 := by
  simp only [Bool.or_eq_false_iff, beq_eq_false_iff_ne, and_assoc]
  exact ⟨fun ⟨h1, h2, h3, h4⟩ t => by cases t <;> assumption, fun h => ⟨h .firstKey, h .interKey, h .total, h .blockWait⟩⟩

/-- No expiry of a context is due: none of its entry, of its capture, of its session. -/
theorem Context.expiryDue_eq_false {x : Context} : x.expiryDue = false ↔
    (∀ e, x.entry = some e → ∀ t, e.timer t ≠ some 0) ∧
    (∀ u, x.capture = some u → (u.state = .armed → u.armTimer ≠ some 0) ∧ (u.state = .capturing → u.limitTimer ≠ some 0)) ∧
    ∀ h, x.chip = some h → (h.session = .starting → h.atrWait ≠ some 0) ∧ (h.session = .awaiting → h.respTimer ≠ some 0) := by
  rw [Context.expiryDue, Bool.or_eq_false_iff, Bool.or_eq_false_iff, and_assoc]
  refine and_congr ?_ (and_congr ?_ ?_)
  · cases x.entry with
    | none => simp
    | some e => simp only [Entry.timers_iff, Option.some.injEq, forall_eq']
  · cases x.capture <;> simp
  · cases x.chip <;> simp

theorem Part.expiryDue_eq_false {p : Part} {l : LineId} : p.expiryDue l = false ↔ NoExpiryDue p l := by
  rw [Part.expiryDue, List.any_eq_false]
  refine ⟨fun h c hl => ?_, fun h c _ => ?_⟩
  · have hc := h c (mem_allCtx c)
    rw [(Context.onLine_iff _ _).mpr hl, Bool.true_and, Bool.not_eq_true] at hc
    exact Context.expiryDue_eq_false.mp hc
  · rw [Bool.not_eq_true, Bool.and_eq_false_imp, Context.onLine_iff]
    exact fun hl => Context.expiryDue_eq_false.mpr (h c hl)

section
variable {p : Part} {l : LineId} (h : p.expiryDue l = true)
include h

theorem Part.slotStart_due (i : Nat) : p.slotStart l i = p := by simp [Part.slotStart, h]

theorem Part.slotCompletion_due (i : Nat) (up : Upstream) : p.slotCompletion l i up = p := by
  unfold Part.slotCompletion
  split <;> simp [h]

theorem Part.frameMark_due (first : List Expiry) (order : MarkOrder) : p.frameMark l first order = p := by simp [Part.frameMark, h]

theorem Part.stoppedFrameEnd_due : p.stoppedFrameEnd l = p := by simp [Part.stoppedFrameEnd, h]

end

/-! ### The expiries -/

section
variable {p : Part} {c : CtxId}

theorem Part.entryExpiry_eq {e : Entry} (he : (p.ctx c).entry = some e) (t : EntryTimer) : p.entryExpiry c t =
    if e.timer t = some 0 then p.endEntry c { outcome := .timedOut, endKey := none, detail := some (.timer t) } else p := by
  simp only [Part.entryExpiry, he]

theorem Part.armExpiry_eq {u : Capture} (hu : (p.ctx c).capture = some u) : p.armExpiry c =
    if u.state = .armed ∧ u.armTimer = some 0 then p.endCapture c .armExpired else p := by simp only [Part.armExpiry, hu]

theorem Part.limitExpiry_eq {u : Capture} (hu : (p.ctx c).capture = some u) : p.limitExpiry c =
    if u.state = .capturing ∧ u.limitTimer = some 0 then p.endCapture c .incomplete else p := by simp only [Part.limitExpiry, hu]

theorem Part.atrExpiry_eq {h : Chip} (hc : (p.ctx c).chip = some h) : p.atrExpiry c =
    if h.session = .starting ∧ h.atrWait = some 0 then p.startFails c .timedOut else p := by simp only [Part.atrExpiry, hc]

/-- In AWAITING an expired response timer cuts the session (R125). -/
theorem Part.responseExpiry_eq {h : Chip} (hc : (p.ctx c).chip = some h) : p.responseExpiry c =
    if h.session = .awaiting ∧ h.respTimer = some 0 then p.cutSession c .timedOut .timedOut .exchangeTimeout else p := by
  simp only [Part.responseExpiry, hc]
  refine ite_congr rfl (fun hs => ?_) fun _ => rfl
  rw [Part.cutSession, Context.session_eq hc, hs.1]

end

/-- Settles O44: each expiry is its ending of the ending layer; an expiry due stops slots, marks and frame ends by their guards. -/
theorem expiredTimersEndTheirOperations : Obligations.ExpiredTimersEndTheirOperations := by
  intro s c hsound
  have hops := opsOk_of_sound hsound c
  intro x q ends
  have hends {i : Instr} {p : Part} {y : Context} {q' : EventQueue} (hexec : exec i s = .next { s with part := p }) (hctx : p.ctx c = y)
      (hqueue : p.queue = q') (h : Ends c s.part p) : ends i y q' :=
    ⟨p, hexec, hctx, hqueue, h.ctx, h.line, h.position, h.faults, h.link⟩
  refine ⟨fun t kp e hkp hentry => ?entry, fun r u hr hcapture => ?capture, fun h hc => ?chip, fun l hdue => ?due⟩
  case entry =>
    have he : x.entry = some e := (Context.entry_eq hkp).trans hentry
    have hexpiry := Part.entryExpiry_eq he t
    refine ⟨fun hne => exec_of_effect rfl (hexpiry.trans (if_neg hne)), fun h0 => hends (exec_of_effect rfl (hexpiry.trans (if_pos h0))) ?_ ?_ (.endEntry _)⟩
    · refine (Part.ctx_endEntry he _).trans ?_
      rw [Context.afterEntry_eq hkp, abandonBlock_eq]
      simp [EntryEnding.abandons, EntryEnding.leavesBlock, x]
    · refine (Part.queue_endEntry he (hops.entry_mem he) _).trans ?_
      rw [Entry.result_eq e _ (.inl (by simp)) (by simp)]
  case capture =>
    have hu : x.capture = some u := (Context.capture_eq hr).trans hcapture
    have harm := Part.armExpiry_eq hu
    have hlimit := Part.limitExpiry_eq hu
    intro done
    refine ⟨fun h1 h2 => hends (exec_of_effect rfl (harm.trans (if_pos ⟨h1, h2⟩))) ?_ ?_ (.endCapture _),
      fun h1 h2 => hends (exec_of_effect rfl (hlimit.trans (if_pos ⟨h1, h2⟩))) ?_ ?_ (.endCapture _),
      fun h => exec_of_effect rfl (harm.trans (if_neg fun g => h g.2)), fun h => exec_of_effect rfl (hlimit.trans (if_neg fun g => h g.2))⟩
    · exact Part.ctx_endCapture hu _ hr
    · exact Part.queue_endCapture hu (hops.capture_mem hu) _
    · exact Part.ctx_endCapture hu _ hr
    · exact Part.queue_endCapture hu (hops.capture_mem hu) _
  case chip =>
    have hsession : x.session = h.session := Context.session_eq hc
    have hatr := Part.atrExpiry_eq hc
    have hresp := Part.responseExpiry_eq hc
    intro off
    refine ⟨fun h1 h2 => hends (exec_of_effect rfl (hatr.trans (if_pos ⟨h1, h2⟩))) ?_ ?_ (.startFails _),
      fun h1 h2 => hends (exec_of_effect rfl (hresp.trans (if_pos ⟨h1, h2⟩))) ?_ ?_ (.cutSession ..),
      fun h => exec_of_effect rfl (hatr.trans (if_neg (Classical.not_and_iff_not_or_not.mpr h))), fun h => exec_of_effect rfl (hresp.trans (if_neg (Classical.not_and_iff_not_or_not.mpr h)))⟩
    · refine (Part.ctx_startFails hc _).trans ?_
      simp [off, x, Chip.afterFailedStart, Chip.toOff, StartOutcome.leavesLate, StartOutcome.byCause]
    · exact Part.queue_startFails hc (hops.start_mem (hsession.trans h1)) _
    · refine (Part.ctx_cutSession hc ..).trans ?_
      rw [h1, Chip.cut, h1]
      simp [off, x, Chip.afterSession, Chip.toOff, EndReason.keepsLatch, EndReason.late, EndReason.byCause]
    · refine (Part.queue_cutSession hc hops ..).trans ?_
      rw [endedSession, h1]
  case due =>
    have h : s.part.expiryDue l = true := by
      rw [← Part.expiryDue_eq_false, Bool.not_eq_false] at hdue
      exact hdue
    exact ⟨fun i => exec_of_effect rfl (Part.slotStart_due h i), fun i up => exec_of_effect rfl (Part.slotCompletion_due h i up),
      fun first order => exec_of_effect rfl (Part.frameMark_due h first order), exec_of_effect rfl (Part.stoppedFrameEnd_due h)⟩

end Sys2Proof.Machine
end

section
/-! PROOFS. The transmit arbiter and the end of a message (R143, R144, R165, R166), and the bytes of every message (R163, R169). -/

namespace Sys2Proof.Machine

open Sys2Proof.Safety

/-! ### Items -/

theorem itemsFrom_eq (fields : List (Option (List Byte))) (n : Nat) : itemsFrom n fields =
    itemsBytes ((fields.zipIdx n).filterMap fun x => x.1.map fun v => (.ofNat 8 x.2, v)) := by
  induction fields generalizing n with
  | nil => rfl
  | cons f fields ih =>
    cases f with
    | none => rw [itemsFrom, ih]; rfl
    | some v => simp [itemsFrom, ih, itemsBytes]

theorem itemBytes_eq (fields : List (Option (List Byte))) : itemBytes fields = itemsBytes (numbered fields) := itemsFrom_eq fields 1

/-! ### The enumerations -/

theorem flag_eq (b : Bool) : flag b = yesNo b := rfl

theorem present_eq (o : Option (List Byte)) : present o = maybe o := by cases o <;> rfl

theorem EntryKind.place_code (k : EntryKind) : num 1 k.code = place [.opened, .secure] k := by cases k <;> rfl

theorem Unmask.place_code (w : Unmask) : num 1 w.code = place [.armingLimit, .openScan] w := by cases w <;> rfl

theorem Miscompare.place_code (m : Miscompare) : num 1 m.code = place [.silent, .damaged, .value] m := by cases m <;> rfl

theorem Finish.place_code (f : Finish) : num 1 f.code = place [.done, .unscheduled, .running] f := by cases f <;> rfl

theorem FaultClass.classByte_eq (c : FaultClass) : num 1 c.index.val = classByte c := by cases c <;> rfl

theorem CardState.place_code (z : CardState) : num 1 z.code = place [.unknown, .noCard, .swiping, .inserted, .latched] z := by
  cases z <;> rfl

theorem Reported.place_code (z : Reported) : num 1 z.code = place [.on, .off, .unknown] z := by cases z <;> rfl

theorem EntryOutcome.place_code (o : EntryOutcome) : num 1 o.code =
    place ([.completed, .customerCancelled, .workstationCancelled, .timedOut, .keypadUnmasked, .blockFault] ++
      allCauses.map EntryOutcome.ended) o := by
  cases o with
  | ended c => cases c <;> rfl
  | _ => rfl

theorem CaptureOutcome.place_code (o : CaptureOutcome) : num 1 o.code =
    place ([.completed, .armExpired, .incomplete, .workstationCancelled] ++ allCauses.map CaptureOutcome.ended) o := by
  cases o with
  | ended c => cases c <;> rfl
  | _ => rfl

theorem StartOutcome.place_code (o : StartOutcome) : num 1 o.code =
    place ([.ready, .mute, .parity, .contactFault, .atrLength, .timedOut, .stopped, .cardRemoved, .powerLost] ++
      allCauses.map StartOutcome.ended) o := by
  cases o with
  | ended c => cases c <;> rfl
  | _ => rfl

theorem ExchangeStatus.place_code (st : ExchangeStatus) : num 1 st.code =
    place ([.ok, .mute, .parity, .contactFault, .overrun, .timedOut, .stopped, .cardRemoved, .powerLost] ++
      allCauses.map ExchangeStatus.ended) st := by
  cases st with
  | ended c => cases c <;> rfl
  | _ => rfl

theorem EndReason.place_code (r : EndReason) : num 1 r.code =
    place ([.stopped, .contactFault, .exchangeTimeout, .cardRemoved, .powerLost] ++ allCauses.map EndReason.ended) r := by
  cases r with
  | ended c => cases c <;> rfl
  | _ => rfl

theorem LoopOutcome.place_code (o : LoopOutcome) : num 1 o.code = place [.passed, .failed, .stopped, .empty, .aborted] o := by
  cases o <;> rfl

theorem LineState.place_code (st : LineState) : num 1 st.code = place [.idle, .run, .test] st := by cases st <;> rfl

theorem LineReason.place_code (why : LineReason) : num 1 why.code =
    place [.started, .stopped, .driverFault, .testEntered, .testEnded] why := by cases why <;> rfl

theorem Attach.place_code (st : Attach) : num 1 st.code =
    place [.free, .parked, .waiting, .attached, .mismatch, .lost, .looping] st := by cases st <;> rfl

theorem DropCause.place_code (why : DropCause) : num 1 why.code =
    place [.attached, .mismatch, .restarted, .lost, .scheduled, .unscheduled] why := by cases why <;> rfl

theorem TrackStatus.place_code (st : TrackStatus) : num 1 st.code = place [.ok, .noData, .parity, .lrcBad, .truncated] st := by
  cases st <;> rfl

theorem endedByCode_place (e : Option EndedBy) : num 1 (endedByCode e) =
    place [some .endCode, some .count, some .trackEnd, some .truncated, none] e := by
  cases e with
  | none => rfl
  | some e => cases e <;> rfl

theorem RecordKind.place_index (k : RecordKind) : num 1 k.index.val =
    place [.entryResult, .captureResult, .chipResult, .loopResult, .line, .powerUp, .drop, .position, .fault, .card, .key] k := by
  cases k <;> rfl

theorem RefusalCode.code_eq (code : RefusalCode) : code.code =
    1 + [.unknownKind, .badLength, .badField, .wrongState, .busy, .notBound, .notAttached, .noResultRoom, .controlFull].idxOf code := by
  cases code <;> rfl

theorem Detail.detailByte_eq (d : Detail) : num 1 d.code = detailByte d := by
  cases d with
  | unmask w => exact w.place_code
  | lineState st => cases st <;> rfl
  | miscompare m => exact m.place_code
  | link e => cases e <;> rfl
  | _ => rfl

/-! ### The bodies of the records -/

theorem EntryDetail.num_code (d : EntryDetail) : num 1 d.code = match d with
    | .timer t => place [.firstKey, .interKey, .total, .blockWait] t
    | .unmask w => place [.armingLimit, .openScan] w
    | .block w => place [.overlong, .length, .refused] w := by
  cases d with
  | timer t => cases t <;> rfl
  | unmask w => cases w <;> rfl
  | block w => cases w <;> rfl

theorem flatMap_num_one (l : List Nat) : l.flatMap (num 1 ·) = l.map (BitVec.ofNat 8) := by
  induction l with
  | nil => rfl
  | cons n l ih => simpa [num] using ih

theorem TrackEntry.entry_eq (t : TrackEntry) : t.entry = trackEntry t := by
  simp only [TrackEntry.entry, trackEntry, t.status.place_code, endedByCode_place, present_eq, counted]

theorem LoopRecord.entry_eq (r : LoopRecord) : r.entry = loopEntry r := by
  have herror (e : LoopError) : e.entry = place [.silent, .damaged, .value] e.kind ++ num 1 e.index ++ num 2 e.pass ++
      maybe (e.payload.map fun w => num 2 w.toNat) ++ maybe (e.upKind.map (num 1)) := by
    simp only [LoopError.entry, e.kind.place_code, present_eq]
  simp only [LoopRecord.entry, loopEntry, ctxByte, r.finish.place_code, present_eq, funext herror]

theorem mask_eq (t : TrackSet) : t.mask = (if t.t1 then 1 else 0) + (if t.t2 then 2 else 0) + (if t.t3 then 4 else 0) := by
  obtain ⟨a, b, c⟩ := t
  cases a <;> cases b <;> cases c <;> rfl

theorem tracks_bytes (t : TrackSet) : t.tracks.flatMap (num 1 ·) =
    ((if t.t1 then [1] else []) ++ (if t.t2 then [2] else []) ++ (if t.t3 then [3] else []) : List Byte) := by
  obtain ⟨a, b, c⟩ := t
  cases a <;> cases b <;> cases c <;> rfl

/-- The items of every kind of record are those of its table. -/
theorem Body.items_eq (b : Body) : b.items = bodyFields b := by
  cases b with
  | entry b =>
    simp only [Body.items, EntryBody.items, bodyFields, EntryKind.place_code, EntryOutcome.place_code, EntryDetail.num_code, flatMap_num_one] <;> rfl
  | capture b =>
    simp only [Body.items, CaptureBody.items, bodyFields, CaptureOutcome.place_code, mask_eq, funext TrackEntry.entry_eq]
  | chip b =>
    cases b with
    | start o atr => simp only [Body.items, ChipBody.items, bodyFields, StartOutcome.place_code] <;> rfl
    | exchange n st r => simp only [Body.items, ChipBody.items, bodyFields, ExchangeStatus.place_code] <;> rfl
    | sessionEnd r n => simp only [Body.items, ChipBody.items, bodyFields, EndReason.place_code] <;> rfl
  | loop b =>
    simp only [Body.items, LoopBody.items, bodyFields, LoopOutcome.place_code, LoopSetup.entry, counted, flag_eq,
      funext LoopRecord.entry_eq]
  | line st why => simp only [Body.items, bodyFields, LineState.place_code, LineReason.place_code]
  | powerUp kind revision first straps => cases kind <;> rfl
  | drop address st why restart hello =>
    simp only [Body.items, bodyFields, Attach.place_code, DropCause.place_code, flag_eq]
  | position ptr named why after =>
    have hptr (c : Option CtxId) : pointerByte c = match c with
        | none => [255]
        | some c => num 1 c.val := by cases c <;> rfl
    cases ptr <;> cases why <;> simp only [Body.items, bodyFields, hptr] <;> rfl
  | fault cls stamp detail count first =>
    simp only [Body.items, bodyFields, FaultClass.classByte_eq, Detail.detailByte_eq, flag_eq]
  | card before after why lp =>
    cases why <;> simp only [Body.items, bodyFields, CardState.place_code, Reported.place_code] <;> rfl
  | swiped now seen discarded =>
    simp only [Body.items, bodyFields, CardState.place_code, tracks_bytes] <;> rfl
  | key form k => cases form <;> cases k <;> rfl

/-! ### Messages toward the workstation -/

theorem Rec.message_eq (r : Rec) (n : BitVec 16) : r.message n = recordBody r n := by
  obtain ⟨level, pos, ctx, line, body⟩ := r
  simp only [Rec.message, recordBody, itemBytes_eq, Body.items_eq, RecordKind.place_index, Rec.presence]
  cases pos <;> cases ctx <;> cases line <;> rfl

theorem Reply.body_eq (r : Reply) : r.body = replyBody r := by
  unfold Reply.body replyBody
  cases r.answer with
  | accepted fields => simp only [itemBytes_eq]
  | refused code field => simp only [RefusalCode.code_eq]

theorem Sending.bytes_eq (w : Sending) : w.bytes = wireMessage (match w with
    | .reply r => replyBody r
    | .record r n => recordBody r n) := by
  cases w with
  | reply r => rw [Sending.bytes, frameMessage_eq, Reply.body_eq]
  | record r n => rw [Sending.bytes, frameMessage_eq, Rec.message_eq]

/-! ### The transmit arbiter -/

theorem le_highestLevel (rs : List Rec) (m : Nat) : m ≤ rs.foldl (fun m r => max m r.level) m := by
  induction rs generalizing m with
  | nil => exact Nat.le_refl m
  | cons r rs ih => exact Nat.le_trans (Nat.le_max_left ..) (ih _)

/-- A record that none exceeds has the highest level. -/
theorem highestLevel_append {before after : List Rec} {r : Rec} (hb : ∀ x ∈ before, x.level < r.level) (ha : ∀ x ∈ after, x.level ≤ r.level) :
    highestLevel (before ++ r :: after) = r.level := by
  have bounded (rs : List Rec) (m : Nat) (hm : m ≤ r.level) (h : ∀ x ∈ rs, x.level ≤ r.level) :
      rs.foldl (fun m r => max m r.level) m ≤ r.level := by
    induction rs generalizing m with
    | nil => exact hm
    | cons x rs ih =>
      obtain ⟨hx, hrs⟩ := List.forall_mem_cons.mp h
      exact ih _ (Nat.max_le.mpr ⟨hm, hx⟩) hrs
  have hbefore := bounded before 0 (Nat.zero_le _) fun x hx => Nat.le_of_lt (hb x hx)
  rw [highestLevel, List.foldl_append, List.foldl_cons, Nat.max_eq_right hbefore]
  exact Nat.le_antisymm (bounded after _ (Nat.le_refl _) ha) (le_highestLevel after _)

section
variable {q : EventQueue} {before after : List Rec} {r : Rec} (hq : q.records = before ++ r :: after)
  (hb : ∀ x ∈ before, x.level < r.level) (ha : ∀ x ∈ after, x.level ≤ r.level)
include hq hb ha

/-- The record to send is the oldest of the highest level (R143). -/
theorem EventQueue.next_eq : q.next = some r := by
  have hno : ∀ x ∈ before, ¬ (x.level == r.level) = true := fun x hx h => absurd (hb x hx) (by rw [beq_iff_eq.mp h]; exact Nat.lt_irrefl _)
  rw [EventQueue.next, hq, highestLevel_append hb ha, List.find?_append, List.find?_eq_none.mpr hno]
  simp

/-- It leaves the queue, and nothing else does (R144). -/
theorem EventQueue.drained_eq : q.drained = { q with records := before ++ after, sendNumber := q.sendNumber + 1 } := by
  have hno : ∀ x ∈ before, ¬ (x.level == r.level) = true := fun x hx h => absurd (hb x hx) (by rw [beq_iff_eq.mp h]; exact Nat.lt_irrefl _)
  rw [EventQueue.drained, hq, highestLevel_append hb ha, List.eraseP_append_right _ hno, List.eraseP_cons_of_pos (by simp)]

end

theorem mayStart_iff {k : Link} : k.mayStart = true ↔ k.phase = .running ∧ k.tx = none ∧ (k.straps.flow = true → k.cts = true) := by
  rw [Link.mayStart, Bool.and_eq_true, Bool.and_eq_true, beq_iff_eq, Option.isNone_iff_eq_none, and_assoc, Bool.or_eq_true,
    Bool.not_eq_true', ← Bool.not_eq_true, Decidable.imp_iff_not_or]

/-- Settles O11: what may start, then the choice; the bytes are those of `wireMessage` by `Sending.bytes_eq`. -/
theorem replyThenHighestRecord : Obligations.ReplyThenHighestRecord := by
  refine ⟨fun s h => ?no, fun s hphase htx hcts => ?yes⟩
  case no =>
    have hno : s.part.link.mayStart = false := by
      rw [← Bool.not_eq_true, mayStart_iff]
      rintro ⟨h1, h2, h3⟩
      rcases h with h | ⟨hflow, hcts⟩ | h
      · exact h h1
      · rw [h3 hflow] at hcts
        cases hcts
      · rw [h2] at h
        cases h
    have hsame : s.part.sendStart = s.part := by simp [Part.sendStart, hno]
    exact exec_of_effect rfl hsame
  case yes =>
    have hmay : s.part.link.mayStart = true := mayStart_iff.mpr ⟨hphase, htx, hcts⟩
    refine ⟨fun r hr => exec_of_effect rfl ?_, fun hrestart hr => exec_of_effect rfl ?_, fun hrestart hr before r after hq hb ha => exec_of_effect rfl ?_, fun hr hempty => exec_of_effect rfl ?_⟩
    · simp only [Part.sendStart, hmay, hr, Link.send, Sending.bytes_eq] <;> rfl
    · simp [Part.sendStart, hmay, hr, hrestart]
    · simp [Part.sendStart, hmay, hr, hrestart, EventQueue.next_eq hq hb ha, EventQueue.drained_eq hq hb ha, Link.send, Sending.bytes_eq,
        Part.modLink, Part.setLink, Part.setQueue]
    · have hnone : s.part.queue.next = none := by simp [EventQueue.next, hempty]
      simp [Part.sendStart, hmay, hr, hnone]

/-! ### The end of a message -/

theorem holds_iff {k : Link} {t : Tx} (h : k.tx = some t) : k.holds t = true ↔ ¬ MayFinish k := by
  simp only [Link.holds, MayFinish, h, Option.some.injEq, forall_eq']
  cases k.straps.flow <;> cases k.cts <;> simp

/-- Settles O12: by what was sent, and by the pending request. -/
theorem replySentTakesThePending : Obligations.ReplySentTakesThePending := by
  refine ⟨fun s pins t hphase hrestart ht hmay => ?_, fun s pins h => exec_of_effect rfl ?_⟩
  · have hholds : s.part.link.holds t = false := by rw [← Bool.not_eq_true, holds_iff ht, Classical.not_not]; exact hmay
    refine ⟨fun r n hw => exec_of_effect rfl ?_, fun r hw hheld => exec_of_effect rfl ?_, fun r tag q hw hheld => ?_,
      fun r kind tag code field hw hheld => exec_of_effect rfl ?_⟩
    · simp only [Part.messageSent, ht, hholds, hw] <;> rfl
    · simp [Part.messageSent, ht, hholds, hw, hrestart, Part.takeHeld, hheld, Part.modLink, Part.setLink, Link.refreshRts, Link.rtsLevel, hphase]
    · have hsent : s.part.messageSent pins =
          ({ s.part with link := { s.part.link with tx := none, inHand := false, held := none } } : Part).take (requestMessage q tag) := by
        simp [Part.messageSent, ht, hholds, hw, hrestart, Part.takeHeld, hheld, Part.modLink, Part.setLink, requestMessage]
      refine (exec_of_effect rfl hsent).trans ?_
      have hcommand (s' : State) : exec (command tag q) s' = .next { s' with part := s'.part.receive (requestMessage q tag) } :=
        exec_command tag q s'
      rw [hcommand]
      simp [Part.receive, Link.listening, hphase, hrestart]
    · simp [Part.messageSent, ht, hholds, hw, hrestart, Part.takeHeld, hheld, Part.modLink, Part.setLink, Part.take, Part.judgeMessage,
        Link.refreshRts, Link.rtsLevel, hphase]
  · cases ht : s.part.link.tx with
    | none => simp only [Part.messageSent, ht]
    | some t => simp [Part.messageSent, ht, (holds_iff ht).mpr (h.resolve_left (by simp [ht]))]

end Sys2Proof.Machine
end

section
/-! PROOFS. Operations, holders and reservations in step (R62, R63, R139, R140): the condition on a part, and the operations of the blocks that keep
it. Each ending takes its own reservation; what neither starts nor ends an operation leaves all of them. -/

namespace Sys2Proof.Machine

open Sys2Proof.Safety

/-! ### The condition -/

/-- Operations, holders and reservations in step, of a part (R62, R63, R139, R140, R154). -/
structure OpsSound (p : Part) : Prop where
  ops       : ∀ c, OpsOk p.queue.reservations c (p.ctx c)
  loopHeld  : ∀ l, p.queue.reservations.count (.loop l) = (decide ((p.line l).loop.state ≠ .noTest)).toNat
  loopRuns  : ∀ l, (p.line l).loop.state ≠ .noTest → (p.line l).state ≠ .idle
  loopQuiet : ∀ l, (p.line l).loop.state ≠ .noTest → ∀ c, (p.ctx c).lineId = some l → (p.ctx c).holder = none

theorem operationsSound_iff {s : State} : OperationsSound s ↔ OpsSound s.part := by
  refine ⟨fun ⟨hctx, hline⟩ => ⟨fun c => opsOk_iff.mpr (hctx c), fun l => (hline l).1, fun l h => ((hline l).2 h).1, fun l h => ((hline l).2 h).2⟩,
    fun h => ⟨fun c => opsOk_iff.mp (h.ops c), fun l => ⟨h.loopHeld l, fun hl => ⟨h.loopRuns l hl, h.loopQuiet l hl⟩⟩⟩⟩

/-- From part p to part q operations, holders and reservations stay in step. -/
structure Keeps (p q : Part) : Prop where
  sound : OpsSound p → OpsSound q

theorem Keeps.refl (p : Part) : Keeps p p := ⟨id⟩

theorem Keeps.trans {p q r : Part} (h : Keeps p q) (g : Keeps q r) : Keeps p r := ⟨g.sound ∘ h.sound⟩

theorem Keeps.foldl {α : Type} (l : List α) (f : Part → α → Part) (h : ∀ q a, Keeps q (f q a)) (p : Part) : Keeps p (l.foldl f p) := by
  induction l generalizing p with
  | nil => exact .refl p
  | cons a l ih => exact (h p a).trans (ih _)

theorem Keeps.forContexts (f : CtxId → Part → Part) (h : ∀ c q, Keeps q (f c q)) (p : Part) : Keeps p (p.forContexts f) :=
  Keeps.foldl allCtx _ (fun q c => h c q) p

/-! ### One context -/

/-- The context of a reservation. -/
def Reservation.owner : Reservation → Option CtxId
  | .entry c => some c
  | .capture c => some c
  | .chipStart c => some c
  | .chipEnd c => some c
  | .exchange c => some c
  | .loop _ => none

theorem OpsOk.of_held {held held' : List Reservation} {c : CtxId} {x : Context} (h : OpsOk held c x)
    (hh : ∀ r, r.owner = some c → held'.count r = held.count r) : OpsOk held' c x where
  entryHeld := (hh (.entry c) rfl).trans h.entryHeld
  captureHeld := (hh (.capture c) rfl).trans h.captureHeld
  startHeld := (hh (.chipStart c) rfl).trans h.startHeld
  endHeld := (hh (.chipEnd c) rfl).trans h.endHeld
  exchangeHeld := (hh (.exchange c) rfl).trans h.exchangeHeld
  holder_none := h.holder_none
  entry_alone := h.entry_alone
  capture_alone := h.capture_alone
  entry_owner := h.entry_owner
  capture_owner := h.capture_owner
  chip_owner := h.chip_owner
  attached := h.attached

/-- The context has no operation and no holder (R62, R63). -/
structure NoOps (x : Context) : Prop where
  holder  : x.holder = none
  entry   : x.entry = none
  capture : x.capture = none
  session : x.session = .off

section
variable {held : List Reservation} {c : CtxId} {x y : Context}

theorem OpsOk.noOps (h : OpsOk held c x) (hh : x.holder = none) : NoOps x :=
  let ⟨he, hu, hs⟩ := h.holder_none.mp hh
  ⟨hh, he, hu, hs⟩

theorem OpsOk.noOps_of_attach (h : OpsOk held c x) (ha : x.attach ≠ .attached) : NoOps x := by
  refine h.noOps ?_
  refine Classical.byContradiction fun hn => ?_
  exact ha (h.attached hn)

theorem OpsOk.noOps_of_ops (h : OpsOk held c x) (he : x.entry = none) (hu : x.capture = none) (hs : x.session = .off) : NoOps x :=
  h.noOps (h.holder_none.mpr ⟨he, hu, hs⟩)

/-- A context without operations may become any other without. -/
theorem OpsOk.of_noOps (h : OpsOk held c x) (hx : NoOps x) (hy : NoOps y) : OpsOk held c y where
  entryHeld := by rw [hy.entry, h.entryHeld, hx.entry]
  captureHeld := by rw [hy.capture, h.captureHeld, hx.capture]
  startHeld := by rw [hy.session, h.startHeld, hx.session]
  endHeld := by rw [hy.session, h.endHeld, hx.session]
  exchangeHeld := by rw [hy.session, h.exchangeHeld, hx.session]
  holder_none := iff_of_true hy.holder ⟨hy.entry, hy.capture, hy.session⟩
  entry_alone _ := ⟨hy.capture, hy.session⟩
  capture_alone _ := hy.session
  entry_owner e he := by rw [hy.entry] at he; cases he
  capture_owner u hu := by rw [hy.capture] at hu; cases hu
  chip_owner k hk hs := by
    have := hy.session
    rw [Context.session_eq hk] at this
    exact absurd this hs
  attached hn := absurd hy.holder hn

end

/-- The stage of a session, with an exchange sent or awaited as one. -/
def Session.stage : Session → Nat
  | .off => 0
  | .starting => 1
  | .ready => 2
  | .sending => 3
  | .awaiting => 3

/-- What an operation is known by of a chip session: its stage and its owner. -/
def Chip.stage (h : Chip) : Nat × Option PosId := (h.session.stage, h.owner)

/-- The same operations with the same owners and holder on the same line. -/
structure CtxOps (x y : Context) : Prop where
  lineId  : y.lineId = x.lineId
  entry   : y.entry.map (·.owner) = x.entry.map (·.owner)
  capture : y.capture.map (·.owner) = x.capture.map (·.owner)
  chip    : y.chip.map Chip.stage = x.chip.map Chip.stage
  holder  : y.holder = x.holder
  attach  : x.attach = .attached → y.attach = .attached

theorem CtxOps.refl (x : Context) : CtxOps x x := ⟨rfl, rfl, rfl, rfl, rfl, id⟩

theorem CtxOps.trans {x y z : Context} (h : CtxOps x y) (g : CtxOps y z) : CtxOps x z :=
  ⟨g.lineId.trans h.lineId, g.entry.trans h.entry, g.capture.trans h.capture, g.chip.trans h.chip, g.holder.trans h.holder, g.attach ∘ h.attach⟩

theorem Option.map_owner_eq_none {α β : Type} {f : α → β} {o o' : Option α} (h : o'.map f = o.map f) : o' = none ↔ o = none := by
  rw [← Option.map_eq_none_iff (f := f), h, Option.map_eq_none_iff]

theorem Context.stage_session (x : Context) : x.session.stage = ((x.chip.map Chip.stage).map Prod.fst).getD 0 := by
  cases h : x.chip with
  | none => rw [Context.session_none h]; rfl
  | some k => rw [Context.session_eq h]; rfl

section
variable {x y : Context} (h : CtxOps x y)
include h

theorem CtxOps.stage : y.session.stage = x.session.stage := by rw [Context.stage_session, Context.stage_session, h.chip]

theorem CtxOps.off : y.session = .off ↔ x.session = .off := by
  have := h.stage
  cases hx : x.session <;> cases hy : y.session <;> simp_all [Session.stage]

theorem CtxOps.starting : y.session = .starting ↔ x.session = .starting := by
  have := h.stage
  cases hx : x.session <;> cases hy : y.session <;> simp_all [Session.stage]

theorem CtxOps.flight : (y.session = .sending ∨ y.session = .awaiting) ↔ x.session = .sending ∨ x.session = .awaiting := by
  have := h.stage
  cases hx : x.session <;> cases hy : y.session <;> simp_all [Session.stage]

theorem CtxOps.noOps (hx : NoOps x) : NoOps y where
  holder := h.holder.trans hx.holder
  entry := (Option.map_owner_eq_none h.entry).mpr hx.entry
  capture := (Option.map_owner_eq_none h.capture).mpr hx.capture
  session := h.off.mpr hx.session

theorem OpsOk.of_ctxOps {held : List Reservation} {c : CtxId} (hx : OpsOk held c x) : OpsOk held c y := by
  have he := Option.map_owner_eq_none h.entry
  have hu := Option.map_owner_eq_none h.capture
  have some_iff {α : Type} {o o' : Option α} (h : o' = none ↔ o = none) : o'.isSome = o.isSome := by
    cases o <;> cases o' <;> simp_all
  refine ⟨?_, ?_, ?_, ?_, ?_, ?_, fun hs => ?_, fun hs => ?_, fun e hy => ?_, fun u hy => ?_, fun k hk hs => ?_, fun hn => ?_⟩
  · rw [hx.entryHeld, some_iff he]
  · rw [hx.captureHeld, some_iff hu]
  · rw [hx.startHeld, decide_eq_decide.mpr h.starting]
  · rw [hx.endHeld, decide_eq_decide.mpr (not_congr h.off)]
  · rw [hx.exchangeHeld, decide_eq_decide.mpr h.flight]
  · rw [h.holder, hx.holder_none, he, hu, h.off]
  · rw [some_iff he] at hs
    exact (hx.entry_alone hs).imp hu.mpr h.off.mpr
  · rw [some_iff hu] at hs
    exact h.off.mpr (hx.capture_alone hs)
  · obtain ⟨e', he', ho⟩ := Option.map_eq_some_iff.mp (h.entry.symm.trans (by rw [hy]; rfl))
    rw [h.holder, hx.entry_owner e' he', ho]
  · obtain ⟨u', hu', ho⟩ := Option.map_eq_some_iff.mp (h.capture.symm.trans (by rw [hy]; rfl))
    rw [h.holder, hx.capture_owner u' hu', ho]
  · obtain ⟨k', hk', ho⟩ := Option.map_eq_some_iff.mp (h.chip.symm.trans (by rw [hk]; rfl))
    have hs' : k'.session ≠ .off := by
      rw [← Context.session_eq hk']
      rw [← Context.session_eq hk] at hs
      exact fun hoff => hs (h.off.mpr hoff)
    rw [h.holder, hx.chip_owner k' hk' hs', show k'.owner = k.owner from (Prod.ext_iff.mp ho).2]
  · exact h.attach (hx.attached (h.holder ▸ hn))

end

/-! ### One change of a part -/

/-- A change of one context, with the reservations of that context, keeps all others in step. -/
theorem OpsSound.change {p q : Part} (h : OpsSound p) (c : CtxId) (hctx : ∀ d, d ≠ c → q.ctx d = p.ctx d)
    (hline : ∀ l, (q.line l).loop.state = (p.line l).loop.state ∧ (q.line l).state = (p.line l).state)
    (hheld : ∀ r, r.owner ≠ some c → q.queue.reservations.count r = p.queue.reservations.count r)
    (hc : OpsOk q.queue.reservations c (q.ctx c))
    (hquiet : ∀ l, (p.line l).loop.state ≠ .noTest → (q.ctx c).lineId = some l → (q.ctx c).holder = none) : OpsSound q where
  ops d := by
    by_cases hd : d = c
    · exact hd ▸ hc
    · rw [hctx d hd]
      exact (h.ops d).of_held fun r hr => hheld r (by rw [hr]; simpa using hd)
  loopHeld l := by rw [hheld _ (by simp [Reservation.owner]), h.loopHeld, (hline l).1]
  loopRuns l hl := by
    rw [(hline l).1] at hl
    rw [(hline l).2]
    exact h.loopRuns l hl
  loopQuiet l hl d hd := by
    rw [(hline l).1] at hl
    by_cases hdc : d = c
    · exact hdc ▸ hquiet l hl (hdc ▸ hd)
    · rw [hctx d hdc] at hd ⊢
      exact h.loopQuiet l hl d hd

/-- A part with the same reservations and contexts, each line with a test as before, and none IDLE that was not, but one without a test. -/
theorem Keeps.same {p q : Part} (hheld : q.queue.reservations = p.queue.reservations) (hctx : ∀ c, q.ctx c = p.ctx c)
    (hline : ∀ l, ((q.line l).loop.state = .noTest ↔ (p.line l).loop.state = .noTest) ∧
      ((q.line l).state = .idle → (p.line l).state = .idle ∨ (p.line l).loop.state = .noTest)) : Keeps p q := .mk fun h => by
  have htest (l : LineId) (hl : (q.line l).loop.state ≠ .noTest) : (p.line l).loop.state ≠ .noTest := fun hn => hl ((hline l).1.mpr hn)
  refine ⟨fun c => ?_, fun l => ?_, fun l hl hi => ?_, fun l hl c hc => ?_⟩
  · rw [hheld, hctx]
    exact h.ops c
  · rw [hheld, h.loopHeld l, decide_eq_decide.mpr (not_congr (hline l).1)]
  · rcases (hline l).2 hi with hi | hn
    · exact h.loopRuns l (htest l hl) hi
    · exact htest l hl hn
  · rw [hctx] at hc ⊢
    exact h.loopQuiet l (htest l hl) c hc

section
variable {p : Part} {c : CtxId}

/-- A change of one context that leaves its operations, or that has none before and after. -/
theorem Keeps.setCtx {y : Context} (h : OpsSound p → CtxOps (p.ctx c) y ∨ NoOps (p.ctx c) ∧ NoOps y) : Keeps p (p.setCtx c y) := .mk fun hp => by
  refine hp.change c (fun d hd => by simp [hd]) (fun l => by simp) (fun _ _ => rfl) ?_ fun l hl hd => ?_
  · rw [Part.ctx_setCtx_self]
    rcases h hp with h | ⟨hx, hy⟩
    · exact (hp.ops c).of_ctxOps h
    · exact (hp.ops c).of_noOps hx hy
  · rw [Part.ctx_setCtx_self] at hd ⊢
    rcases h hp with h | ⟨-, hy⟩
    · rw [h.holder]
      exact hp.loopQuiet l hl c (h.lineId ▸ hd)
    · exact hy.holder

theorem Keeps.modCtx {f : Context → Context} (h : CtxOps (p.ctx c) (f (p.ctx c))) : Keeps p (p.modCtx c f) := .setCtx fun _ => .inl h

/-- A change of a context that has no operation before and after it. -/
theorem Keeps.modIdle {f : Context → Context} (h : OpsSound p → NoOps (p.ctx c)) (hf : NoOps (p.ctx c) → NoOps (f (p.ctx c))) :
    Keeps p (p.modCtx c f) := .setCtx fun hp => .inr ⟨h hp, hf (h hp)⟩

theorem Keeps.setQueue {q : EventQueue} (h : q.reservations = p.queue.reservations) : Keeps p (p.setQueue q) :=
  .same h (fun _ => rfl) fun _ => ⟨Iff.rfl, .inl⟩

theorem Keeps.setFaults (f : FaultRecord) : Keeps p (p.setFaults f) := .same rfl (fun _ => rfl) fun _ => ⟨Iff.rfl, .inl⟩

theorem Keeps.setLink (k : Link) : Keeps p (p.setLink k) := .same rfl (fun _ => rfl) fun _ => ⟨Iff.rfl, .inl⟩

theorem Keeps.setPosition (i : PosId) (x : Position) : Keeps p (p.setPosition i x) := .same rfl (fun _ => rfl) fun _ => ⟨Iff.rfl, .inl⟩

/-- A change of a line that neither starts nor ends its test, and brings it to IDLE only without one. -/
theorem Keeps.modLine {l : LineId} {f : Line → Line}
    (hloop : (f (p.line l)).loop.state = .noTest ↔ (p.line l).loop.state = .noTest)
    (hidle : (f (p.line l)).state = .idle → (p.line l).state = .idle ∨ (p.line l).loop.state = .noTest) : Keeps p (p.modLine l f) := by
  refine .same (by simp) (fun _ => by simp) fun m => ?_
  by_cases hm : m = l
  · subst hm
    simpa using ⟨hloop, hidle⟩
  · simpa [hm] using .inl

/-- A change of a line that leaves its state and its test. -/
theorem Keeps.sameTest {l : LineId} {f : Line → Line} (hloop : (f (p.line l)).loop.state = (p.line l).loop.state)
    (hstate : (f (p.line l)).state = (p.line l).state) : Keeps p (p.modLine l f) :=
  .modLine (by rw [hloop]) fun hi => .inl (hstate ▸ hi)

theorem Keeps.modLoop {l : LineId} {f : LoopTester → LoopTester} (h : (f (p.line l).loop).state = (p.line l).loop.state) :
    Keeps p (p.modLoop l f) := .sameTest h rfl

theorem Keeps.forgetArming (p : Part) (c : CtxId) : Keeps p (p.forgetArming c) := by
  unfold Part.forgetArming
  split
  · exact .sameTest rfl rfl
  · exact .refl p

end

end Sys2Proof.Machine
end

section
/-! PROOFS. The operations of the blocks keep operations, holders and reservations in step: notices and reservations, the endings, and what goes on
within an operation. -/

namespace Sys2Proof.Machine

open Sys2Proof.Safety

/-! ### Notices and reservations -/

theorem EventQueue.reservations_admitIfFree (q : EventQueue) (r : Rec) : (q.admitIfFree r).reservations = q.reservations := by
  unfold EventQueue.admitIfFree
  simp only
  split
  · rfl
  · split <;> rfl

theorem EventQueue.reservations_takeNotice (q : EventQueue) (r : Rec) : (q.takeNotice r).1.reservations = q.reservations := by
  unfold EventQueue.takeNotice
  simp only
  split
  · rfl
  · split
    · rfl
    · split
      · split <;> rfl
      · rfl

theorem Part.reservations_loseNotice (p : Part) (l : Nat) : (p.loseNotice l).queue.reservations = p.queue.reservations := by
  unfold Part.loseNotice
  simp only
  split
  · exact EventQueue.reservations_admitIfFree _ _
  · rfl

theorem Part.reservations_offer (p : Part) (r : Rec) : (p.offer r).queue.reservations = p.queue.reservations := by
  have h := p.queue.reservations_takeNotice r
  unfold Part.offer
  split
  · rename_i q hq
    rw [hq] at h
    exact h
  · rename_i q l hq
    rw [hq] at h
    exact (Part.reservations_loseNotice _ _).trans h

theorem Part.reservations_offerAll (p : Part) (rs : List Rec) : (p.offerAll rs).queue.reservations = p.queue.reservations := by
  induction rs generalizing p with
  | nil => rfl
  | cons r rs ih => exact (ih (p.offer r)).trans (p.reservations_offer r)

theorem Keeps.offer (p : Part) (r : Rec) : Keeps p (p.offer r) :=
  .same (p.reservations_offer r) (fun _ => by simp) fun _ => by simpa using .inl

theorem Keeps.offerAll (p : Part) (rs : List Rec) : Keeps p (p.offerAll rs) :=
  .same (p.reservations_offerAll rs) (fun _ => by simp) fun _ => by simpa using .inl

/-- In a full queue a lost notice leaves the records (R142). -/
theorem Part.records_loseNotice {p : Part} (h : 32 ≤ p.queue.used) (l : Nat) : (p.loseNotice l).queue.records = p.queue.records := by
  have hfull : ¬ (p.queue.countLoss l).used < Config.queuePlaces := by
    rw [EventQueue.used_countLoss]
    simp only [Config.queuePlaces]
    omega
  unfold Part.loseNotice
  simp only
  split
  · rw [EventQueue.admitIfFree, if_neg hfull]
    split <;> rfl
  · rfl

/-- The eviction takes one notice. -/
theorem notices_evictNotice {rs : List Rec} {l : Nat} (h : lowestNotice rs = some l) :
    ((evictNotice l rs).filter Rec.isNotice).length + 1 = (rs.filter Rec.isNotice).length := by
  obtain ⟨x, hx, hn, hlev⟩ := lowestNotice_mem h
  obtain ⟨a, l1, l2, -, ha, heq, herase⟩ := List.exists_of_eraseP (p := fun r => r.isNotice && r.level == l) hx (by simp [hn, hlev])
  have hna : a.isNotice = true := (Bool.and_eq_true .. ▸ ha).1
  rw [evictNotice, herase, heq]
  simp [hna]
  omega

/-- Where there is room, a reservation is taken (R139). -/
theorem Part.reserve_held {p : Part} {n : Nat} (h : Room p (n + 1)) (r : Reservation) :
    (p.reserve r).queue.reservations = p.queue.reservations ++ [r] ∧ Room (p.reserve r) n := by
  unfold Part.reserve
  simp only
  split
  · rename_i hfree
    refine ⟨rfl, ?_⟩
    simp only [EventQueue.used, Config.queuePlaces] at hfree
    simp only [Room, EventQueue.used, Part.queue_setQueue, List.length_append, List.length_singleton] at h ⊢
    omega
  · rename_i hfull
    simp only [Config.queuePlaces, Nat.not_lt] at hfull
    have hpos : 0 < (p.queue.records.filter Rec.isNotice).length := by omega
    split
    · rename_i l hl
      refine ⟨Part.reservations_loseNotice _ _, ?_⟩
      have hgone := notices_evictNotice hl
      rw [Room, Part.records_loseNotice]
      · simp only [Part.queue_setQueue]
        omega
      · have := length_evictNotice hl
        simp only [EventQueue.used, Part.queue_setQueue, List.length_append, List.length_singleton] at hfull ⊢
        omega
    · rename_i hnone
      rw [lowestNotice_eq_none] at hnone
      obtain ⟨x, hx⟩ := List.exists_mem_of_length_pos hpos
      obtain ⟨hmem, hn⟩ := List.mem_filter.mp hx
      rw [hnone x hmem] at hn
      cases hn

theorem Part.reserveAll_held {p : Part} {rs : List Reservation} (h : Room p rs.length) :
    (p.reserveAll rs).queue.reservations = p.queue.reservations ++ rs := by
  induction rs generalizing p with
  | nil => simp [Part.reserveAll]
  | cons r rs ih =>
    obtain ⟨h1, h2⟩ := Part.reserve_held h r
    exact (ih h2).trans (by rw [h1, List.append_assoc]; rfl)

/-! ### Endings -/

section
variable {p q : Part} {c : CtxId}

theorem Ends.test (h : Ends c p q) (l : LineId) : (q.line l).loop.state = (p.line l).loop.state ∧ (q.line l).state = (p.line l).state :=
  ⟨congrArg (fun x => x.loop.state) (h.line l), congrArg (fun x => x.state) (h.line l)⟩

/-- An ending that takes reservations of its own context. -/
theorem OpsSound.ends (hp : OpsSound p) (he : Ends c p q)
    (hheld : ∀ r, r.owner ≠ some c → q.queue.reservations.count r = p.queue.reservations.count r)
    (hc : OpsOk q.queue.reservations c (q.ctx c)) (hh : (q.ctx c).holder = none ∨ (q.ctx c).holder = (p.ctx c).holder) : OpsSound q :=
  hp.change c he.ctx he.test hheld hc fun l hl hd => by
    rw [Context.lineId_congr he.profile] at hd
    rcases hh with hh | hh
    · exact hh
    · rw [hh, hp.loopQuiet l hl c hd]

theorem count_erase_other {held : List Reservation} {r s : Reservation} (hr : r.owner = some c) (hs : s.owner ≠ some c) :
    (held.erase r).count s = held.count s := List.count_erase_of_ne (by rintro rfl; exact hs hr)

theorem Reservation.owner_eq {r : Reservation} : r.owner = some c ↔
    r = .entry c ∨ r = .capture c ∨ r = .chipStart c ∨ r = .chipEnd c ∨ r = .exchange c := by
  cases r <;> simp [Reservation.owner]

/-- A context without operations and without reservations. -/
theorem opsOk_of_none {held : List Reservation} {y : Context} (hy : NoOps y)
    (h : held.count (.entry c) = 0 ∧ held.count (.capture c) = 0 ∧ held.count (.chipStart c) = 0 ∧ held.count (.chipEnd c) = 0 ∧
      held.count (.exchange c) = 0) : OpsOk held c y := by
  obtain ⟨h1, h2, h3, h4, h5⟩ := h
  refine OpsOk.of_noOps (x := y) (held := held) ⟨?_, ?_, ?_, ?_, ?_, ?_, ?_, ?_, ?_, ?_, ?_, ?_⟩ hy hy
  · rw [h1, hy.entry]; rfl
  · rw [h2, hy.capture]; rfl
  · rw [h3, hy.session]; rfl
  · rw [h4, hy.session]; rfl
  · rw [h5, hy.session]; rfl
  · exact iff_of_true hy.holder ⟨hy.entry, hy.capture, hy.session⟩
  · exact fun _ => ⟨hy.capture, hy.session⟩
  · exact fun _ => hy.session
  · intro e he; rw [hy.entry] at he; cases he
  · intro u hu; rw [hy.capture] at hu; cases hu
  · intro k hk hs
    exact absurd ((Context.session_eq hk).symm.trans hy.session) hs
  · exact fun hn => absurd hy.holder hn

end

section
variable (p : Part) (c : CtxId)

theorem Context.entry_afterEntry (x : Context) (e : Entry) (o : EntryEnding) : (x.afterEntry e o).entry = none := by
  cases h : x.keypad <;> simp [Context.entry, Context.afterEntry, h]

theorem Keeps.endEntry (o : EntryEnding) : Keeps p (p.endEntry c o) := .mk fun hp => by
  cases he : (p.ctx c).entry with
  | none => simpa only [Part.endEntry, he] using hp
  | some e =>
    have hops := hp.ops c
    obtain ⟨hu, hs⟩ := hops.entry_alone (by rw [he]; rfl)
    have hctx := Part.ctx_endEntry he o
    have hheld : (p.endEntry c o).queue.reservations = p.queue.reservations.erase (.entry c) := by
      rw [Part.queue_endEntry he (hops.entry_mem he)]
      rfl
    refine hp.ends (.endEntry o) (fun r hr => by rw [hheld, count_erase_other rfl hr]) ?_ (.inl (by rw [hctx]; rfl))
    rw [hctx, hheld]
    refine opsOk_of_none ⟨rfl, Context.entry_afterEntry .., hu, hs⟩ ?_
    simp [hops.entryHeld, hops.captureHeld, hops.startHeld, hops.endHeld, hops.exchangeHeld, he, hu, hs]

theorem Keeps.endCapture (o : CaptureOutcome) : Keeps p (p.endCapture c o) := .mk fun hp => by
  cases hu : (p.ctx c).capture with
  | none => simpa only [Part.endCapture, hu] using hp
  | some u =>
    have hops := hp.ops c
    have hs := hops.capture_alone (by rw [hu]; rfl)
    have he : (p.ctx c).entry = none := by
      rw [← Option.not_isSome_iff_eq_none]
      intro h
      rw [(hops.entry_alone h).1] at hu
      cases hu
    obtain ⟨r, hr, -⟩ := Option.bind_eq_some_iff.mp hu
    have hctx := Part.ctx_endCapture hu o hr
    have hheld : (p.endCapture c o).queue.reservations = p.queue.reservations.erase (.capture c) := by
      rw [Part.queue_endCapture hu (hops.capture_mem hu)]
      rfl
    refine hp.ends (.endCapture o) (fun r hr => by rw [hheld, count_erase_other rfl hr]) ?_ (.inl (by rw [hctx]))
    rw [hctx, hheld]
    refine opsOk_of_none ⟨rfl, he, rfl, hs⟩ ?_
    simp [hops.entryHeld, hops.captureHeld, hops.startHeld, hops.endHeld, hops.exchangeHeld, he, hu, hs]

theorem Context.chip_of_session {x : Context} (hs : x.session ≠ .off) : ∃ h, x.chip = some h ∧ h.session = x.session := by
  cases hc : x.chip with
  | none => exact absurd (Context.session_none hc) hs
  | some h => exact ⟨h, rfl, (Context.session_eq hc).symm⟩

variable {p c}

/-- During a session there is no entry and no capture (R62). -/
theorem OpsOk.alone {held : List Reservation} {x : Context} (h : OpsOk held c x) (hs : x.session ≠ .off) : x.entry = none ∧ x.capture = none := by
  rw [← Option.not_isSome_iff_eq_none, ← Option.not_isSome_iff_eq_none]
  exact ⟨fun he => hs (h.entry_alone he).2, fun hu => hs (h.capture_alone hu)⟩

theorem Keeps.startFails (hs : (p.ctx c).session = .starting) (o : StartOutcome) : Keeps p (p.startFails c o) := .mk fun hp => by
  have hops := hp.ops c
  have hon : (p.ctx c).session ≠ .off := by rw [hs]; nofun
  obtain ⟨h, hc, -⟩ := Context.chip_of_session hon
  obtain ⟨he, hu⟩ := hops.alone hon
  have hctx := Part.ctx_startFails hc o
  have hheld : (p.startFails c o).queue.reservations = (p.queue.reservations.erase (.chipStart c)).erase (.chipEnd c) := by
    rw [Part.queue_startFails hc (hops.start_mem hs)]
  refine hp.ends (.startFails o) (fun r hr => by rw [hheld, count_erase_other rfl hr, count_erase_other rfl hr]) ?_ (.inl (by rw [hctx]))
  rw [hctx, hheld]
  refine opsOk_of_none ⟨rfl, he, hu, rfl⟩ ?_
  simp [hops.entryHeld, hops.captureHeld, hops.startHeld, hops.endHeld, hops.exchangeHeld, he, hu, hs]

theorem Keeps.endSession (hs : (p.ctx c).session = .ready) (r : EndReason) (inFlight : Bool) : Keeps p (p.endSession c r inFlight) := .mk fun hp => by
  have hops := hp.ops c
  have hon : (p.ctx c).session ≠ .off := by rw [hs]; nofun
  obtain ⟨h, hc, -⟩ := Context.chip_of_session hon
  obtain ⟨he, hu⟩ := hops.alone hon
  have hctx := Part.ctx_endSession hc r inFlight
  have hheld : (p.endSession c r inFlight).queue.reservations = p.queue.reservations.erase (.chipEnd c) := by
    rw [Part.queue_endSession hc (hops.end_mem hon)]
    rfl
  refine hp.ends (.endSession r inFlight) (fun r hr => by rw [hheld, count_erase_other rfl hr]) ?_ (.inl (by rw [hctx]))
  rw [hctx, hheld]
  refine opsOk_of_none ⟨rfl, he, hu, rfl⟩ ?_
  simp [hops.entryHeld, hops.captureHeld, hops.startHeld, hops.endHeld, hops.exchangeHeld, he, hu, hs]

/-- A session that goes on to READY, with the reservation of its start or of its exchange taken. -/
theorem opsOk_ready {held held' : List Reservation} {x y : Context} (hops : OpsOk held c x) (hon : x.session ≠ .off)
    {h h' : Chip} (hc : x.chip = some h) (hy : y = { x with chip := some h' }) (hready : h'.session = .ready) (ho : h'.owner = h.owner)
    (hheld : held'.count (.entry c) = held.count (.entry c) ∧ held'.count (.capture c) = held.count (.capture c) ∧
      held'.count (.chipStart c) = 0 ∧ held'.count (.chipEnd c) = held.count (.chipEnd c) ∧ held'.count (.exchange c) = 0) :
    OpsOk held' c y := by
  obtain ⟨h1, h2, h3, h4, h5⟩ := hheld
  obtain ⟨he, hu⟩ := hops.alone hon
  have hs : y.session = .ready := by rw [hy]; exact hready
  have hye : y.entry = none := by rw [hy]; exact he
  have hyu : y.capture = none := by rw [hy]; exact hu
  have hh : y.holder = x.holder := by rw [hy]
  have hn : x.holder ≠ none := fun hn => hon (hops.holder_none.mp hn).2.2
  refine ⟨?_, ?_, ?_, ?_, ?_, ?_, fun h => ?_, fun h => ?_, fun e h => ?_, fun u h => ?_, fun k hk _ => ?_, fun _ => ?_⟩
  · rw [h1, hops.entryHeld, hye, he]
  · rw [h2, hops.captureHeld, hyu, hu]
  · rw [h3, hs]; rfl
  · rw [h4, hops.endHeld, hs, decide_eq_true hon]; rfl
  · rw [h5, hs]; rfl
  · rw [hh]
    exact iff_of_false hn fun h => by rw [hs] at h; cases h.2.2
  · rw [hye] at h; cases h
  · rw [hyu] at h; cases h
  · rw [hye] at h; cases h
  · rw [hyu] at h; cases h
  · obtain rfl : h' = k := by rw [hy] at hk; exact Option.some.inj hk
    rw [hh, ho]
    exact hops.chip_owner h hc (by rwa [← Context.session_eq hc])
  · rw [hy]
    exact hops.attached hn

theorem Keeps.endExchange (hs : (p.ctx c).session = .sending ∨ (p.ctx c).session = .awaiting) (st : ExchangeStatus) :
    Keeps p (p.endExchange c st) := .mk fun hp => by
  have hops := hp.ops c
  have hon : (p.ctx c).session ≠ .off := by rcases hs with hs | hs <;> rw [hs] <;> nofun
  obtain ⟨h, hc, -⟩ := Context.chip_of_session hon
  have hctx := Part.ctx_endExchange hc st
  have hheld : (p.endExchange c st).queue.reservations = p.queue.reservations.erase (.exchange c) := by
    rw [Part.queue_endExchange hc (hops.exchange_mem hs)]
    rfl
  refine hp.ends (.endExchange st) (fun r hr => by rw [hheld, count_erase_other rfl hr]) ?_ (.inr (by rw [hctx]))
  rw [hheld]
  refine opsOk_ready hops hon hc hctx rfl rfl ?_
  have hstart : (p.ctx c).session ≠ .starting := by rcases hs with hs | hs <;> rw [hs] <;> nofun
  simp [hops.startHeld, hops.exchangeHeld, hs, hstart]

theorem Keeps.startReady {h : Chip} (hc : (p.ctx c).chip = some h) (hs : h.session = .starting) (atr : List Byte) :
    Keeps p (p.startReady c h atr) := .mk fun hp => by
  have hops := hp.ops c
  have hsession : (p.ctx c).session = .starting := (Context.session_eq hc).trans hs
  have hon : (p.ctx c).session ≠ .off := by rw [hsession]; nofun
  have hends : Ends c p (p.startReady c h atr) := .convert_mod _ _ _ (fun _ => rfl) (fun _ => rfl) fun _ => rfl
  have hctx : (p.startReady c h atr).ctx c = { p.ctx c with chip := some { h with session := .ready, atr := [], atrWait := none } } := by
    simp [Part.startReady, Context.modChip, hc]
  have hheld : (p.startReady c h atr).queue.reservations = p.queue.reservations.erase (.chipStart c) := by
    simp only [Part.startReady, chipRecord, Part.queue_modCtx, Part.convert_eq_converted (hops.start_mem hsession), Part.queue_setQueue]
    rfl
  refine hp.ends hends (fun r hr => by rw [hheld, count_erase_other rfl hr]) ?_ (.inr (by rw [hctx]))
  rw [hheld]
  refine opsOk_ready hops hon hc hctx rfl rfl ?_
  simp [hops.startHeld, hops.exchangeHeld, hsession]

theorem session_endExchange (hon : (p.ctx c).session ≠ .off) (st : ExchangeStatus) : ((p.endExchange c st).ctx c).session = .ready := by
  obtain ⟨h, hc, -⟩ := Context.chip_of_session hon
  rw [Part.ctx_endExchange hc]
  rfl

theorem Keeps.flightEnds (hs : (p.ctx c).session = .sending ∨ (p.ctx c).session = .awaiting) (st : ExchangeStatus) (r : EndReason) (b : Bool) :
    Keeps p ((p.endExchange c st).endSession c r b) :=
  (Keeps.endExchange hs st).trans (.endSession (session_endExchange (by rcases hs with hs | hs <;> rw [hs] <;> nofun) st) r b)

theorem Keeps.cutSession (p : Part) (c : CtxId) (o : StartOutcome) (st : ExchangeStatus) (r : EndReason) : Keeps p (p.cutSession c o st r) := by
  unfold Part.cutSession
  split
  · exact .refl p
  · exact .startFails ‹_› o
  · exact .endSession ‹_› r false
  · exact .flightEnds (.inl ‹_›) st r true
  · exact .flightEnds (.inr ‹_›) st r true

/-- Every operation of a context ends (R57). -/
theorem Keeps.endOps (p : Part) (c : CtxId) (why : Cause) : Keeps p (p.endOps c why) :=
  ((Keeps.endEntry ..).trans (.endCapture ..)).trans (.cutSession ..)

end

/-! ### A context whose operations have ended -/

section
variable (p : Part) (c : CtxId)

theorem entry_endEntry (o : EntryEnding) : ((p.endEntry c o).ctx c).entry = none := by
  cases he : (p.ctx c).entry with
  | none => simp only [Part.endEntry, he]
  | some e => rw [Part.ctx_endEntry he, Context.entry_afterEntry]

theorem capture_endCapture (o : CaptureOutcome) :
    ((p.endCapture c o).ctx c).capture = none ∧ ((p.endCapture c o).ctx c).entry = (p.ctx c).entry := by
  cases hu : (p.ctx c).capture with
  | none => simp only [Part.endCapture, hu, and_self]
  | some u =>
    obtain ⟨r, hr, -⟩ := Option.bind_eq_some_iff.mp hu
    rw [Part.ctx_endCapture hu o hr]
    exact ⟨rfl, rfl⟩

theorem session_cutSession (o : StartOutcome) (st : ExchangeStatus) (r : EndReason) :
    ((p.cutSession c o st r).ctx c).session = .off ∧ ((p.cutSession c o st r).ctx c).entry = (p.ctx c).entry ∧
    ((p.cutSession c o st r).ctx c).capture = (p.ctx c).capture := by
  by_cases hon : (p.ctx c).session = .off
  · rw [Part.cutSession, hon]
    exact ⟨hon, rfl, rfl⟩
  · obtain ⟨h, hc, -⟩ := Context.chip_of_session hon
    rw [Part.ctx_cutSession hc]
    refine ⟨?_, rfl, rfl⟩
    cases hs : h.session <;> simp [Context.session, Chip.cut, hs, Chip.afterFailedStart, Chip.afterSession, Chip.toOff]

variable {p c}

/-- After the endings of R57 there is no operation. -/
theorem noOps_endOps (hp : OpsSound p) (why : Cause) : NoOps ((p.endOps c why).ctx c) := by
  obtain ⟨hs, he, hu⟩ := session_cutSession ((p.endEntry c (.plain (.ended why))).endCapture c (.ended why)) c (.ended why) (.ended why) (.ended why)
  obtain ⟨hu', he'⟩ := capture_endCapture (p.endEntry c (.plain (.ended why))) c (.ended why)
  exact (((Keeps.endOps p c why).sound hp).ops c).noOps_of_ops (he.trans (he'.trans (entry_endEntry ..))) (hu.trans hu') hs

/-- Its operations ended, a context changes to another without any. -/
theorem Keeps.afterOps (p : Part) (c : CtxId) (why : Cause) {f : Context → Context} (hf : ∀ x, NoOps x → NoOps (f x)) :
    Keeps p ((p.endOps c why).modCtx c f) :=
  ⟨fun hp => (Keeps.modIdle (fun _ => noOps_endOps hp why) (hf _)).sound ((Keeps.endOps p c why).sound hp)⟩

end

end Sys2Proof.Machine
end

section
/-! PROOFS. What goes on within an operation keeps operations, holders and reservations in step: entries, captures, sessions, attachment, loop tests,
scans, slots and timers. -/

namespace Sys2Proof.Machine

open Sys2Proof.Safety

/-! ### Changes of one block of a context -/

section
variable {x : Context}

/-- A change that spares profile, attachment, holder and the blocks of the operations. -/
theorem CtxOps.of_blocks {y : Context} (hp : y.profile = x.profile) (ha : y.attach = x.attach) (hh : y.holder = x.holder)
    (hk : y.keypad = x.keypad) (hr : y.reader = x.reader) (hc : y.chip = x.chip) : CtxOps x y where
  lineId := Context.lineId_congr hp
  entry := by rw [Context.entry, hk]; rfl
  capture := by rw [Context.capture, hr]; rfl
  chip := by rw [hc]
  holder := hh
  attach h := ha.trans h

theorem CtxOps.modKeypad {f : Keypad → Keypad} (h : ∀ k, x.keypad = some k → (f k).entry.map (·.owner) = k.entry.map (·.owner)) :
    CtxOps x (x.modKeypad f) where
  lineId := rfl
  entry := by
    cases hk : x.keypad with
    | none => simp [Context.entry, hk]
    | some k => simpa [Context.entry, hk] using h k hk
  capture := rfl
  chip := rfl
  holder := rfl
  attach := id

theorem CtxOps.modReader {f : Reader → Reader} (h : ∀ r, x.reader = some r → (f r).capture.map (·.owner) = r.capture.map (·.owner)) :
    CtxOps x (x.modReader f) where
  lineId := rfl
  entry := rfl
  capture := by
    cases hr : x.reader with
    | none => simp [Context.capture, hr]
    | some r => simpa [Context.capture, hr] using h r hr
  chip := rfl
  holder := rfl
  attach := id

theorem CtxOps.modChip {f : Chip → Chip} (h : ∀ k, x.chip = some k → (f k).stage = k.stage) : CtxOps x (x.modChip f) where
  lineId := rfl
  entry := rfl
  capture := rfl
  chip := by
    cases hc : x.chip with
    | none => simp [hc]
    | some k => simpa [hc] using h k hc
  holder := rfl
  attach := id

theorem CtxOps.setEntry {e e' : Entry} (h : x.entry = some e) (ho : e'.owner = e.owner) : CtxOps x (x.setEntry (some e')) :=
  .modKeypad fun k hk => by rw [← Context.entry_eq hk, h, Option.map_some, Option.map_some, ho]

end

section
variable {p : Part} {c : CtxId}

theorem Keeps.modChip {f : Chip → Chip} (h : ∀ k, (p.ctx c).chip = some k → (f k).stage = k.stage) : Keeps p (p.modCtx c fun x => x.modChip f) :=
  .modCtx (.modChip h)

theorem Keeps.modReader {f : Reader → Reader} (h : ∀ r, (p.ctx c).reader = some r → (f r).capture.map (·.owner) = r.capture.map (·.owner)) :
    Keeps p (p.modCtx c fun x => x.modReader f) := .modCtx (.modReader h)

theorem Keeps.setEntry {e e' : Entry} (h : (p.ctx c).entry = some e) (ho : e'.owner = e.owner) :
    Keeps p (p.modCtx c fun x => x.setEntry (some e')) := .modCtx (.setEntry h ho)

end

/-! ### Events -/

/-- Within an event operations, holders and reservations stay in step. -/
structure EvKeeps (e e' : Ev) : Prop where
  part : Keeps e.part e'.part

theorem EvKeeps.refl (e : Ev) : EvKeeps e e := ⟨.refl _⟩

theorem EvKeeps.trans {e e' e'' : Ev} (h : EvKeeps e e') (g : EvKeeps e' e'') : EvKeeps e e'' := ⟨h.part.trans g.part⟩

theorem EvKeeps.map {e : Ev} {f : Part → Part} (h : Keeps e.part (f e.part)) : EvKeeps e (e.map f) := ⟨h⟩

section
variable (e : Ev) (c : CtxId)

theorem EvKeeps.detect (d : Detection) : EvKeeps e (e.detect d) := by
  obtain ⟨f, fs, h⟩ := e.detect_eq d
  rw [h]
  exact ⟨.setFaults f⟩

theorem EvKeeps.detectAt (cls : FaultClass) (detail : Option Detail) : EvKeeps e (e.detectAt cls c detail) := .detect ..

theorem EvKeeps.misfit (kind : Nat) : EvKeeps e (e.misfit c kind) := .detectAt ..

theorem EvKeeps.closeDrop (cause : DropCause) (restart : Bool) (hello : Option HelloInfo) : EvKeeps e (e.closeDrop c cause restart hello) :=
  ⟨.refl _⟩

theorem EvKeeps.finish {p : Part} {e : Ev} (h : EvKeeps (Ev.of p) e) : Keeps p e.finish := by
  rw [Ev.finish_eq]
  exact Keeps.trans (q := e.part) h.part (.offerAll _ _)

end

/-! ### The chip session -/

section
variable {p : Part} {c : CtxId}

theorem Chip.stage_respond (h : Chip) (b : Byte) : (h.respond b).stage = h.stage := by unfold Chip.respond; split <;> rfl

theorem Chip.stage_respondAll (h : Chip) (bs : List Byte) : (bs.foldl Chip.respond h).stage = h.stage := by
  induction bs generalizing h with
  | nil => rfl
  | cons b bs ih => exact (ih _).trans (h.stage_respond b)

theorem Chip.session_respondAll (h : Chip) (bs : List Byte) : (bs.foldl Chip.respond h).session = h.session := by
  induction bs generalizing h with
  | nil => rfl
  | cons b bs ih => exact (ih _).trans (by unfold Chip.respond; split <;> rfl)

variable {h : Chip} (hc : (p.ctx c).chip = some h)
include hc

theorem Keeps.atrData (hs : h.session = .starting) (b1 b2 : Byte) : Keeps p (p.atrData c h b1 b2) := by
  unfold Part.atrData
  split
  · exact .refl p
  · split
    · exact .startFails ((Context.session_eq hc).trans hs) _
    · exact .modChip fun k hk => by rw [show k = h from Option.some.inj (hk.symm.trans hc)]; rfl

theorem Keeps.atrEnd (hs : h.session = .starting) (st : DropStatus) (last : Option Byte) : Keeps p (p.atrEnd c h st last) := by
  have fails (o : StartOutcome) : Keeps p (p.startFails c o) := .startFails ((Context.session_eq hc).trans hs) o
  unfold Part.atrEnd
  simp only
  split
  · exact .refl p
  · split
    · exact fails _
    · split
      · split
        · exact fails _
        · exact .startReady hc hs _
      · exact fails _

theorem Keeps.responseEnd (hs : h.session = .awaiting) (st : DropStatus) (last : Option Byte) : Keeps p (p.responseEnd c st last) := by
  have h1 : Keeps p (p.modCtx c fun x => x.modChip fun h => last.toList.foldl Chip.respond h) := .modChip fun k _ => k.stage_respondAll _
  have hs1 : ((p.modCtx c fun x => x.modChip fun h => last.toList.foldl Chip.respond h).ctx c).session = .awaiting := by
    rw [Part.ctx_modCtx_self, Context.session_eq (h := last.toList.foldl Chip.respond h) (by simp [Context.modChip, hc]),
      Chip.session_respondAll, hs]
  unfold Part.responseEnd
  simp only
  split
  · exact h1.trans (.flightEnds (.inr hs1) _ _ _)
  · exact h1.trans (.endExchange (.inr hs1) _)

omit hc in
theorem EvKeeps.chipOutOfTurn (e : Ev) (c : CtxId) (h : Chip) (isEnd : Bool) (kind : Nat) : EvKeeps e (e.chipOutOfTurn c h isEnd kind) := by
  unfold Ev.chipOutOfTurn
  split
  · split
    · exact .map (.modChip fun _ _ => rfl)
    · exact .refl e
  · exact .misfit ..

omit hc in
theorem EvKeeps.chipData {e : Ev} (hc : (e.part.ctx c).chip = some h) (kind : Nat) (b1 b2 : Byte) : EvKeeps e (e.chipData c h kind b1 b2) := by
  unfold Ev.chipData
  split
  · exact .map (.atrData hc ‹_› b1 b2)
  · exact .map (.modChip fun k _ => (Chip.stage_respond _ b2).trans (k.stage_respond b1))
  · exact .chipOutOfTurn ..

omit hc in
theorem EvKeeps.chipEnd {e : Ev} (hc : (e.part.ctx c).chip = some h) (kind : Nat) (st : DropStatus) (last : Option Byte) :
    EvKeeps e (e.chipEnd c h kind st last) := by
  unfold Ev.chipEnd
  split
  · exact .map (.atrEnd hc ‹_› st last)
  · exact .map (.responseEnd hc ‹_› st last)
  · exact .chipOutOfTurn ..

end

section
variable (p : Part) (c : CtxId)

theorem Keeps.chipCard (card : CardState) (power : Bool) : Keeps p (p.chipCard c card power) := by
  unfold Part.chipCard
  split
  · simp only
    have seen : Keeps p (p.modCtx c fun x => x.modChip fun h => h.seePower power) :=
      .modChip fun k _ => by rw [Chip.seePower_eq]; rfl
    split
    · split
      · exact seen.trans (.modChip fun _ _ => rfl)
      · exact seen.trans (.cutSession ..)
    · split
      · exact seen
      · split
        · exact (seen.trans (.modChip (f := fun h => { h with powerSeen := false }) fun _ _ => rfl)).trans (.cutSession ..)
        · exact seen
  · exact .refl p

theorem Keeps.commandSent (u : DownUnit) : Keeps p (p.commandSent c u) := by
  refine .modChip fun k _ => ?_
  split
  · rename_i h
    split <;> simp [Chip.stage, Session.stage, h.1]
  · rfl

theorem Keeps.atrExpiry : Keeps p (p.atrExpiry c) := by
  unfold Part.atrExpiry
  split
  · rename_i h hc
    split
    · rename_i hs
      exact .startFails ((Context.session_eq hc).trans hs.1) _
    · exact .refl p
  · exact .refl p

theorem Keeps.responseExpiry : Keeps p (p.responseExpiry c) := by
  unfold Part.responseExpiry
  split
  · rename_i h hc
    split
    · rename_i hs
      exact .flightEnds (.inr ((Context.session_eq hc).trans hs.1)) _ _ _
    · exact .refl p
  · exact .refl p

/-! ### The entry -/

theorem EvKeeps.unmasked (ev : Ev) (why : Unmask) : EvKeeps ev (ev.unmasked c why) := (EvKeeps.map (.endEntry ..)).trans (.detectAt ..)

theorem Entry.owner_takeDigit (e : Entry) (line : Line) (n : Nat) : (e.takeDigit line n).owner = e.owner := by
  unfold Entry.takeDigit; split <;> rfl

theorem Entry.owner_takeMasked (e : Entry) (line : Line) : (e.takeMasked line).owner = e.owner := by
  unfold Entry.takeMasked; split <;> rfl

theorem Entry.owner_takeBack (e : Entry) (line : Line) : (e.takeBack line).owner = e.owner := by
  unfold Entry.takeBack
  split
  · rfl
  · split <;> rfl

variable {p c}

theorem Keeps.takePress {e : Entry} (h : (p.ctx c).entry = some e) (v : VKey) : Keeps p (p.takePress c e v) := by
  unfold Part.takePress
  simp only
  split
  · exact .setEntry h (e.owner_takeMasked _)
  · split
    · exact .setEntry h (e.owner_takeDigit _ _)
    · split
      · exact .setEntry h (e.owner_takeBack _)
      · split
        · exact .setEntry h rfl
        · split
          · exact .endEntry ..
          · split
            · split
              · exact .endEntry ..
              · exact .modCtx ((CtxOps.setEntry (e' := e.close (p.lineOf c) _) h rfl).trans (.of_blocks rfl rfl rfl rfl rfl rfl))
            · exact .setEntry h rfl

theorem Keeps.blockData {e : Entry} (h : (p.ctx c).entry = some e) (b1 b2 : Byte) : Keeps p (p.blockData c e b1 b2) := by
  unfold Part.blockData
  split
  · exact .endEntry ..
  · exact .setEntry h rfl

theorem Keeps.blockEnd (e : Entry) (refused : Bool) : Keeps p (p.blockEnd c e refused) := by
  unfold Part.blockEnd
  split
  · exact .endEntry ..
  · split <;> exact .endEntry ..

theorem Keeps.entryExpiry (t : EntryTimer) : Keeps p (p.entryExpiry c t) := by
  unfold Part.entryExpiry
  split
  · split
    · exact .endEntry ..
    · exact .refl p
  · exact .refl p

/-! ### The capture -/

theorem Capture.owner_begin (u : Capture) (line : Line) : (u.begin line).owner = u.owner := by unfold Capture.begin; split <;> rfl

theorem Keeps.trackChar (track : Nat) (parity : Bool) (ch : Byte) : Keeps p (p.trackChar c track parity ch) := by
  refine .modReader fun r _ => ?_
  split
  · rename_i u hu
    rw [hu]
    exact congrArg some (u.owner_begin _)
  · rfl

theorem Keeps.trackEnd (track : Nat) (st : ReaderStatus) : Keeps p (p.trackEnd c track st) := by
  refine .modReader fun r _ => ?_
  split
  · rename_i u hu
    rw [hu]
    exact congrArg some (u.owner_begin _)
  · rfl

variable (p c)

theorem Keeps.swipeEnd : Keeps p (p.swipeEnd c) := by
  unfold Part.swipeEnd
  split
  · split
    · exact .endCapture ..
    · exact (Keeps.offer ..).trans (.modReader fun _ _ => rfl)
  · exact .refl p

theorem Keeps.takeCard (card : CardState) : Keeps p (p.takeCard c card) := by
  unfold Part.takeCard
  split
  · split
    · exact .refl p
    · refine ((Keeps.modReader (f := fun r => { r with card := card }) fun _ _ => rfl).trans (.offer ..)).trans (.modReader fun r _ => ?_)
      split
      · cases hu : r.capture with
        | none => rfl
        | some u => exact congrArg some (u.owner_begin _)
      · rfl
  · exact .refl p

theorem Keeps.cardLost : Keeps p (p.cardLost c) := by
  unfold Part.cardLost
  split
  · split
    · exact .refl p
    · exact (Keeps.modReader (f := fun r => { r with card := .unknown }) fun _ _ => rfl).trans (.offer ..)
  · exact .refl p

theorem Keeps.armExpiry : Keeps p (p.armExpiry c) := by
  unfold Part.armExpiry
  split
  · split
    · exact .endCapture ..
    · exact .refl p
  · exact .refl p

theorem Keeps.limitExpiry : Keeps p (p.limitExpiry c) := by
  unfold Part.limitExpiry
  split
  · split
    · exact .endCapture ..
    · exact .refl p
  · exact .refl p

end

/-! ### Attachment -/

section
variable {x : Context} (h : NoOps x)
include h

theorem NoOps.dropAnew : NoOps x.dropAnew where
  holder := h.holder
  entry := by
    have := h.entry
    cases hk : x.keypad <;> simp_all [Context.entry, Context.dropAnew]
  capture := by
    have := h.capture
    cases hr : x.reader <;> simp_all [Context.capture, Context.dropAnew, Reader.clearTally]
  session := by
    cases hc : x.chip <;> simp [Context.session, Context.dropAnew, hc, Chip.fresh]

theorem NoOps.enterAttached (f : Features) : NoOps (x.enterAttached f) := ⟨h.dropAnew.holder, h.dropAnew.entry, h.dropAnew.capture, h.dropAnew.session⟩

theorem NoOps.leaveAttached (a : Attach) : NoOps (x.leaveAttached a) where
  holder := h.holder
  entry := h.entry
  capture := by
    have := h.capture
    cases hr : x.reader <;> simp_all [Context.capture, Context.leaveAttached]
  session := by
    have := h.session
    cases hc : x.chip <;> simp_all [Context.session, Context.leaveAttached]

theorem NoOps.moveTo (a : Attach) : NoOps (x.moveTo a) := by
  unfold Context.moveTo
  split
  · exact h.leaveAttached a
  · exact ⟨h.holder, h.entry, h.capture, h.session⟩

theorem NoOps.afterLoss : NoOps x.afterLoss where
  holder := h.holder
  entry := h.entry
  capture := h.capture
  session := by
    have := h.session
    cases hc : x.chip <;> simp_all [Context.session, Context.afterLoss]

end

section
variable {p : Part} {c : CtxId}

/-- A context that is not ATTACHED has no operation (R63), before and after the change. -/
theorem Keeps.modUnattached {f : Context → Context} (ha : (p.ctx c).attach ≠ .attached) (hf : ∀ x, NoOps x → NoOps (f x)) :
    Keeps p (p.modCtx c f) := .modIdle (fun hp => (hp.ops c).noOps_of_attach ha) (hf _)

theorem EvKeeps.helloAttach {e : Ev} (ha : (e.part.ctx c).attach ≠ .attached) (code : Nat) (display : Bool) (lamps : Nat) :
    EvKeeps e (e.helloAttach c code display lamps) := by
  unfold Ev.helloAttach
  simp only
  split
  · refine (EvKeeps.map (.modUnattached ha fun x hx => ?_)).trans (.closeDrop ..)
    have h := hx.enterAttached (helloFeatures code display lamps)
    exact ⟨h.holder, h.entry, h.capture, h.session⟩
  · have h := (EvKeeps.map (e := e) (f := fun p => p.modCtx c fun x => { x with attach := .mismatch })
      (.modUnattached ha fun x hx => ⟨hx.holder, hx.entry, hx.capture, hx.session⟩)).trans (.detectAt _ c .dropKind (some (.kindCode code)))
    split
    · exact h
    · exact h.trans (.closeDrop ..)

theorem NoOps.mismatched {x : Context} (h : NoOps x) : NoOps { x.dropAnew with attach := .mismatch, fresh := false } :=
  ⟨h.dropAnew.holder, h.dropAnew.entry, h.dropAnew.capture, h.dropAnew.session⟩

theorem EvKeeps.helloRestart (e : Ev) (c : CtxId) (code : Nat) (display : Bool) (lamps : Nat) :
    EvKeeps e (e.helloRestart c code display lamps) := by
  have h {f : Context → Context} (hf : ∀ x, NoOps x → NoOps (f x)) :
      EvKeeps e ((e.map fun p => p.endOps c .dropRestarted).map fun p => p.modCtx c f) := ⟨.afterOps _ _ _ hf⟩
  unfold Ev.helloRestart
  simp only
  split
  · exact ((h fun x hx => hx.enterAttached _).trans (.detectAt ..)).trans (.closeDrop ..)
  · refine EvKeeps.trans ?_ (.closeDrop ..)
    refine EvKeeps.trans ?_ (.detectAt ..)
    refine EvKeeps.trans ?_ (.detectAt ..)
    exact h fun x hx => hx.mismatched

theorem EvKeeps.dropLost (e : Ev) (c : CtxId) (q : Nat) : EvKeeps e (e.dropLost c q) := by
  have h : Keeps e.part (((e.part.endOps c .dropLost).modCtx c Context.afterLoss).cardLost c) :=
    Keeps.trans (.afterOps (f := Context.afterLoss) _ _ _ fun x hx => hx.afterLoss) (.cardLost ..)
  unfold Ev.dropLost
  exact ((EvKeeps.map (e := e) (f := fun p => ((p.endOps c .dropLost).modCtx c Context.afterLoss).cardLost c) h).trans (.detectAt ..)).trans
    (.closeDrop ..)

theorem EvKeeps.miss (e : Ev) (c : CtxId) : EvKeeps e (e.miss c) := by
  unfold Ev.miss
  split
  · split
    · simp only
      have h : EvKeeps e (e.map fun p => p.modCtx c fun x => { x with miss := x.miss + 1 }) := .map (.modCtx (.of_blocks rfl rfl rfl rfl rfl rfl))
      split
      · exact h.trans (.dropLost ..)
      · exact h
    · exact .refl e
  · exact .refl e

theorem Keeps.heard (p : Part) (c : CtxId) : Keeps p (p.heard c) := by
  unfold Part.heard
  split
  · split
    · exact .modCtx (.of_blocks rfl rfl rfl rfl rfl rfl)
    · exact .refl p
  · exact .refl p

end

/-! ### Scans -/

section
variable {p : Part} {c : CtxId}

theorem Keeps.deliver (p : Part) (c : CtxId) (form : ScanForm) (v : VKey) : Keeps p (p.deliver c form v) := by
  unfold Part.deliver
  split
  · rename_i pos e _ he
    split
    · simp only
      split
      · exact (Keeps.takePress he v).trans (.offer ..)
      · exact .takePress he v
    · exact .refl p
  · exact .offer ..

theorem EvKeeps.reportForm (ev : Ev) (c : CtxId) (form : ScanForm) : EvKeeps ev (ev.reportForm c form) := by
  unfold Ev.reportForm
  split
  · rename_i e he
    split
    · split
      · exact .map (.setEntry he rfl)
      · exact .refl ev
      · exact .unmasked ..
      · exact .refl ev
    · exact .refl ev
  · exact .refl ev

theorem Keeps.debounceScan (p : Part) (c : CtxId) (s : Scan) : Keeps p (p.debounceScan c s) := by
  unfold Part.debounceScan
  split
  · rename_i k _
    simp only
    have h : Keeps p (p.modCtx c fun x => x.modKeypad fun k' => { k' with keys := (debounceAll k.n k.keys s.raw).map (·.1) }) :=
      .modCtx (.modKeypad fun _ _ => rfl)
    split
    · exact h.trans (.deliver ..)
    · exact h
  · exact .refl p

theorem Keypad.entry_takeForm (k : Keypad) (form : ScanForm) : (k.takeForm form).entry = k.entry := by
  unfold Keypad.takeForm
  split <;> rfl

theorem CtxOps.takeForm (x : Context) (form : ScanForm) :
    CtxOps x ({ x with lateBlock := false }.modKeypad fun k => k.takeForm form) :=
  (CtxOps.of_blocks (x := x) (y := { x with lateBlock := false }) rfl rfl rfl rfl rfl rfl).trans
    (.modKeypad fun k _ => by rw [Keypad.entry_takeForm])

theorem EvKeeps.scan (ev : Ev) (c : CtxId) (s : Scan) : EvKeeps ev (ev.scan c s) := by
  unfold Ev.scan
  simp only
  have h1 : EvKeeps ev (ev.map fun p => p.modCtx c fun x => { x with lateBlock := false }.modKeypad fun k => k.takeForm s.form) :=
    .map (.modCtx (.takeForm (ev.part.ctx c) s.form))
  have h2 := h1.trans (.reportForm _ c s.form)
  split
  · exact h2
  · exact h2.trans (.map (.debounceScan ..))

end

/-! ### Loop tests -/

section
variable (p : Part) (l : LineId)

theorem EvKeeps.loopCompletion (e : Ev) (c : CtxId) (cls : SlotClass) : EvKeeps e (e.loopCompletion l c cls) := by
  unfold Ev.loopCompletion
  simp only
  split
  · split
    · exact (EvKeeps.map (.modLoop (by rfl))).trans (.detectAt ..)
    · exact .map (.modLoop (by rfl))
  · exact .refl e

variable {p l}

theorem OpsSound.loop_mem (hp : OpsSound p) (hl : (p.line l).loop.state ≠ .noTest) : .loop l ∈ p.queue.reservations :=
  mem_of_count (by rw [hp.loopHeld l, decide_eq_true hl]; rfl)

theorem Part.queue_loopResult (h : .loop l ∈ p.queue.reservations) (o : LoopOutcome) : (p.loopResult l o).queue =
    converted p.queue (.loop l) none none (some l) (.loop ((p.line l).loopBody o)) := by
  simp [Part.loopResult, Part.convert_eq_converted h, Part.modLoop]

theorem Part.line_loopResult (o : LoopOutcome) (m : LineId) : (p.loopResult l o).line m = if m = l then
    { p.line l with loop := { (p.line l).loop with
      state := .noTest, setup := none, entryFrame := none, records := [], lastResults := some ((p.line l).loopBody o) } } else p.line m := by
  by_cases hm : m = l
  · subst hm
    simp [Part.loopResult, Part.modLoop]
  · simp [Part.loopResult, Part.modLoop, hm]

theorem Part.ctx_loopResult (o : LoopOutcome) (c : CtxId) : (p.loopResult l o).ctx c = p.ctx c := by simp [Part.loopResult, Part.modLoop]

/-- A loop test ends with its result (R160). -/
theorem Keeps.loopResult (hl : (p.line l).loop.state ≠ .noTest) (o : LoopOutcome) : Keeps p (p.loopResult l o) := .mk fun hp => by
  have hheld : (p.loopResult l o).queue.reservations = p.queue.reservations.erase (.loop l) := by
    rw [Part.queue_loopResult (hp.loop_mem hl)]
    rfl
  have hline := Part.line_loopResult (p := p) (l := l) o
  have hctx := Part.ctx_loopResult (p := p) (l := l) o
  have htest {m : LineId} (hm : ((p.loopResult l o).line m).loop.state ≠ .noTest) :
      (p.loopResult l o).line m = p.line m := by
    have hml : m ≠ l := by
      rintro rfl
      rw [hline, if_pos rfl] at hm
      exact hm rfl
    rw [hline, if_neg hml]
  refine ⟨fun c => ?_, fun m => ?_, fun m hm => ?_, fun m hm c hc => ?_⟩
  · rw [hctx, hheld]
    refine (hp.ops c).of_held fun r hr => List.count_erase_of_ne ?_
    rintro rfl
    cases hr
  · rw [hheld, hline]
    by_cases hm : m = l
    · subst hm
      simp [hp.loopHeld, hl]
    · rw [if_neg hm, List.count_erase_of_ne (by simpa using hm), hp.loopHeld m]
  · have hsame := htest hm
    rw [hsame] at hm ⊢
    exact hp.loopRuns m hm
  · have hsame := htest hm
    rw [hsame] at hm
    rw [hctx] at hc ⊢
    exact hp.loopQuiet m hm c hc

theorem Keeps.abortTest (p : Part) (l : LineId) : Keeps p (p.abortTest l) := by
  unfold Part.abortTest
  split
  · exact .refl p
  · exact .loopResult ‹_› _

/-- Contexts of a line with a test leave ATTACHED: none has an operation (R154). -/
theorem Keeps.leaveAll (cs : List CtxId) (p : Part) (hcs : ∀ c ∈ cs, (p.ctx c).lineId = some l) (hl : (p.line l).loop.state ≠ .noTest) :
    Keeps p (cs.foldl (fun q c => q.modCtx c fun x => x.leaveAttached .looping) p) := by
  induction cs generalizing p with
  | nil => exact .refl p
  | cons c cs ih =>
    have hc := hcs c List.mem_cons_self
    have h1 : Keeps p (p.modCtx c fun x => x.leaveAttached .looping) :=
      .modIdle (fun hp => (hp.ops c).noOps (hp.loopQuiet l hl c hc)) fun hx => hx.leaveAttached _
    refine h1.trans (ih _ (fun d hd => ?_) (by simpa using hl))
    by_cases hdc : d = c
    · subst hdc
      exact (congrArg Context.lineId (Part.ctx_modCtx_self ..)).trans hc
    · simpa [hdc] using hcs d (List.mem_cons_of_mem _ hd)

theorem lineId_of_mem_participants {c : CtxId} (h : c ∈ p.participants l) : (p.ctx c).lineId = some l :=
  Part.mem_contextsOn.mp (List.mem_filter.mp h).1

theorem Keeps.enterTest (hl : (p.line l).loop.state = .accepted) : Keeps p (p.enterTest l) := by
  unfold Part.enterTest
  simp only
  have hne : (p.line l).loop.state ≠ .noTest := by rw [hl]; nofun
  have h1 := Keeps.leaveAll (p.participants l) p (fun c hc => lineId_of_mem_participants hc) hne
  have hline := Part.foldl_same p (fun q => q.line l) (p.participants l) (fun q c => q.modCtx c fun x => x.leaveAttached .looping) fun q c => by simp
  refine (h1.trans (.modLine ?_ (by simp))).trans (.offer ..)
  dsimp only at hline ⊢
  rw [hline]
  exact iff_of_false nofun hne

theorem Keeps.endTest (hl : (p.line l).loop.state ≠ .noTest) (o : LoopOutcome) : Keeps p (p.endTest l o) := by
  unfold Part.endTest
  simp only
  refine (((Keeps.loopResult hl o).trans (.forContexts _ (fun c q => ?_) _)).trans (.modLine Iff.rfl (by simp))).trans (.offer ..)
  split
  · rename_i h
    exact .modUnattached (by rw [h.2]; nofun) fun x hx => ⟨hx.holder, hx.entry, hx.capture, hx.session⟩
  · exact .refl q

theorem Keeps.testMark (p : Part) (l : LineId) : Keeps p (p.testMark l) := by
  unfold Part.testMark
  split
  · exact .refl p
  · exact .enterTest ‹_›
  · rename_i hn _
    split
    · exact .endTest hn _
    · exact .refl p

end

/-! ### Slots -/

section
variable {p : Part} {c : CtxId}

theorem CtxOps.chooseRefresh (x : Context) : CtxOps x x.chooseRefresh.2 := by
  unfold Context.chooseRefresh
  split
  · split
    · exact .of_blocks rfl rfl rfl rfl rfl rfl
    · exact .refl x
  · exact .refl x

theorem CtxOps.chooseAttached (x : Context) : CtxOps x x.chooseAttached.2 := by
  unfold Context.chooseAttached
  split
  · exact .refl x
  · split
    · exact .refl x
    · split
      · exact .of_blocks rfl rfl rfl rfl rfl rfl
      · split
        · split
          · exact .refl x
          · exact .chooseRefresh x
        · exact .chooseRefresh x

theorem CtxOps.chooseUnit (p : Part) (l : LineId) (c : CtxId) : CtxOps (p.ctx c) (p.chooseUnit l c).2 := by
  unfold Part.chooseUnit
  simp only
  split
  case h_4 => exact .chooseAttached _
  all_goals exact .refl _

theorem Keeps.slotStart (p : Part) (l : LineId) (i : Nat) : Keeps p (p.slotStart l i) := by
  unfold Part.slotStart
  split
  · split
    · exact .sameTest rfl rfl
    · rename_i c _
      exact Keeps.trans (.setCtx fun _ => .inl (.chooseUnit p l c)) (.sameTest rfl rfl)
  · exact .refl p

theorem EvKeeps.blockUnit {e : Ev} {f : Entry → Part → Part} (hf : ∀ en, (e.part.ctx c).entry = some en → Keeps e.part (f en e.part))
    (kind : Nat) : EvKeeps e (e.blockUnit c kind f) := by
  unfold Ev.blockUnit
  split
  · rename_i en hen
    split
    · exact .map (hf en hen)
    · split
      · exact .refl e
      · exact .misfit ..
  · split
    · exact .refl e
    · exact .misfit ..

theorem EvKeeps.cardState (e : Ev) (c : CtxId) (drop : DropKind) (kind code : Nat) (latch power : Bool) :
    EvKeeps e (e.cardState c drop kind code latch power) := by
  unfold Ev.cardState
  split
  · exact .map (((Keeps.modChip (f := fun h => { h with reportedLatch := if latch then .on else .off, reportedPower := if power then .on else .off })
      fun _ _ => rfl).trans (.takeCard ..)).trans (.chipCard ..))
  · exact .misfit ..

theorem EvKeeps.trackUnit {e : Ev} {f : Part → Part} (hf : Keeps e.part (f e.part)) (kind track : Nat) :
    EvKeeps e (e.trackUnit c kind track f) := by
  unfold Ev.trackUnit
  split
  · exact .map hf
  · exact .misfit ..

theorem EvKeeps.keypadUnit (e : Ev) (c : CtxId) (kind : Nat) (u : UpUnit) : EvKeeps e (e.keypadUnit c kind u) := by
  unfold Ev.keypadUnit
  split
  · exact .refl e
  · exact .scan ..
  · exact .scan ..
  · exact .blockUnit (fun en hen => .blockData hen ..) kind
  · exact .blockUnit (fun en _ => .blockEnd en _) kind
  · exact .misfit ..

theorem EvKeeps.readerUnit (e : Ev) (c : CtxId) (drop : DropKind) (kind : Nat) (u : UpUnit) : EvKeeps e (e.readerUnit c drop kind u) := by
  unfold Ev.readerUnit
  split
  · exact .refl e
  · exact .cardState ..
  · exact .trackUnit (.trackChar ..) ..
  · split
    · exact .trackUnit (.trackEnd ..) ..
    · exact .misfit ..
  · exact .map (.swipeEnd ..)
  · split
    · exact .chipData ‹_› ..
    · exact .misfit ..
  · split
    · exact .chipEnd ‹_› ..
    · exact .misfit ..
  · exact .misfit ..

theorem EvKeeps.attachedUnit (e : Ev) (c : CtxId) (first : Bool) (kind : Nat) (w : Payload) : EvKeeps e (e.attachedUnit c first kind w) := by
  unfold Ev.attachedUnit
  simp only
  have h1 : EvKeeps e (e.map fun p => p.heard c) := .map (.heard ..)
  split
  · split
    · exact h1.trans (.helloRestart ..)
    · split
      · exact h1
      · exact h1.trans (.misfit ..)
  · split
    · exact h1.trans (.keypadUnit ..)
    · exact h1.trans (.readerUnit ..)
    · exact h1

theorem EvKeeps.takeUnit (e : Ev) (l : LineId) (run : SlotRun) (cls : SlotClass) : EvKeeps e (e.takeUnit l run cls) := by
  have old : EvKeeps e (e.map fun p => p.modCtx run.ctx fun x => { x with fresh := false }) :=
    .map (.modCtx (.of_blocks rfl rfl rfl rfl rfl rfl))
  unfold Ev.takeUnit
  simp only
  split
  · exact .refl e
  · exact .refl e
  · exact old.trans (.attachedUnit ..)
  · exact old.trans (.miss ..)
  · split
    · exact .loopCompletion ..
    · exact .refl e
  · rename_i ha _
    split
    · exact .helloAttach (fun h => ha h) ..
    · exact .refl e
  · exact .refl e

theorem EvKeeps.damagedUnit (e : Ev) (run : SlotRun) (cls : SlotClass) : EvKeeps e (e.damagedUnit run cls) := by
  unfold Ev.damagedUnit
  split
  · split
    · exact .refl e
    · exact .refl e
    · exact .detectAt ..
  · exact .refl e

theorem EvKeeps.stepArming (e : Ev) (run : SlotRun) : EvKeeps e (e.stepArming run) := by
  unfold Ev.stepArming
  split
  · rename_i en hen
    split
    · split
      · simp only
        have h (n : Nat) : EvKeeps e (e.map fun p => p.modCtx run.ctx fun x => x.setEntry (some { en with arming := some n })) :=
          .map (.setEntry hen rfl)
        split
        · exact (h _).trans (.unmasked ..)
        · exact h _
      · split
        · exact .map (.setEntry hen rfl)
        · exact .refl e
    · exact .refl e
  · exact .refl e

theorem CtxOps.stepHolds (x : Context) (u : DownUnit) : CtxOps x (x.stepHolds u) := by
  obtain ⟨f, l, w, he, -⟩ := x.stepHolds_eq u
  rw [he]
  exact .of_blocks rfl rfl rfl rfl rfl rfl

theorem Keeps.completeSlot (p : Part) (l : LineId) (run : SlotRun) (cls : SlotClass) : Keeps p (p.completeSlot l run cls) := by
  unfold Part.completeSlot
  simp only
  refine Keeps.trans ?_ (EvKeeps.finish ((((EvKeeps.damagedUnit _ run cls).trans (.takeUnit _ l run cls)).trans
    (.map (.commandSent ..))).trans (.stepArming ..)))
  refine Keeps.trans (.sameTest (f := fun x => { x with inSlot := none }) rfl rfl) (.modCtx ?_)
  exact .stepHolds ..

theorem Keeps.slotCompletion (p : Part) (l : LineId) (i : Nat) (up : Upstream) : Keeps p (p.slotCompletion l i up) := by
  unfold Part.slotCompletion
  split
  · split
    · exact .completeSlot ..
    · exact .refl p
  · exact .refl p

end

end Sys2Proof.Machine
end

section
/-! PROOFS. Frame marks, schedules, line states, resets and the link keep operations, holders and reservations in step. -/

namespace Sys2Proof.Machine

open Sys2Proof.Safety

/-- A part with the same reservations and lines as another, each context with the operations it had, or with none before and after. -/
theorem Keeps.pointwise {p q : Part} (hheld : q.queue.reservations = p.queue.reservations)
    (hctx : OpsSound p → ∀ c, CtxOps (p.ctx c) (q.ctx c) ∨ NoOps (p.ctx c) ∧ NoOps (q.ctx c))
    (hline : ∀ l, (q.line l).loop.state = (p.line l).loop.state ∧ ((q.line l).state = .idle → (p.line l).state = .idle)) : Keeps p q :=
  .mk fun hp => by
    refine ⟨fun c => ?_, fun l => ?_, fun l hl hi => ?_, fun l hl c hc => ?_⟩
    · rw [hheld]
      rcases hctx hp c with h | ⟨hx, hy⟩
      · exact (hp.ops c).of_ctxOps h
      · exact (hp.ops c).of_noOps hx hy
    · rw [hheld, (hline l).1, hp.loopHeld l]
    · exact hp.loopRuns l ((hline l).1 ▸ hl) ((hline l).2 hi)
    · rcases hctx hp c with h | ⟨-, hy⟩
      · rw [h.holder]
        exact hp.loopQuiet l ((hline l).1 ▸ hl) c (h.lineId ▸ hc)
      · exact hy.holder

/-! ### Timers -/

section
variable (p : Part) (l : LineId)

theorem CtxOps.tick (x : Context) : CtxOps x x.tick where
  lineId := rfl
  entry := by
    cases hk : x.keypad with
    | none => simp [Context.entry, Context.tick, hk]
    | some k => cases he : k.entry <;> simp [Context.entry, Context.tick, hk, he, Entry.tick]
  capture := by
    cases hr : x.reader with
    | none => simp [Context.capture, Context.tick, hr]
    | some r => cases hu : r.capture <;> simp [Context.capture, Context.tick, hr, hu, Capture.tick]
  chip := by
    cases hc : x.chip with
    | none => simp [Context.tick, hc]
    | some h => simp [Context.tick, hc, Chip.tick, Chip.stage]
  holder := rfl
  attach := id

theorem Keeps.tickLine : Keeps p (p.tickLine l) :=
  .forContexts _ (fun c q => by
    split
    · exact .modCtx (.tick _)
    · exact .refl q) p

theorem Keeps.expire (x : Expiry) : Keeps p (p.expire x) := by
  cases x
  · exact .entryExpiry _
  · exact .armExpiry ..
  · exact .limitExpiry ..
  · exact .atrExpiry ..
  · exact .responseExpiry ..

theorem Keeps.expireFirst (first : List Expiry) : Keeps p (p.expireFirst l first) :=
  .foldl _ _ (fun q x => by
    split
    · exact .expire q x
    · exact .refl q) p

/-! ### Schedules -/

theorem CtxOps.rescan (x : Context) (n : Nat) : CtxOps x (x.modKeypad fun kp => { kp with n := n }) := .modKeypad fun _ _ => rfl

theorem Keeps.recomputeScan (c : CtxId) (k : Nat) : Keeps p (p.recomputeScan c k) := by
  unfold Part.recomputeScan
  split
  · exact .modCtx (.rescan ..)
  · exact .refl p

theorem Keeps.recomputeLine : Keeps p (p.recomputeLine l) :=
  .forContexts _ (fun c q => by
    split
    · exact .recomputeScan ..
    · exact .refl q) p

theorem Keeps.activate (s : Schedule) : Keeps p (p.activate l s) :=
  Keeps.trans (.sameTest (f := fun x => { x with active := s }) rfl rfl) (.forContexts _ (fun c q => by
    split
    · exact .recomputeScan ..
    · exact .refl q) _)

theorem Keeps.swapped (new : Schedule) : Keeps p (p.swapped l new) := (Keeps.activate p l new).trans (.sameTest rfl rfl)

theorem Keeps.park (why : Cause) (c : CtxId) : Keeps p ((p.endOps c why).modCtx c fun x => x.moveTo .parked) :=
  .afterOps p c why fun _ hx => hx.moveTo _

theorem Keeps.parkForSwap (c : CtxId) : Keeps p (p.parkForSwap l c) :=
  (Keeps.park p .unscheduled c).trans (.modLoop (by split <;> rfl))

/-- Contexts that are not ATTACHED go to WAITING (R25). -/
theorem Keeps.gainAll (cs : List CtxId) (hcs : ∀ c ∈ cs, (p.ctx c).attach ≠ .attached) :
    Keeps p (cs.foldl (fun q c => q.modCtx c fun x => { x with attach := .waiting }) p) := by
  induction cs generalizing p with
  | nil => exact .refl p
  | cons c cs ih =>
    refine Keeps.trans (q := p.modCtx c fun x => { x with attach := .waiting })
      (.modUnattached (hcs c List.mem_cons_self) fun x hx => ⟨hx.holder, hx.entry, hx.capture, hx.session⟩) (ih _ fun d hd => ?_)
    by_cases hdc : d = c
    · subst hdc
      simp
    · simpa [hdc] using hcs d (List.mem_cons_of_mem _ hd)

theorem Keeps.swapTo (new : Schedule) : Keeps p (p.swapTo l new) := by
  unfold Part.swapTo
  simp only
  refine (((Keeps.swapped p l new).trans (.foldl _ _ (fun q c => .parkForSwap q l c) _)).trans (.gainAll _ _ fun c hc => ?_)).trans (.offerAll ..)
  obtain ⟨-, -, -, hparked⟩ := (mem_swapGainers p l).mp hc
  rw [attach_foldl (a := .parked) (fun q c d => by
    simp only [Part.parkForSwap, Part.modLoop, Part.ctx_modLine]
    exact attach_park q .unscheduled c d)]
  split
  · nofun
  · rw [show _ = (p.ctx c).attach from attach_swapped p l new c, hparked]
    nofun

theorem Keeps.swapMark : Keeps p (p.swapMark l) := by
  unfold Part.swapMark
  split
  · exact .swapTo ..
  · exact .refl p

theorem Keeps.openFrame : Keeps p (p.openFrame l) := .sameTest rfl rfl

theorem Keeps.markEvents (order : MarkOrder) : Keeps p (p.markEvents l order) := by
  cases order with
  | swapFirst => exact (Keeps.swapMark ..).trans (.testMark ..)
  | testFirst => exact (Keeps.testMark ..).trans (.swapMark ..)

theorem Keeps.frameMark (first : List Expiry) (order : MarkOrder) : Keeps p (p.frameMark l first order) := by
  unfold Part.frameMark
  split
  · have counted : Keeps p ((((p.modLine l fun x => { x with frame := x.frame + 1, nextSlot := 0 }).tickLine l).expireFirst l first)) :=
      Keeps.trans (Keeps.trans (.sameTest rfl rfl) (.tickLine ..)) (.expireFirst ..)
    exact (counted.trans (.markEvents _ l order)).trans (.openFrame ..)
  · exact .refl p

/-! ### Line states -/

/-- After the end of its test a line has none (R159, R160). -/
theorem loop_abortTest : ((p.abortTest l).line l).loop.state = .noTest := by
  unfold Part.abortTest
  split
  · assumption
  · rw [Part.line_loopResult, if_pos rfl]

theorem Keeps.parkLine (why : Cause) : Keeps p (p.parkLine l why) :=
  .forContexts _ (fun c q => by
    split
    · exact .park ..
    · exact .refl q) p

theorem line_park (why : Cause) (c : CtxId) (m : LineId) :
    (((p.endOps c why).modCtx c fun x => x.moveTo .parked).line m).loop = (p.line m).loop := by
  rw [Part.line_modCtx]
  have h := congrArg (fun x => x.loop) ((Ends.endOps (p := p) (c := c) why).line m)
  exact h

theorem loop_parkLine (why : Cause) (m : LineId) : ((p.parkLine l why).line m).loop = (p.line m).loop := by
  refine Part.forContexts_keeps _ _ (fun q => (q.line m).loop) fun c q => ?_
  split
  · exact line_park q why c m
  · rfl

theorem Keeps.activateWaiting : Keeps p (p.activateWaiting l) := by
  unfold Part.activateWaiting
  split
  · exact .swapped ..
  · exact .refl p

theorem line_activate (s : Schedule) (m : LineId) : ((p.activate l s).line m).loop = (p.line m).loop := by
  by_cases hm : m = l
  · subst hm; simp
  · simp [hm]

theorem loop_activateWaiting (m : LineId) : ((p.activateWaiting l).line m).loop = (p.line m).loop := by
  unfold Part.activateWaiting
  split
  · rename_i s _
    refine Eq.trans ?_ (line_activate p l s m)
    by_cases hm : m = l
    · subst hm; simp
    · simp [hm]
  · rfl

theorem Keeps.enterIdle (why : LineReason) : Keeps p (p.enterIdle l why) := by
  unfold Part.enterIdle
  refine (((Keeps.abortTest p l).trans (.parkLine ..)).trans (.activateWaiting ..)).trans (.modLine Iff.rfl fun _ => .inr ?_)
  rw [loop_activateWaiting, loop_parkLine, loop_abortTest]

theorem Keeps.stoppedFrameEnd : Keeps p (p.stoppedFrameEnd l) := by
  unfold Part.stoppedFrameEnd
  split
  · exact (Keeps.enterIdle ..).trans (.offer ..)
  · exact .refl p

theorem Keeps.driverTrip : Keeps p (p.driverTrip l) := by
  have tripped : Keeps p (p.modLine l fun x => { x with driverTripped := true }) := .sameTest rfl rfl
  unfold Part.driverTrip
  simp only
  split
  · exact tripped
  · refine (tripped.trans (.enterIdle _ l .driverFault)).trans (EvKeeps.finish ?_)
    exact (EvKeeps.detect ..).trans ⟨.refl _⟩

theorem queue_startLine : (p.startLine l).queue = p.queue := by
  unfold Part.startLine
  rw [Part.forContexts_keeps _ _ (fun q => q.queue) fun c q => by split <;> simp]
  simp

/-- On a line in IDLE no context is ATTACHED, so that its start moves contexts without operations (R15, R45). -/
theorem Keeps.startLine (ha : AttachSound p.st) (hi : (p.line l).state = .idle) : Keeps p (p.startLine l) := by
  obtain ⟨-, hparks⟩ := attachSound_iff.mp ha
  refine .pointwise (by rw [queue_startLine]) (fun hp c => ?_) fun m => ?_
  · rw [Part.ctx_startLine]
    split
    · rename_i h
      have hx := (hp.ops c).noOps_of_attach (by rw [hparks c l h.1 hi]; nofun)
      exact .inr ⟨hx, hx.holder, hx.entry, hx.capture, hx.session⟩
    · exact .inl (.refl _)
  · by_cases hm : m = l
    · subst hm
      rw [Part.line_startLine_self]
      exact ⟨rfl, nofun⟩
    · rw [line_startLine_ne p hm]
      exact ⟨rfl, id⟩

/-! ### Resets and the link -/

theorem noOps_free : NoOps .free := ⟨rfl, rfl, rfl, rfl⟩

theorem Keeps.reset (phase : Phase) (kind : ResetKind) (pins : StrapPins) (f : FaultRecord) : Keeps p (p.reset phase kind pins f) := .mk fun _ => by
  have htest (l : LineId) : ((p.reset phase kind pins f).line l).loop.state = .noTest := by
    rw [Part.line_reset]
    rfl
  refine ⟨fun c => ?_, fun l => ?_, fun l hl => absurd (htest l) hl, fun l hl => absurd (htest l) hl⟩
  · rw [Part.ctx_reset]
    exact opsOk_of_none noOps_free ⟨rfl, rfl, rfl, rfl, rfl⟩
  · rw [htest]
    rfl

theorem Keeps.modLink (f : Link → Link) : Keeps p (p.modLink f) := .setLink _

theorem Keeps.sendStart : Keeps p p.sendStart := by
  unfold Part.sendStart
  split
  · exact .refl p
  · split
    · exact .modLink ..
    · split
      · exact .refl p
      · split
        · exact (Keeps.modLink ..).trans (.setQueue rfl)
        · exact .refl p

theorem Keeps.linkError (e : LinkError) : Keeps p (p.linkError e) :=
  (Keeps.modLink p fun k => k.countError e).trans (EvKeeps.finish (.detect _ _))

theorem Keeps.startupEnd : Keeps p p.startupEnd := by
  unfold Part.startupEnd
  split
  · exact (Keeps.modLink ..).trans (.offer ..)
  · exact .refl p

end

end Sys2Proof.Machine
end

section
/-! PROOFS. The requests keep operations, holders and reservations in step, and with them every step (O59). A start finds a context without
operations on a line without a test, and reserves the place of its result; a profile or a release finds one without operations. -/

namespace Sys2Proof.Machine

open Sys2Proof.Safety

/-! ### Starts -/

section
variable {p : Part} {c : CtxId}

/-- A context takes its new operation with the places for the results of it (R139, R140). -/
theorem Keeps.claim {rs : List Reservation} {f : Context → Context} (hroom : Room p rs.length) (howner : ∀ r ∈ rs, r.owner = some c)
    (hquiet : ∀ l, (p.ctx c).lineId = some l → (p.line l).loop.state = .noTest) (hline : (f (p.ctx c)).lineId = (p.ctx c).lineId)
    (hops : OpsSound p → OpsOk (p.queue.reservations ++ rs) c (f (p.ctx c))) : Keeps p ((p.reserveAll rs).modCtx c f) := .mk fun hp => by
  have hheld : ((p.reserveAll rs).modCtx c f).queue.reservations = p.queue.reservations ++ rs := Part.reserveAll_held hroom
  refine hp.change c (fun d hd => by simp [hd]) (fun l => by simp) (fun r hr => ?_) ?_ fun l hl hd => ?_
  · rw [hheld, List.count_append, Nat.add_eq_left, List.count_eq_zero]
    exact fun hm => hr (howner r hm)
  · rw [hheld, Part.ctx_modCtx_self, Part.ctx_reserveAll]
    exact hops hp
  · rw [Part.ctx_modCtx_self, Part.ctx_reserveAll, hline] at hd
    exact absurd (hquiet l hd) hl

theorem quiet_of_takesClaims (h : p.takesClaims c = true) (l : LineId) (hl : (p.ctx c).lineId = some l) : (p.line l).loop.state = .noTest :=
  ((takesClaims_iff hl).mp h).2

section
variable {held : List Reservation} {x y : Context} {i : PosId} (hx : OpsOk held c x) (hn : NoOps x) (hh : y.holder = some i)
  (ha : y.attach = .attached)
include hx hn hh ha

/-- An entry starts at a keypad without operations. -/
theorem OpsOk.opens {e : Entry} (he : y.entry = some e) (ho : e.owner = i) (hu : y.capture = none) (hs : y.session = .off) :
    OpsOk (held ++ [.entry c]) c y := by
  obtain ⟨h1, h2, h3, h4, h5, -⟩ := hx
  refine ⟨?_, ?_, ?_, ?_, ?_, ?_, fun _ => ⟨hu, hs⟩, fun _ => hs, fun e' he' => ?_, fun u hu' => ?_, fun k hk hk' => ?_, fun _ => ha⟩
  · simp [List.count_append, h1, hn.entry, he]
  · simp [List.count_append, h2, hn.capture, hu]
  · simp [List.count_append, h3, hn.session, hs]
  · simp [List.count_append, h4, hn.session, hs]
  · simp [List.count_append, h5, hn.session, hs]
  · simp [hh, he]
  · rw [hh, ← ho, Option.some.inj (he.symm.trans he')]
  · rw [hu] at hu'
    cases hu'
  · exact absurd ((Context.session_eq hk).symm.trans hs) hk'

/-- A capture is armed at a reader without operations. -/
theorem OpsOk.arms {u : Capture} (he : y.entry = none) (hu : y.capture = some u) (ho : u.owner = i) (hs : y.session = .off) :
    OpsOk (held ++ [.capture c]) c y := by
  obtain ⟨h1, h2, h3, h4, h5, -⟩ := hx
  refine ⟨?_, ?_, ?_, ?_, ?_, ?_, fun h => ?_, fun _ => hs, fun e he' => ?_, fun u' hu' => ?_, fun k hk hk' => ?_, fun _ => ha⟩
  · simp [List.count_append, h1, hn.entry, he]
  · simp [List.count_append, h2, hn.capture, hu]
  · simp [List.count_append, h3, hn.session, hs]
  · simp [List.count_append, h4, hn.session, hs]
  · simp [List.count_append, h5, hn.session, hs]
  · simp [hh, hu]
  · simp [he] at h
  · rw [he] at he'
    cases he'
  · rw [hh, ← ho, Option.some.inj (hu.symm.trans hu')]
  · exact absurd ((Context.session_eq hk).symm.trans hs) hk'

/-- A session starts at a reader without operations, with the places of two results. -/
theorem OpsOk.starts {k : Chip} (he : y.entry = none) (hu : y.capture = none) (hc : y.chip = some k) (hs : k.session = .starting)
    (ho : k.owner = some i) : OpsOk (held ++ [.chipStart c, .chipEnd c]) c y := by
  obtain ⟨h1, h2, h3, h4, h5, -⟩ := hx
  have hsession : y.session = .starting := (Context.session_eq hc).trans hs
  refine ⟨?_, ?_, ?_, ?_, ?_, ?_, fun h => ?_, fun h => ?_, fun e he' => ?_, fun u hu' => ?_, fun k' hk' _ => ?_, fun _ => ha⟩
  · simp [List.count_append, h1, hn.entry, he]
  · simp [List.count_append, h2, hn.capture, hu]
  · simp [List.count_append, h3, hn.session, hsession]
  · simp [List.count_append, h4, hn.session, hsession]
  · simp [List.count_append, h5, hn.session, hsession]
  · simp [hh, hsession]
  · simp [he] at h
  · simp [hu] at h
  · rw [he] at he'
    cases he'
  · rw [hu] at hu'
    cases hu'
  · rw [hh, ← ho, Option.some.inj (hc.symm.trans hk')]

end

/-- An exchange starts in a READY session. -/
theorem OpsOk.exchanges {held : List Reservation} {x : Context} (hx : OpsOk held c x) (hs : x.session = .ready) {f : Chip → Chip}
    (hf : ∀ k, (f k).session = .sending ∧ (f k).owner = k.owner) : OpsOk (held ++ [.exchange c]) c (x.modChip f) := by
  obtain ⟨k, hc, -⟩ := Context.chip_of_session (x := x) (by rw [hs]; nofun)
  obtain ⟨he, hu⟩ := hx.alone (by rw [hs]; nofun)
  have hy : (x.modChip f).chip = some (f k) := by simp [Context.modChip, hc]
  have hsession : (x.modChip f).session = .sending := (Context.session_eq hy).trans (hf k).1
  obtain ⟨h1, h2, h3, h4, h5, h6, -, -, -, -, h11, h12⟩ := hx
  have he' : (x.modChip f).entry = none := he
  have hu' : (x.modChip f).capture = none := hu
  have hheld : x.holder ≠ none := fun h => by
    obtain ⟨-, -, hoff⟩ := h6.mp h
    rw [hs] at hoff
    cases hoff
  refine ⟨?_, ?_, ?_, ?_, ?_, ?_, fun h => ?_, fun h => ?_, fun e h => ?_, fun u h => ?_, fun k' hk' _ => ?_, h12⟩
  · simp [List.count_append, h1, he, he']
  · simp [List.count_append, h2, hu, hu']
  · simp [List.count_append, h3, hs, hsession]
  · simp [List.count_append, h4, hs, hsession]
  · simp [List.count_append, h5, hs, hsession]
  · exact iff_of_false hheld (by simp [hsession])
  · simp [he'] at h
  · simp [hu'] at h
  · rw [he'] at h
    cases h
  · rw [hu'] at h
    cases h
  · have hk := Option.some.inj (hy.symm.trans hk')
    rw [← hk, (hf k).2]
    exact h11 k hc (by rw [← Context.session_eq hc, hs]; nofun)

end

/-! ### The requests of the operations -/

section
variable {p : Part} (hat : AttachSound p.st) (hpt : PointersSound p.st)
include hat hpt

theorem keypad_of_pointer {i : PosId} {c : CtxId} (h : (p.position i).keypad = some c) : ∃ k, (p.ctx c).keypad = some k ∧ (p.ctx c).chip = none ∧
    (p.ctx c).reader = none := by
  have hkind : (p.ctx c).kind = some .keypad := pointersSound_iff.mp hpt i .keypad c h
  obtain ⟨-, hk, hr, hc⟩ := (attachSound_iff.mp hat).1 c
  rw [hkind] at hk hr hc
  obtain ⟨k, hk⟩ := Option.isSome_iff_exists.mp (hk.mpr rfl)
  exact ⟨k, hk, by simpa using hc, by simpa using hr⟩

theorem reader_of_pointer {i : PosId} {c : CtxId} (h : (p.position i).reader = some c) : ∃ r, (p.ctx c).reader = some r ∧ (p.ctx c).keypad = none := by
  have hkind : (p.ctx c).kind = some .readerStripe ∨ (p.ctx c).kind = some .readerHybrid := pointersSound_iff.mp hpt i .reader c h
  obtain ⟨-, hk, hr, -⟩ := (attachSound_iff.mp hat).1 c
  obtain ⟨r, hr⟩ := Option.isSome_iff_exists.mp (hr.mpr hkind)
  refine ⟨r, hr, ?_⟩
  rcases hkind with hkind | hkind <;> rw [hkind] at hk <;> simpa using hk

end

section
variable {p : Part} (hat : AttachSound p.st) (hpt : PointersSound p.st)

theorem Context.writePrompt_leaves (x : Context) (t : Option (List Byte)) : (x.writePrompt t).profile = x.profile ∧ (x.writePrompt t).reader = x.reader ∧
    (x.writePrompt t).chip = x.chip ∧ (x.writePrompt t).attach = x.attach := by
  cases t with
  | none => exact ⟨rfl, rfl, rfl, rfl⟩
  | some t =>
    simp only [Context.writePrompt, Context.writeImage]
    split <;> exact ⟨rfl, rfl, rfl, rfl⟩

include hat hpt in
theorem Keeps.openEntryRequest (pos : Nat) (f : EntryFields) : Keeps p (serveOpenEntry pos f p).1 := by
  refine judge_keeps (R := Keeps) (.refl p) fun ⟨i, c, t⟩ h => ?_
  obtain ⟨hc, ha, hcl, hh, hroom, -⟩ := checkOpenEntry_found h
  obtain ⟨k, hk, hchip, hr⟩ := keypad_of_pointer hat hpt hc
  refine Keeps.claim (rs := [.entry c]) (f := fun x => x.openEntry i t (p.lineOf c) f.prompt) (canReserve_iff.mp hroom) (by simp [Reservation.owner])
    (quiet_of_takesClaims hcl) ?_ fun hp => ?_
  · exact Context.lineId_congr ((p.ctx c).writePrompt_leaves f.prompt).1
  · have hn := (hp.ops c).noOps hh
    obtain ⟨-, hr', hc', ha'⟩ := (p.ctx c).writePrompt_leaves f.prompt
    exact (hp.ops c).opens hn (i := i) rfl (ha'.trans ha) (e := t.record i (p.lineOf c) k.reported)
      (by simp [Context.entry, Context.openEntry, hk]) rfl (by simp [Context.capture, Context.openEntry, hr', hr])
      (Context.session_none (hc'.trans hchip))

include hat hpt in
theorem Keeps.armReader (pos mask : Nat) (timeout : Option Nat) : Keeps p (serveArmReader pos mask timeout p).1 := by
  refine judge_keeps (R := Keeps) (.refl p) fun ⟨i, c, m⟩ h => ?_
  obtain ⟨hc, ha, hcl, hh, -, hroom⟩ := checkArmReader_found h
  obtain ⟨r, hr, hk⟩ := reader_of_pointer hat hpt hc
  refine Keeps.claim (rs := [.capture c]) (f := fun x => x.arm i m ((p.lineOf c).startTimer (takeTimeout timeout))) (canReserve_iff.mp hroom)
    (by simp [Reservation.owner]) (quiet_of_takesClaims hcl) rfl fun hp => ?_
  have hn := (hp.ops c).noOps hh
  exact (hp.ops c).arms hn (i := i) rfl ha (u := captureRecord i m (p.ctx c).rules ((p.lineOf c).startTimer (takeTimeout timeout)))
    (by simp [Context.entry, Context.arm, hk]) (by simp [Context.capture, Context.arm, Reader.clearTally, hr]) rfl hn.session

include hat in
theorem Keeps.chipStart (pos : Nat) : Keeps p (serveChipStart pos p).1 := by
  refine judge_keeps (R := Keeps) (.refl p) fun ⟨i, c⟩ h => ?_
  obtain ⟨hc, hkind, ha, hcl, hh, -, hroom⟩ := checkChipStart_found h
  obtain ⟨-, -, -, hchip⟩ := (attachSound_iff.mp hat).1 c
  obtain ⟨k, hk⟩ := Option.isSome_iff_exists.mp (hchip.mpr hkind)
  refine Keeps.claim (rs := [.chipStart c, .chipEnd c]) (f := fun x => x.startChip i ((p.lineOf c).startTimer Config.atrWaitMs))
    (canReserve_iff.mp hroom) (by simp [Reservation.owner]) (quiet_of_takesClaims hcl) rfl fun hp => ?_
  have hn := (hp.ops c).noOps hh
  exact (hp.ops c).starts hn (i := i) rfl ha (k := k.start i ((p.lineOf c).startTimer Config.atrWaitMs)) hn.entry hn.capture
    (by simp [Context.startChip, hk]) rfl rfl

theorem Keeps.chipExchange (pos : Nat) (command : List Byte) : Keeps p (serveChipExchange pos command p).1 := by
  refine judge_keeps (R := Keeps) (.refl p) fun ⟨i, c⟩ h => .mk fun hp => ?_
  obtain ⟨-, -, hs, hh, hroom⟩ := checkChipExchange_found h
  refine (Keeps.claim (rs := [.exchange c]) (f := fun x => x.modChip fun h => h.exchange command) (canReserve_iff.mp hroom)
    (by simp [Reservation.owner]) (fun l hl => ?_) rfl fun hp => (hp.ops c).exchanges hs fun _ => ⟨rfl, rfl⟩).sound hp
  refine Classical.byContradiction fun hn => ?_
  rw [hp.loopQuiet l hn c hl] at hh
  cases hh

theorem Keeps.setIndicators (pos : Nat) (keypad : Option KeypadPart) (reader : Option ReaderPart) : Keeps p (serveSetIndicators pos keypad reader p).1 := by
  refine judge_keeps (R := Keeps) (.refl p) fun ts _ => .foldl ts _ (fun q t => .modCtx ?_) p
  rw [Context.written_eq]
  exact .of_blocks rfl rfl rfl rfl rfl rfl

/-! ### The requests to the lines -/

theorem Keeps.lineSetup (line rate slots pmin : Nat) : Keeps p (serveLineSetup line rate slots pmin p).1 := by
  refine judge_keeps (R := Keeps) (.refl p) fun ⟨l, r⟩ _ => ?_
  have h1 : Keeps p (p.modLine l fun y => y.setup r slots (takePmin pmin)) := .sameTest rfl rfl
  dsimp only
  exact h1.trans (.recomputeLine _ l)

theorem Keeps.startLines (ls : List LineId) (hn : ls.Nodup) (p : Part) (hat : AttachSound p.st) (hi : ∀ l ∈ ls, (p.line l).state = .idle) :
    Keeps p (ls.foldl Part.startLine p) := by
  induction ls generalizing p with
  | nil => exact .refl p
  | cons l ls ih =>
    obtain ⟨hl, hn⟩ := List.nodup_cons.mp hn
    have hidle := hi l List.mem_cons_self
    rw [List.foldl_cons]
    refine (Keeps.startLine p l hat hidle).trans (ih hn (p.startLine l) (Deed.attach (.start p l hidle) hat) fun m hm => ?_)
    rw [line_startLine_ne p (by rintro rfl; exact hl hm)]
    exact hi m (List.mem_cons_of_mem _ hm)

include hat in
theorem Keeps.lineStart (lines : Nat) : Keeps p (serveLineStart lines p).1 := by
  refine judge_keeps (R := Keeps) (.refl p) fun ls h => ?_
  obtain ⟨hls, hi⟩ := checkLineStart_found p h
  exact (Keeps.startLines ls (readLines_nodup hls) p hat hi).trans (.offerAll ..)

theorem Line.loop_requestStop (x : Line) : x.requestStop.loop = x.loop ∧ x.requestStop.state = x.state := by
  unfold Line.requestStop
  split <;> exact ⟨rfl, rfl⟩

theorem Keeps.lineStop (lines : Nat) : Keeps p (serveLineStop lines p).1 :=
  judge_keeps (R := Keeps) (.refl p) fun ls _ => .foldl ls _ (fun q l =>
    .sameTest (congrArg LoopTester.state (q.line l).loop_requestStop.1) (q.line l).loop_requestStop.2) p

theorem Keeps.loadSchedule (line : Nat) (entries : List Nat) : Keeps p (serveLoadSchedule line entries p).1 := by
  refine judge_keeps (R := Keeps) (.refl p) fun ⟨l, s⟩ _ => ?_
  dsimp only
  split
  · dsimp only
    exact .activate p l s
  · exact Keeps.sameTest (f := fun y => { y with waiting := some s }) rfl rfl

/-- The places that a start holds: one for each time it names a line. -/
theorem count_map_loop (ls : List LineId) (l : LineId) : (ls.map Reservation.loop).count (.loop l) = ls.count l := by
  induction ls with
  | nil => rfl
  | cons m ls ih =>
    have hsame : (Reservation.loop m == .loop l) = (m == l) := by
      rw [Bool.eq_iff_iff, beq_iff_eq, beq_iff_eq, Reservation.loop.injEq]
    rw [List.map_cons, List.count_cons, List.count_cons, ih, hsame]

/-- A test is accepted on every named line in RUN with the place for its result (R154). -/
theorem Keeps.loopStart (lines : Nat) (f : LoopFields) : Keeps p (serveLoopStart lines f p).1 := by
  refine judge_keeps (R := Keeps) (.refl p) fun ⟨ls, setup⟩ h => .mk fun hp => ?_
  obtain ⟨hls, hrun, hquiet, hroom⟩ := checkLoopStart_found h
  have hn := readLines_nodup hls
  dsimp only
  generalize hq : ls.foldl (fun q l => q.acceptTest setup l) (p.reserveAll (ls.map .loop)) = q
  have hheld : q.queue.reservations = p.queue.reservations ++ ls.map .loop := by
    rw [← hq, Part.foldl_same _ (fun q => q.queue) _ _ fun q l => by simp [Part.acceptTest, Part.modLoop]]
    exact Part.reserveAll_held (by simpa using canReserve_iff.mp hroom)
  have hctx (c : CtxId) : q.ctx c = p.ctx c := by
    rw [← hq, Part.foldl_same _ (fun q => q.ctx c) _ _ fun q l => by simp [Part.acceptTest, Part.modLoop]]
    simp
  have hline (l : LineId) : (q.line l).state = (p.line l).state ∧ (q.line l).loop.state = if l ∈ ls then .accepted else (p.line l).loop.state := by
    rw [← hq, line_acceptTests hn, Part.line_reserveAll]
    split <;> exact ⟨rfl, rfl⟩
  have htest {l : LineId} (hl : (q.line l).loop.state ≠ .noTest) : l ∈ ls ∨ (p.line l).loop.state ≠ .noTest := by
    by_cases hm : l ∈ ls
    · exact .inl hm
    · rw [(hline l).2, if_neg hm] at hl
      exact .inr hl
  refine ⟨fun c => ?_, fun l => ?_, fun l hl => ?_, fun l hl c hc => ?_⟩
  · rw [hheld, hctx]
    refine (hp.ops c).of_held fun r hr => ?_
    rw [List.count_append, Nat.add_eq_left, List.count_eq_zero]
    rintro hm
    obtain ⟨l, -, rfl⟩ := List.mem_map.mp hm
    cases hr
  · rw [hheld, List.count_append, hp.loopHeld, (hline l).2, count_map_loop]
    by_cases hm : l ∈ ls
    · simp [hm, (hrun l hm).2, hn.count]
    · simp [hm, List.count_eq_zero.mpr hm]
  · rw [(hline l).1]
    rcases htest hl with hm | hl
    · rw [(hrun l hm).1]
      nofun
    · exact hp.loopRuns l hl
  · rw [hctx] at hc ⊢
    rcases htest hl with hm | hl
    · exact hquiet l hm c hc
    · exact hp.loopQuiet l hl c hc

theorem Keeps.loopStop (lines : Nat) : Keeps p (serveLoopStop lines p).1 := by
  refine judge_keeps (R := Keeps) (.refl p) fun ls h => ?_
  obtain ⟨-, hin⟩ := checkLoopStop_found h
  refine .same ?_ (fun c => ?_) fun l => ?_
  · rw [Part.foldl_same _ (fun q => q.queue) _ _ fun q l => by simp [Part.modLoop]]
  · exact Part.foldl_same _ (fun q => q.ctx c) _ _ fun q l => by simp [Part.modLoop]
  · dsimp only
    rw [line_stopTests]
    split
    · rename_i hl
      have htest := hin l hl
      simp only [Line.inLoopTest, Bool.and_eq_true, Bool.or_eq_true, beq_iff_eq] at htest
      exact ⟨iff_of_false nofun (by rcases htest.2 with h | h <;> rw [h] <;> nofun), .inl⟩
    · exact ⟨Iff.rfl, .inl⟩

/-! ### The requests to profiles and the rest -/

theorem NoOps.profiled {x : Context} (h : NoOps x) (pr : Profile) : NoOps (x.profiled pr) := by
  unfold Context.profiled
  split
  · cases hk : pr.kind <;> constructor <;> simp [Context.asKind, Context.free, Context.entry, Context.capture, Context.session, DropKind.isReader,
      Keypad.fresh, Reader.fresh, Chip.fresh]
  · simp only
    split
    · exact ⟨h.holder, h.entry, h.capture, h.session⟩
    · cases hk : pr.kind <;> constructor <;> simp [Context.asKind, Context.free, Context.entry, Context.capture, Context.session, DropKind.isReader,
        Keypad.fresh, Reader.fresh, Chip.fresh]

theorem CtxOps.profiled {x : Context} {pr old : Profile} (ho : x.profile = some old) (hl : old.line = pr.line) (hk : old.kind = pr.kind) :
    CtxOps x (x.profiled pr) := by
  simp only [Context.profiled, ho, hk, if_true]
  exact ⟨by simp [Context.lineId, ho, hl], rfl, rfl, rfl, rfl, id⟩

theorem reservations_clearPointers (c : CtxId) (why : ClearCause) (ptrs : List PointerKind) :
    (p.clearPointers c why ptrs).queue.reservations = p.queue.reservations :=
  Part.foldl_same p (·.queue.reservations) _ _ fun q i => Part.foldl_same q (·.queue.reservations) _ _ fun q ptr => by
    unfold Part.clearPointer
    split
    · exact Part.reservations_offer ..
    · rfl

theorem reservations_identified (c : CtxId) (pr : Profile) : (p.identified c pr).queue.reservations = p.queue.reservations := by
  unfold Part.identified
  split
  · simp only
    split <;> split <;> simp [reservations_clearPointers, Part.purge]
  · rfl

theorem loop_purge (l m : LineId) (c : CtxId) : ((p.purge l c).line m).loop = (p.line m).loop := by
  rw [Part.line_purge]
  split <;> rfl

/-- A profile changes a context without operations, or it keeps line and kind (R40 to R43). -/
theorem Keeps.dropProfile (ctx : Nat) (f : ProfileFields) : Keeps p (serveDropProfile ctx f p).1 := by
  refine judge_keeps (R := Keeps) (.refl p) fun ⟨c, pr⟩ h => ?_
  obtain ⟨line, address, kind, rules, hpr, -, -, -, hat, -⟩ := checkDropProfile_found h
  refine Keeps.trans (q := p.identified c pr) (.pointwise (reservations_identified c pr) (fun hp d => ?_) fun l => ?_) (.recomputeScan ..)
  · rw [Part.ctx_identified]
    split
    · rename_i hd
      subst hd
      have idle (ha : (p.ctx d).attach ≠ .attached) : NoOps (p.ctx d) ∧ NoOps ((p.ctx d).profiled pr) :=
        ⟨(hp.ops d).noOps_of_attach ha, ((hp.ops d).noOps_of_attach ha).profiled pr⟩
      rcases hat with ha | ha | hk
      · exact .inr (idle (by rw [ha]; nofun))
      · exact .inr (idle (by rw [ha]; nofun))
      · obtain ⟨old, ho, hl, -, hk⟩ := keepsIdentity_iff.mp hk
        exact .inl (.profiled ho (by rw [hpr, hl]; rfl) (by rw [hpr, hk]; rfl))
    · exact .inl (.refl _)
  · refine ⟨?_, fun hi => (state_identified p l c pr) ▸ hi⟩
    rw [Part.line_identified]
    split
    · rw [loop_purge]
    · rfl

theorem Keeps.dropRelease (ctx : Nat) : Keeps p (serveDropRelease ctx p).1 := by
  refine judge_keeps (R := Keeps) (.refl p) fun c h => ?_
  obtain ⟨-, ha⟩ := checkDropRelease_found p h
  refine .pointwise ?_ (fun hp d => ?_) fun l => ?_
  · unfold Part.releaseCtx
    split
    · simp [reservations_clearPointers, Part.purge]
    · rfl
  · rw [Part.ctx_releaseCtx]
    split
    · rename_i hd
      rw [hd.1]
      exact .inr ⟨(hp.ops c).noOps_of_attach (by rcases ha with ha | ha <;> rw [ha] <;> nofun), noOps_free⟩
    · exact .inl (.refl _)
  · refine ⟨?_, fun hi => (state_releaseCtx p l c) ▸ hi⟩
    rw [Part.line_releaseCtx]
    split
    · rw [loop_purge]
    · rfl

include hat hpt in
/-- Every request keeps operations, holders and reservations in step. -/
theorem Keeps.serve (r : Request) : Keeps p (serve r p).1 := by
  cases r <;> simp only [Machine.serve]
  case status => exact .refl p
  case restart => exact .setLink _
  case lineSetup => exact .lineSetup ..
  case lineStart => exact .lineStart hat _
  case lineStop => exact .lineStop _
  case loadSchedule => exact .loadSchedule ..
  case readSchedule => exact judge_keeps (R := Keeps) (.refl p) fun _ _ => .refl p
  case bindPosition => exact judge_keeps (R := Keeps) (.refl p) fun _ _ => .setPosition ..
  case setIndicators => exact .setIndicators ..
  case openEntry => exact .openEntryRequest hat hpt ..
  case cancelEntry => exact judge_keeps (R := Keeps) (.refl p) fun _ _ => .endEntry ..
  case armReader => exact .armReader hat hpt ..
  case disarmReader => exact judge_keeps (R := Keeps) (.refl p) fun _ _ => .endCapture ..
  case dropProfile => exact .dropProfile ..
  case dropRelease => exact .dropRelease ..
  case chipStart => exact .chipStart hat ..
  case chipExchange => exact .chipExchange ..
  case chipStop => exact judge_keeps (R := Keeps) (.refl p) fun _ _ => .cutSession ..
  case releaseCard => exact judge_keeps (R := Keeps) (.refl p) fun _ _ => .modChip fun _ _ => rfl
  case setLevels => exact judge_keeps (R := Keeps) (.refl p) fun _ _ => .setQueue rfl
  case faultSetup => exact judge_keeps (R := Keeps) (.refl p) fun _ _ => .setFaults _
  case readFaults => exact .refl p
  case clearFaults => exact .setFaults _
  case loopStart => exact .loopStart ..
  case loopStop => exact .loopStop ..
  case readLoopResults => exact judge_keeps (R := Keeps) (.refl p) fun _ _ => .refl p

end

/-! ### Steps -/

/-- Deeds that keep operations, holders and reservations in step while attachment and pointers are sound. -/
structure Steps (p q : Part) : Prop where
  deeds : Deeds p q
  keeps : AttachSound p.st → PointersSound p.st → Keeps p q

section
variable (p : Part)

theorem Steps.refl : Steps p p := ⟨.refl, fun _ _ => .refl p⟩

theorem Steps.trans {p q r : Part} (h : Steps p q) (g : Steps q r) : Steps p r where
  deeds := h.deeds.trans g.deeds
  keeps ha hp := (h.keeps ha hp).trans (g.keeps
    (Deeds.keeps (I := fun p => AttachSound p.st) (fun _ _ => Deed.attach) h.deeds ha)
    (Deeds.keeps (I := fun p => PointersSound p.st) (fun _ _ => Deed.pointers) h.deeds hp))

theorem steps_modLink {f : Link → Link} (h : (f p.link).tx = p.link.tx ∨ (f p.link).tx = none) : Steps p (p.modLink f) :=
  ⟨.serves (.modLink p h), fun _ _ => .modLink p f⟩

theorem steps_linkError (e : LinkError) : Steps p (p.linkError e) := ⟨.serves (.linkError p e), fun _ _ => .linkError p e⟩

theorem steps_take (m : Message) : Steps p (p.take m) := by
  refine ⟨deeds_take p m, fun ha hp => ?_⟩
  refine Keeps.trans (q := (p.judgeMessage m).1) ?_ ?_
  · unfold Part.judgeMessage
    split
    · exact .refl p
    · exact .serve ha hp _
  · unfold Part.take
    exact .modLink ..

theorem steps_receive (m : Message) : Steps p (p.receive m) := by
  unfold Part.receive
  split
  · exact .refl p
  · split
    · exact steps_take p m
    · split
      · exact steps_modLink p (.inl rfl)
      · exact steps_linkError p _

theorem steps_takeByte (b : Byte) : Steps p (p.takeByte b) := by
  have drop (rx : List Byte) : Steps p (p.modLink fun k => { k with rx := rx }) := steps_modLink p (.inl rfl)
  unfold Part.takeByte
  split
  · exact .refl p
  · split
    · split
      · exact drop _
      · exact .refl p
    · simp only
      split
      · exact (drop _).trans (steps_linkError _ _)
      · split
        · split
          · exact (drop _).trans (steps_receive _ _)
          · exact (drop _).trans (steps_linkError _ _)
        · exact drop _

theorem steps_takeBytes (bs : List Byte) : Steps p (bs.foldl Part.takeByte p) := by
  induction bs generalizing p with
  | nil => exact .refl p
  | cons b bs ih => exact (steps_takeByte p b).trans (ih _)

theorem steps_reset (phase : Phase) (kind : ResetKind) (pins : StrapPins) : Steps p (p.reset phase kind pins p.faults) :=
  ⟨.of (.reset p phase kind pins p.faults id), fun _ _ => .reset ..⟩

theorem steps_messageSent (pins : StrapPins) : Steps p (p.messageSent pins) := by
  unfold Part.messageSent
  split
  · exact .refl p
  · split
    · exact .refl p
    · split
      · exact steps_modLink p (.inr rfl)
      · split
        · exact steps_reset p ..
        · refine Steps.trans (steps_modLink p (f := fun k => { k with tx := none, inHand := false }) (.inr rfl)) ?_
          unfold Part.takeHeld
          split
          · exact Steps.trans (steps_modLink _ (.inl rfl)) (steps_take ..)
          · exact steps_modLink _ (.inl rfl)

/-- Every step keeps operations, holders and reservations in step while attachment and pointers are sound. -/
theorem steps_of_partStep {p q : Part} (h : PartStep p q) : Steps p q := by
  have hdeeds := deeds_of_partStep h
  cases h
  case idle => exact .refl p
  case request tag r => exact steps_receive ..
  case bytes bs => exact steps_takeBytes ..
  case sent pins => exact steps_messageSent ..
  all_goals refine ⟨hdeeds, fun _ _ => ?_⟩
  case gap =>
    unfold Part.gapTimeout
    split
    · exact (Keeps.modLink ..).trans (.linkError ..)
    · exact .refl p
  case sendStart => exact .sendStart p
  case restart pins =>
    unfold Part.restartTimeout
    split
    · exact .reset ..
    · exact .refl p
  case cts level => exact .modLink ..
  case powerUp cause pins => exact .reset ..
  case release pins =>
    unfold Part.resetRelease
    split
    · exact .reset ..
    · exact .refl p
  case startup => exact .startupEnd p
  case mark l first order => exact .frameMark ..
  case slotStart l i => exact .slotStart ..
  case slotEnd l i up => exact .slotCompletion ..
  case expiry x => exact .expire ..
  case frameEnd l => exact .stoppedFrameEnd ..
  case trip l => exact .driverTrip ..
  case cleared l => exact .sameTest rfl rfl

end

/-- Settles O59: every step is a chain of changes that each keep operations, holders and reservations in step. -/
theorem operationsStaySound : Obligations.OperationsStaySound := by
  unfold Obligations.OperationsStaySound
  intro s t ha hp ho h
  exact operationsSound_iff.mpr (((steps_of_partStep (partStep_of_step h)).keeps ha hp).sound (operationsSound_iff.mp ho))

end Sys2Proof.Machine
end

section
/-! PROOFS. Operations that a change of attachment or of the line ends (R57): what an ending leaves of the context, of the queue and of the line, for one
context and for several in turn. -/

namespace Sys2Proof.Machine

open Sys2Proof.Safety

/-! ### One context -/

section
variable {p : Part} {c : CtxId}

theorem Part.endEntry_of_none (h : (p.ctx c).entry = none) (o : EntryEnding) : p.endEntry c o = p := by simp only [Part.endEntry, h]

theorem Part.endCapture_of_none (h : (p.ctx c).capture = none) (o : CaptureOutcome) : p.endCapture c o = p := by simp only [Part.endCapture, h]

theorem Part.cutSession_of_off (h : (p.ctx c).session = .off) (o : StartOutcome) (st : ExchangeStatus) (r : EndReason) :
    p.cutSession c o st r = p := by simp only [Part.cutSession, h]

/-- Without operations nothing ends. -/
theorem Part.endOps_of_noOps (h : NoOps (p.ctx c)) (why : Cause) : p.endOps c why = p := by
  rw [Part.endOps, Part.endEntry_of_none h.entry, Part.endCapture_of_none h.capture, Part.cutSession_of_off h.session]

/-- The cut of a session by a cause leaves it OFF, with nothing of it left (R131). -/
theorem Chip.cut_ended (h : Chip) (why : Cause) : h.cut (.ended why) (.ended why) = sessionOff h := by
  cases hs : h.session <;> simp [Chip.cut, sessionOff, hs, Chip.afterFailedStart, Chip.afterSession, Chip.toOff, StartOutcome.leavesLate,
    StartOutcome.byCause, EndReason.keepsLatch, EndReason.late, EndReason.byCause]

/-- The late-block flag after an ending by a cause (R54). -/
def Context.lateAfter (x : Context) (why : Cause) : Bool :=
  match x.entry with
  | some e => x.lateBlock || (decide (e.state = .closing) && (EntryEnding.plain (.ended why)).leavesBlock)
  | none => x.lateBlock

theorem sessionOff_of_off {h : Chip} (hs : h.session = .off) : sessionOff h = h := if_pos hs

theorem map_sessionOff {x : Context} (h : x.session = .off) : x.chip.map sessionOff = x.chip := by
  cases hc : x.chip with
  | none => rfl
  | some k => rw [Option.map_some, sessionOff_of_off ((Context.session_eq hc).symm.trans h)]

theorem withoutOps_keypad {x : Context} (h : x.entry = none) :
    (x.keypad.map fun k => if k.entry.isSome then { k with wanted := .opened, entry := none } else k) = x.keypad := by
  cases hk : x.keypad with
  | none => rfl
  | some k =>
    rw [Context.entry_eq hk] at h
    simp [h]

theorem withoutOps_reader {x : Context} (h : x.capture = none) :
    (x.reader.map fun r =>
      if r.capture.isSome then { r with capture := none, seen := { t1 := false, t2 := false, t3 := false }, discarded := 0 } else r) = x.reader := by
  cases hr : x.reader with
  | none => rfl
  | some r =>
    rw [Context.capture_eq hr] at h
    simp [h]

theorem withoutOps_of_noOps {x : Context} (h : NoOps x) : withoutOps x = x := by
  rw [withoutOps, withoutOps_keypad h.entry, withoutOps_reader h.capture, map_sessionOff h.session, ← h.holder]

theorem Context.keypad_of_entry {x : Context} {e : Entry} (h : x.entry = some e) : ∃ k, x.keypad = some k ∧ k.entry = some e := by
  cases hk : x.keypad with
  | none => simp [Context.entry, hk] at h
  | some k => exact ⟨k, rfl, (Context.entry_eq hk).symm.trans h⟩

theorem Context.reader_of_capture {x : Context} {u : Capture} (h : x.capture = some u) : ∃ r, x.reader = some r ∧ r.capture = some u := by
  cases hr : x.reader with
  | none => simp [Context.capture, hr] at h
  | some r => exact ⟨r, rfl, (Context.capture_eq hr).symm.trans h⟩

theorem Part.endOps_of_entry {e : Entry} (he : (p.ctx c).entry = some e) (hu : (p.ctx c).capture = none) (hs : (p.ctx c).session = .off)
    (why : Cause) : p.endOps c why = p.endEntry c (.plain (.ended why)) := by
  have hctx := Part.ctx_endEntry he (.plain (.ended why))
  have hu' : ((p.endEntry c (.plain (.ended why))).ctx c).capture = none := by rw [hctx]; exact hu
  have hs' : ((p.endEntry c (.plain (.ended why))).ctx c).session = .off := by rw [hctx]; exact hs
  rw [Part.endOps, Part.endCapture_of_none hu', Part.cutSession_of_off hs']

theorem Part.endOps_of_capture {u : Capture} (he : (p.ctx c).entry = none) (hu : (p.ctx c).capture = some u) (hs : (p.ctx c).session = .off)
    (why : Cause) : p.endOps c why = p.endCapture c (.ended why) := by
  obtain ⟨r, hr, -⟩ := Context.reader_of_capture hu
  have hs' : ((p.endCapture c (.ended why)).ctx c).session = .off := by rw [Part.ctx_endCapture hu _ hr]; exact hs
  rw [Part.endOps, Part.endEntry_of_none he, Part.cutSession_of_off hs']

theorem Part.endOps_of_session (he : (p.ctx c).entry = none) (hu : (p.ctx c).capture = none) (why : Cause) :
    p.endOps c why = p.cutSession c (.ended why) (.ended why) (.ended why) := by
  rw [Part.endOps, Part.endEntry_of_none he, Part.endCapture_of_none hu]

variable (hops : OpsOk p.queue.reservations c (p.ctx c)) (why : Cause)
include hops

/-- The operation of a context, if any, has ended with a cause: what is left of the context (R57). -/
theorem Part.ctx_endOps : (p.endOps c why).ctx c = { withoutOps (p.ctx c) with lateBlock := (p.ctx c).lateAfter why } := by
  cases he : (p.ctx c).entry with
  | some e =>
    obtain ⟨hu, hs⟩ := hops.entry_alone (by rw [he]; rfl)
    obtain ⟨k, hk, hke⟩ := Context.keypad_of_entry he
    rw [Part.endOps_of_entry he hu hs, Part.ctx_endEntry he, Context.afterEntry_eq hk, withoutOps, withoutOps_reader hu, map_sessionOff hs]
    simp [hk, hke, Context.lateAfter, he, EntryEnding.plain, EntryEnding.abandons]
  | none =>
    cases hu : (p.ctx c).capture with
    | some u =>
      have hs := hops.capture_alone (by rw [hu]; rfl)
      obtain ⟨r, hr, hru⟩ := Context.reader_of_capture hu
      rw [Part.endOps_of_capture he hu hs, Part.ctx_endCapture hu _ hr, withoutOps, withoutOps_keypad he, map_sessionOff hs]
      simp [hr, hru, Context.lateAfter, he]
    | none =>
      rw [Part.endOps_of_session he hu, withoutOps, withoutOps_keypad he, withoutOps_reader hu]
      cases hc : (p.ctx c).chip with
      | none =>
        have hs := Context.session_none hc
        have hh := hops.holder_none.mpr ⟨he, hu, hs⟩
        rw [Part.cutSession_of_off hs]
        simp only [Context.lateAfter, he, ← hh, ← hc, map_sessionOff hs]
      | some h =>
        have hh : (if h.session = .off then (p.ctx c).holder else none) = none :=
          ite_eq_right_iff.mpr fun hs => hops.holder_none.mpr ⟨he, hu, (Context.session_eq hc).trans hs⟩
        rw [Part.ctx_cutSession hc, hh, Chip.cut_ended]
        simp [Context.lateAfter, he]

/-- The results of the operation, made from its reservations (R57, R99, R114, R131). -/
theorem Part.queue_endOps : (p.endOps c why).queue = endedOps c (p.ctx c) why p.queue := by
  unfold endedOps
  cases he : (p.ctx c).entry with
  | some e =>
    obtain ⟨hu, hs⟩ := hops.entry_alone (by rw [he]; rfl)
    rw [Part.endOps_of_entry he hu hs, Part.queue_endEntry he (hops.entry_mem he),
      Entry.result_eq e _ (.inl (by simp [EntryEnding.plain])) (by simp [EntryEnding.plain])]
    rfl
  | none =>
    cases hu : (p.ctx c).capture with
    | some u =>
      have hs := hops.capture_alone (by rw [hu]; rfl)
      rw [Part.endOps_of_capture he hu hs, Part.queue_endCapture hu (hops.capture_mem hu)]
    | none =>
      rw [Part.endOps_of_session he hu]
      cases hc : (p.ctx c).chip with
      | none => rw [Part.cutSession_of_off (Context.session_none hc)]
      | some h => exact Part.queue_cutSession hc hops _ _ _

/-- A context that leaves its state with its operation ended (R30, R54, R57, R116, R118). -/
theorem Part.moveTo_endOps (next : Attach) : ((p.endOps c why).ctx c).moveTo next = leftFor next (p.ctx c) := by
  rw [Part.ctx_endOps hops]
  by_cases ha : (p.ctx c).attach = .attached
  · rw [Context.moveTo, if_pos (by exact ha), leftFor, if_pos ha]
    rfl
  · have hn := hops.noOps_of_attach ha
    rw [withoutOps_of_noOps hn, Context.moveTo, if_neg (by exact ha), leftFor, if_neg ha]
    simp [Context.lateAfter, hn.entry]

end

section
variable (p : Part) (c : CtxId)

theorem Part.line_forgetArming_ne {m : LineId} (h : (p.ctx c).lineId ≠ some m) : (p.forgetArming c).line m = p.line m := by
  unfold Part.forgetArming
  split
  · rename_i l hl
    exact Part.line_modLine_ne _ _ fun hm => h (hm ▸ hl)
  · rfl

theorem Part.line_endEntry_ne {m : LineId} (h : (p.ctx c).lineId ≠ some m) (o : EntryEnding) : (p.endEntry c o).line m = p.line m := by
  unfold Part.endEntry
  split
  · rename_i e _
    rw [Part.line_forgetArming_ne]
    · simp
    · rw [Part.ctx_modCtx_self, Part.ctx_convert]
      exact h
  · rfl

theorem Part.line_endCapture' (o : CaptureOutcome) (m : LineId) : (p.endCapture c o).line m = p.line m := by
  unfold Part.endCapture
  split <;> simp

/-- An ending marks the slot in progress of its own line only (R87, log 24). -/
theorem Part.line_endOps_ne {m : LineId} (h : (p.ctx c).lineId ≠ some m) (why : Cause) : (p.endOps c why).line m = p.line m := by
  rw [Part.endOps, Part.line_cutSession, Part.line_endCapture', Part.line_endEntry_ne p c h]

end

/-! ### Contexts in turn -/

/-- The contexts of a list have gone to PARKED with their operations ended (R57). -/
structure Parks (why : Cause) (cs : List CtxId) (p q : Part) : Prop where
  ctx      : ∀ c, q.ctx c = if c ∈ cs then leftFor .parked (p.ctx c) else p.ctx c
  queue    : q.queue = endedAll p why cs p.queue
  position : ∀ i, q.position i = p.position i
  faults   : q.faults = p.faults
  link     : q.link = p.link

theorem endedAll_congr {p q : Part} {cs : List CtxId} (h : ∀ c ∈ cs, q.ctx c = p.ctx c) (why : Cause) (w : EventQueue) :
    endedAll q why cs w = endedAll p why cs w := by
  induction cs generalizing w with
  | nil => rfl
  | cons c cs ih =>
    simp only [endedAll, List.foldl_cons, h c List.mem_cons_self]
    exact ih (fun d hd => h d (List.mem_cons_of_mem _ hd)) _

theorem Parks.park {p : Part} (hp : OpsSound p) (c : CtxId) (why : Cause) :
    Parks why [c] p ((p.endOps c why).modCtx c fun x => x.moveTo .parked) := by
  have hends := Ends.endOps (p := p) (c := c) why
  refine ⟨fun d => ?_, ?_, fun i => ?_, ?_, ?_⟩
  · by_cases hd : d = c
    · subst hd
      simp [Part.moveTo_endOps (hp.ops d) why]
    · simp [hd, hends.ctx d hd]
  · simpa [endedAll] using Part.queue_endOps (hp.ops c) why
  · simpa using hends.position i
  · simpa using hends.faults
  · simpa using hends.link

theorem Parks.foldl {f : Part → CtxId → Part} {why : Cause} (hkeeps : ∀ q c, Keeps q (f q c)) (hparks : ∀ q c, OpsSound q → Parks why [c] q (f q c))
    (cs : List CtxId) (hn : cs.Nodup) (p : Part) (hp : OpsSound p) : Parks why cs p (cs.foldl f p) := by
  induction cs generalizing p with
  | nil => exact ⟨fun _ => rfl, rfl, fun _ => rfl, rfl, rfl⟩
  | cons c cs ih =>
    obtain ⟨hc, hn⟩ := List.nodup_cons.mp hn
    have h1 := hparks p c hp
    have h2 := ih hn (f p c) ((hkeeps p c).sound hp)
    have same {d : CtxId} (hd : d ≠ c) : (f p c).ctx d = p.ctx d := by rw [h1.ctx, if_neg (by simpa using hd)]
    refine ⟨fun d => ?_, ?_, fun i => (h2.position i).trans (h1.position i), h2.faults.trans h1.faults, h2.link.trans h1.link⟩
    · rw [List.foldl_cons, h2.ctx]
      by_cases hd : d = c
      · subst hd
        rw [if_neg hc, h1.ctx, if_pos List.mem_cons_self, if_pos List.mem_cons_self]
      · rw [same hd]
        simp [hd]
    · rw [List.foldl_cons, h2.queue, h1.queue, endedAll_congr fun d hd => same (by rintro rfl; exact hc hd)]
      rfl

/-! ### Slots that are quiet -/

/-- Between two slots every entry of the schedule is EMPTY. -/
theorem Line.quietBetween_iff {x : Line} {i j : Nat} :
    x.quietBetween i j = true ↔ ∀ n, i ≤ n → n < j → ∀ c, x.active[n]? ≠ some (some c) := by
  simp only [Line.quietBetween, List.all_eq_true, Option.isNone_iff_eq_none]
  constructor
  · intro h n hi hj c hc
    have hm : some c ∈ (x.active.take j).drop i := by
      refine List.mem_iff_getElem?.mpr ⟨n - i, ?_⟩
      rw [List.getElem?_drop, Nat.add_sub_of_le hi, List.getElem?_take_of_lt hj, hc]
    cases h _ hm
  · intro h e he
    obtain ⟨n, hn⟩ := List.mem_iff_getElem?.mp he
    rw [List.getElem?_drop, List.getElem?_take] at hn
    split at hn
    · cases e with
      | none => rfl
      | some c => exact absurd hn (h (i + n) (Nat.le_add_right ..) ‹_› c)
    · cases hn

theorem frameSent_iff {p : Part} {l : LineId} : ((p.line l).frameSent = true ∧ p.expiryDue l = false) ↔ FrameSent p l := by
  rw [Line.frameSent, Bool.and_eq_true, Line.quietBetween_iff, Part.expiryDue_eq_false, Option.isNone_iff_eq_none, and_assoc]

end Sys2Proof.Machine
end

section
/-! PROOFS. The frame mark: when it comes, and the count it makes (O52). -/

namespace Sys2Proof.Machine

open Sys2Proof.Safety

section
variable (p : Part) (l : LineId)

/-- A mark comes in the line's turn with no expiry due: after the frame has been sent, or with the end of its last slot (log 36). -/
theorem markNext_iff : ((p.line l).markInTurn = true ∧ p.expiryDue l = false) ↔ MarkNext p l := by
  have hdue := Part.expiryDue_eq_false (p := p) (l := l)
  simp only [Line.markInTurn, Bool.and_eq_true, decide_eq_true_eq, Bool.not_eq_true', MarkNext, and_assoc]
  refine and_congr_right fun _ => and_congr_right fun _ => ?_
  cases hs : (p.line l).inSlot with
  | none =>
    dsimp only
    rw [frameSent_iff]
    exact ⟨.inl, fun h => h.elim id fun ⟨_, _, _, run, hrun, _⟩ => by cases hrun⟩
  | some run =>
    have hpad : (p.line l).padded = false ↔ (p.line l).frameLen ≤ 16 + 32 * (p.line l).slots := by
      rw [Line.padded, rawLength]
      exact decide_eq_false_iff_not.trans Nat.not_lt
    simp only [Bool.and_eq_true, decide_eq_true_eq, Bool.not_eq_true', hpad, hdue]
    constructor
    · rintro ⟨⟨⟨hi, hn⟩, hp⟩, hd⟩
      exact .inr ⟨hd, hn, hp, run, rfl, hi⟩
    · rintro (⟨hnone, _⟩ | ⟨hd, hn, hp, run', hrun, hi⟩)
      · rw [hs] at hnone
        cases hnone
      · cases hrun
        exact ⟨⟨⟨hi, hn⟩, hp⟩, hd⟩

/-- The count of a mark (R10, R13). -/
def Part.counted : Part := (p.modLine l fun x => { x with frame := x.frame + 1, nextSlot := 0 }).tickLine l

theorem Part.ctx_tickLine (c : CtxId) : (p.tickLine l).ctx c = if (p.ctx c).lineId = some l then ticked (p.ctx c) else p.ctx c := by
  unfold Part.tickLine
  refine (Part.ctx_forContexts p c _ (fun d x => if x.lineId = some l then ticked x else x) ?_ ?_ ?_)
  · intro e q _
    simp only [Context.onLine_iff]
    split
    · simp only [Part.ctx_modCtx_self]
      rfl
    · rfl
  · intro e d q _ hne
    split <;> simp [hne]
  · intro e q m
    split <;> simp

theorem Part.tickLine_keeps {α : Type} (g : Part → α) (h : ∀ q c, g (Part.modCtx q c Context.tick) = g q) : g (p.tickLine l) = g p :=
  Part.forContexts_keeps _ _ g fun c q => by split; exact h q c; rfl

theorem counted_counted : Counted l p (p.counted l) := by
  refine ⟨?_, fun m hm => ?_, fun c => ?_, fun i => ?_, ?_, ?_, ?_⟩
  · rw [Part.counted, Part.tickLine_keeps _ l (fun q => q.line l) fun q c => by simp, Part.line_modLine_self]
  · rw [Part.counted, Part.tickLine_keeps _ l (fun q => q.line m) fun q c => by simp, Part.line_modLine_ne _ _ hm]
  · rw [Part.counted, Part.ctx_tickLine, Part.ctx_modLine]
  · rw [Part.counted, Part.tickLine_keeps _ l (fun q => q.position i) fun q c => by simp, Part.position_modLine]
  · rw [Part.counted, Part.tickLine_keeps _ l (fun q => q.queue) fun q c => by simp, Part.queue_modLine]
  · rw [Part.counted, Part.tickLine_keeps _ l (fun q => q.faults) fun q c => by simp, Part.faults_modLine]
  · rw [Part.counted, Part.tickLine_keeps _ l (fun q => q.link) fun q c => by simp, Part.link_modLine]

theorem Part.frameMark_of_next (h : MarkNext p l) (first : List Expiry) (order : MarkOrder) :
    p.frameMark l first order = (((p.counted l).expireFirst l first).markEvents l order).openFrame l := by
  obtain ⟨hturn, hdue⟩ := (markNext_iff p l).mpr h
  rw [Part.frameMark, hturn, hdue]
  rfl

theorem Part.frameMark_of_not_next (h : ¬ MarkNext p l) (first : List Expiry) (order : MarkOrder) : p.frameMark l first order = p := by
  rw [Part.frameMark, if_neg]
  rw [Bool.and_eq_true, Bool.not_eq_true']
  exact fun hn => h ((markNext_iff p l).mp hn)

/-- The next frame's slot calls are those of the active schedule (R3). -/
theorem Part.line_openFrame (hp : AddressesFit p) : (p.openFrame l).line l = { p.line l with calls := frameCalls p (p.line l).active } := by
  rw [Part.openFrame, Part.line_modLine_self, Part.slotCalls_eq hp]

end

theorem counted_profile {p q : Part} {l : LineId} (h : Counted l p q) (c : CtxId) : (q.ctx c).profile = (p.ctx c).profile := by
  obtain ⟨-, -, hctx, -⟩ := h
  rw [hctx]
  split <;> rfl

section
variable {p : Part} {l : LineId}

theorem Part.swapMark_of_none (h : (p.line l).waiting = none) : p.swapMark l = p := by rw [Part.swapMark, h]

theorem Part.testMark_of_noTest (h : (p.line l).loop.state = .noTest) : p.testMark l = p := by rw [Part.testMark, h]

theorem Part.expireFirst_nil (p : Part) (l : LineId) : p.expireFirst l [] = p := rfl

/-- With no schedule and no test the mark has no event but the count. -/
theorem Part.markEvents_of_none (hw : (p.line l).waiting = none) (ht : (p.line l).loop.state = .noTest) (order : MarkOrder) :
    p.markEvents l order = p := by
  cases order with
  | swapFirst => rw [Part.markEvents, Part.swapMark_of_none hw, Part.testMark_of_noTest ht]
  | testFirst => rw [Part.markEvents, Part.testMark_of_noTest ht, Part.swapMark_of_none hw]

end

theorem addressesFit_congr {p q : Part} (h : ∀ c, (q.ctx c).profile = (p.ctx c).profile) (hp : AddressesFit p) : AddressesFit q :=
  fun c pr hpr => hp c pr (h c ▸ hpr)

/-- Settles O52: with nothing pending on the line the events of the mark are the count and the calls of the next frame. -/
theorem frameMarkCounts : Obligations.FrameMarkCounts := by
  intro s l order haddr ln
  refine ⟨fun hnext hwait htest => ?_, fun hnot first => ?_⟩
  · have hcount := counted_counted s.part l
    have hprofile := counted_profile hcount
    obtain ⟨hline, hother, hctx, hpos, hqueue, hfaults, hlink⟩ := hcount
    have hwaiting : ((s.part.counted l).line l).waiting = none := by rw [hline]; exact hwait
    have hno : ((s.part.counted l).line l).loop.state = .noTest := by rw [hline]; exact htest
    have hevents := Part.markEvents_of_none hwaiting hno order
    refine ⟨(s.part.counted l).openFrame l, exec_of_effect rfl ?_, ?_, fun m hm => ?_, fun c => ?_, fun i => ?_, ?_, ?_, ?_⟩
    · rw [Part.frameMark_of_next _ _ hnext, Part.expireFirst_nil, hevents]
    · rw [Part.line_openFrame _ _ (addressesFit_congr hprofile haddr), frameCalls_congr hprofile, hline]
    · rw [Part.openFrame, Part.line_modLine_ne _ _ hm, hother m hm]
    · rw [Part.openFrame, Part.ctx_modLine, hctx]
    · rw [Part.openFrame, Part.position_modLine, hpos]
    · rw [Part.openFrame, Part.queue_modLine, hqueue]
    · rw [Part.openFrame, Part.faults_modLine, hfaults]
    · rw [Part.openFrame, Part.link_modLine, hlink]
  · exact exec_of_effect rfl (Part.frameMark_of_not_next _ _ hnot first order)

end Sys2Proof.Machine
end

section
/-! PROOFS. The events of a frame mark (O53): the swap to a pending schedule, and the Loop Tester's entry, check and end. -/

namespace Sys2Proof.Machine

open Sys2Proof.Safety

/-! ### The swap -/

section
variable (p : Part) (l : LineId)

theorem lineId_park (why : Cause) (c d : CtxId) : (((p.endOps c why).modCtx c fun x => x.moveTo .parked).ctx d).lineId = (p.ctx d).lineId := by
  have hends := Ends.endOps (p := p) (c := c) why
  by_cases hd : d = c
  · subst hd
    rw [Part.ctx_modCtx_self]
    exact (Context.lineId_congr (by unfold Context.moveTo; split <;> rfl)).trans (Context.lineId_congr hends.profile)
  · rw [Part.ctx_modCtx_ne _ _ hd, hends.ctx d hd]

theorem Parks.parkForSwap {p : Part} (hp : OpsSound p) (l : LineId) (c : CtxId) : Parks .unscheduled [c] p (p.parkForSwap l c) := by
  obtain ⟨hctx, hqueue, hpos, hfaults, hlink⟩ := Parks.park hp c .unscheduled
  exact ⟨fun d => by rw [Part.parkForSwap, Part.modLoop, Part.ctx_modLine, hctx], by rw [Part.parkForSwap, Part.modLoop, Part.queue_modLine, hqueue],
    fun i => by rw [Part.parkForSwap, Part.modLoop, Part.position_modLine, hpos], by rw [Part.parkForSwap, Part.modLoop, Part.faults_modLine, hfaults],
    by rw [Part.parkForSwap, Part.modLoop, Part.link_modLine, hlink]⟩

theorem lineId_parkForSwap (c d : CtxId) : ((p.parkForSwap l c).ctx d).lineId = (p.ctx d).lineId := by
  rw [Part.parkForSwap, Part.modLoop, Part.ctx_modLine, lineId_park]

/-- A pass over contexts of line l spares the other lines. -/
theorem line_foldl_ne {f : Part → CtxId → Part} {l m : LineId} (hf : ∀ q c, (q.ctx c).lineId = some l → (f q c).line m = q.line m)
    (hid : ∀ q c d, ((f q c).ctx d).lineId = (q.ctx d).lineId) (cs : List CtxId) (p : Part) (hcs : ∀ c ∈ cs, (p.ctx c).lineId = some l) :
    (cs.foldl f p).line m = p.line m := by
  induction cs generalizing p with
  | nil => rfl
  | cons c cs ih =>
    rw [List.foldl_cons, ih _ fun d hd => (hid p c d).trans (hcs d (List.mem_cons_of_mem _ hd)), hf p c (hcs c List.mem_cons_self)]

theorem line_parkForSwap_ne {l m : LineId} (hm : m ≠ l) {c : CtxId} (hc : (p.ctx c).lineId = some l) : (p.parkForSwap l c).line m = p.line m := by
  rw [Part.parkForSwap, Part.modLoop, Part.line_modLine_ne _ _ hm, Part.line_modCtx, Part.line_endOps_ne]
  rw [hc]
  exact fun h => hm (Option.some.inj h).symm

/-- The loop record of a participant that the swap parks is closed UNSCHEDULED (R26, R156). -/
def closedBy (p : Part) (cs : List CtxId) (r : LoopRecord) : LoopRecord :=
  if r.ctx ∈ cs ∧ (p.ctx r.ctx).attach = .looping then { r with finish := .unscheduled } else r

theorem closedBy_of {p : Part} {cs : List CtxId} {r : LoopRecord} (h : r.ctx ∈ cs) (ha : (p.ctx r.ctx).attach = .looping) :
    closedBy p cs r = { r with finish := .unscheduled } := if_pos ⟨h, ha⟩

theorem closedBy_of_not {p : Part} {cs : List CtxId} {r : LoopRecord} (h : r.ctx ∈ cs → (p.ctx r.ctx).attach ≠ .looping) :
    closedBy p cs r = r := if_neg fun hr => h hr.1 hr.2

/-- A line with its loop records changed, whatever its slot in progress is marked with. -/
theorem sansArming_records {x y : Line} (h : sansArming x = sansArming y) (f : LoopRecord → LoopRecord) :
    sansArming { x with loop := { x.loop with records := x.loop.records.map f } } =
    sansArming { y with loop := { y.loop with records := y.loop.records.map f } } := by
  have hloop : x.loop = y.loop := congrArg (fun z => z.loop) h
  have hmap := congrArg (fun z : Line => { z with loop := { z.loop with records := z.loop.records.map f } }) h
  exact hmap

theorem line_parkForSwap (c : CtxId) : sansArming ((p.parkForSwap l c).line l) =
    sansArming { p.line l with loop := { (p.line l).loop with records := (p.line l).loop.records.map (closedBy p [c]) } } := by
  have hline := (Ends.endOps (p := p) (c := c) .unscheduled).line l
  rw [← sansArming_records hline, Part.parkForSwap, Part.modLoop, Part.line_modLine_self, Part.line_modCtx]
  congr 1
  split
  · rename_i ha
    have hput : (fun r : LoopRecord => if r.ctx = c then { r with finish := .unscheduled } else r) = closedBy p [c] := by
      funext r
      by_cases hr : r.ctx = c
      · rw [if_pos hr, closedBy_of (List.mem_singleton.mpr hr) (hr ▸ ha)]
      · rw [if_neg hr, closedBy_of_not fun h => absurd (List.mem_singleton.mp h) hr]
    rw [LoopTester.put, hput]
  · rename_i ha
    have hid : closedBy p [c] = id := funext fun r => closedBy_of_not fun h => (List.mem_singleton.mp h).symm ▸ ha
    rw [hid, List.map_id]

theorem line_foldl_parkForSwap (cs : List CtxId) (hn : cs.Nodup) (p : Part) : sansArming ((cs.foldl (fun q c => q.parkForSwap l c) p).line l) =
    sansArming { p.line l with loop := { (p.line l).loop with records := (p.line l).loop.records.map (closedBy p cs) } } := by
  induction cs generalizing p with
  | nil =>
    have hid : closedBy p [] = id := funext fun r => closedBy_of_not nofun
    rw [hid, List.map_id]
    rfl
  | cons c cs ih =>
    obtain ⟨hc, hn⟩ := List.nodup_cons.mp hn
    rw [List.foldl_cons, ih hn, sansArming_records (line_parkForSwap p l c), List.map_map]
    have hcomp : closedBy (p.parkForSwap l c) cs ∘ closedBy p [c] = closedBy p (c :: cs) := by
      funext r
      have hctx : (closedBy p [c] r).ctx = r.ctx := by unfold closedBy; split <;> rfl
      have hattach : ((p.parkForSwap l c).ctx r.ctx).attach = if r.ctx = c then .parked else (p.ctx r.ctx).attach := by
        rw [Part.parkForSwap, Part.modLoop, Part.ctx_modLine]
        exact attach_park p .unscheduled c r.ctx
      rw [Function.comp_apply]
      by_cases hr : r.ctx = c
      · rw [closedBy_of_not fun h => absurd (hr ▸ hctx ▸ h) hc]
        simp [closedBy, hr]
      · rw [closedBy_of_not fun h => absurd (List.mem_singleton.mp h) hr]
        simp [closedBy, hr, hattach]
    rw [hcomp]

theorem ctx_foldl_gain (cs : List CtxId) (p : Part) (d : CtxId) :
    (cs.foldl (fun q c => q.modCtx c fun x => { x with attach := .waiting }) p).ctx d =
      if d ∈ cs then { p.ctx d with attach := .waiting } else p.ctx d := by
  induction cs generalizing p with
  | nil => rfl
  | cons c cs ih =>
    rw [List.foldl_cons, ih]
    by_cases hd : d = c
    · subst hd
      simp
    · simp [hd]

theorem Part.foldl_gain_keeps {α : Type} (g : Part → α) (h : ∀ q c f, g (Part.modCtx q c f) = g q) (cs : List CtxId) (p : Part) :
    g (cs.foldl (fun q c => q.modCtx c fun x => { x with attach := .waiting }) p) = g p := Part.foldl_same p g cs _ fun q c => h q c _

theorem ctx_swapped (new : Schedule) (c : CtxId) : (p.swapped l new).ctx c =
    if (p.ctx c).lineId = some l ∧ new.count (some c) ≠ (p.line l).active.count (some c) ∧ 0 < new.count (some c)
    then rescanned (p.ctx c) (p.line l).rate (p.line l).frameLen (new.count (some c)) else p.ctx c := by
  rw [Part.swapped, Part.ctx_modLine, Part.ctx_activate]
  rfl

end

/-- A choice among the contexts in ascending number, by its members. -/
theorem filter_allCtx {f g : CtxId → Bool} (h : ∀ c, f c = true ↔ c ∈ allCtx.filter g) : allCtx.filter f = allCtx.filter g := by
  refine List.filter_congr fun c _ => Bool.eq_iff_iff.mpr ((h c).trans ?_)
  simp [mem_allCtx]

/-- The swap of the mark (R25): the new schedule, the contexts that lose their slots with their results, those that gain one, and the notices. -/
theorem swapped_swapTo {p : Part} (hp : OpsSound p) {l : LineId} {new : Schedule} (hw : (p.line l).waiting = some new) :
    Swapped l p (p.swapTo l new) := by
  have hp1 : OpsSound (p.swapped l new) := (Keeps.swapped p l new).sound hp
  have hlose (c : CtxId) : c ∈ p.swapLosers l (p.line l).active new ↔
      (p.ctx c).lineId = some l ∧ 0 < (p.line l).active.count (some c) ∧ new.count (some c) = 0 ∧ (p.ctx c).attach ≠ .parked := by
    rw [mem_swapLosers, List.count_pos_iff, List.count_eq_zero]
  have hgain (c : CtxId) : c ∈ p.swapGainers l (p.line l).active new ↔
      (p.ctx c).lineId = some l ∧ (p.line l).active.count (some c) = 0 ∧ 0 < new.count (some c) ∧ (p.ctx c).attach = .parked := by
    rw [mem_swapGainers, List.count_pos_iff, List.count_eq_zero]
  have hline1 : (p.swapped l new).line l = { p.line l with active := new, waiting := none } := by rw [line_swapped, if_pos rfl]
  have hother1 {m : LineId} (hm : m ≠ l) : (p.swapped l new).line m = p.line m := by rw [line_swapped, if_neg hm]
  have hid (c : CtxId) : ((p.swapped l new).ctx c).lineId = (p.ctx c).lineId :=
    ((Shifts.activate p l new).trans (.modLine _ l fun x => { x with waiting := none })).ctx c |>.lineId
  have hattach (c : CtxId) : ((p.swapped l new).ctx c).attach = (p.ctx c).attach := attach_swapped p l new c
  generalize hls : p.swapLosers l (p.line l).active new = losers at hlose
  generalize hgs : p.swapGainers l (p.line l).active new = gainers at hgain
  have hnl : losers.Nodup := hls ▸ (List.Pairwise.filter _ (List.Pairwise.filter _ (by decide)))
  have hsame {c : CtxId} (hc : c ∈ losers) : (p.swapped l new).ctx c = p.ctx c := by
    rw [ctx_swapped, if_neg]
    rintro ⟨-, -, hpos⟩
    rw [((hlose c).mp hc).2.2.1] at hpos
    exact absurd hpos (Nat.lt_irrefl _)
  have hparks := Parks.foldl (f := fun q c => q.parkForSwap l c) (why := .unscheduled) (fun q c => .parkForSwap q l c)
    (fun q c hq => .parkForSwap hq l c) losers hnl (p.swapped l new) hp1
  have hlines2 := line_foldl_parkForSwap l losers hnl (p.swapped l new)
  have hlines2' {m : LineId} (hm : m ≠ l) := line_foldl_ne (l := l) (m := m) (fun q c hc => line_parkForSwap_ne q hm hc)
    (fun q c d => lineId_parkForSwap q l c d) losers (p.swapped l new) fun c hc => by rw [hid]; exact ((hlose c).mp hc).1
  generalize hq : losers.foldl (fun q c => q.parkForSwap l c) (p.swapped l new) = q at hparks hlines2 hlines2'
  have hctx2 (c : CtxId) : q.ctx c = if c ∈ losers then leftFor .parked (p.ctx c) else (p.swapped l new).ctx c := by
    rw [hparks.ctx]
    exact ite_congr rfl (fun hc => by rw [hsame hc]) fun _ => rfl
  generalize hr : gainers.foldl (fun q c => q.modCtx c fun x => { x with attach := .waiting }) q = r
  have hctx3 (c : CtxId) : r.ctx c = if c ∈ gainers then { q.ctx c with attach := .waiting } else q.ctx c := by rw [← hr, ctx_foldl_gain]
  have hline3 (m : LineId) : r.line m = q.line m := by rw [← hr, Part.foldl_gain_keeps (fun q => q.line m) fun q c f => by simp]
  have hswap : p.swapTo l new = r.offerAll (r.swapNotices l losers gainers) := by
    rw [← hr, ← hq, ← hls, ← hgs]
    rfl
  simp only [Swapped, hw, decide_eq_true_eq, ← hlose, ← hgain, hswap, Part.line_offerAll, Part.ctx_offerAll,
    Part.link_offerAll, hline3]
  refine ⟨?_, fun m hm => ?_, fun c => ?_, fun i => ?_, ?_, ?_⟩
  · have hclosed : closedBy (p.swapped l new) losers = closedBy p losers := funext fun r => by simp only [closedBy, hattach]
    rw [hlines2, hline1, hclosed]
    rfl
  · rw [hlines2' hm, hother1 hm]
  · rw [hctx3, hctx2, ctx_swapped]
    by_cases hc : (p.ctx c).lineId = some l
    · have hdisjoint : c ∈ losers → c ∉ gainers := fun h1 h2 => ((hlose c).mp h1).2.2.2 ((hgain c).mp h2).2.2.2
      by_cases h1 : c ∈ losers
      · simp [hc, h1, hdisjoint h1]
      · by_cases h2 : c ∈ gainers <;> simp [hc, h1, h2]
    · have h1 : c ∉ losers := fun h => hc ((hlose c).mp h).1
      have h2 : c ∉ gainers := fun h => hc ((hgain c).mp h).1
      simp [hc, h1, h2]
  · rw [Part.position_offerAll, ← hr, Part.foldl_gain_keeps (fun q => q.position i) fun q c f => by simp, hparks.position]
    simp [Part.swapped]
  · rw [← hr, Part.foldl_gain_keeps (fun q => q.link) fun q c f => by simp, hparks.link]
    simp [Part.swapped]
  · have hlist : (allCtx.filter fun c => decide (c ∈ losers)) = losers := by
      rw [← hls, Part.swapLosers, Part.contextsOn, List.filter_filter]
      exact filter_allCtx fun c => by rw [decide_eq_true_iff]
    have hids (c : CtxId) : (r.ctx c).lineId = (p.ctx c).lineId ∧ (r.ctx c).profile = (p.ctx c).profile := by
      have hmoves := ((moves_swapTo p l new).ctx c).profile
      rw [hswap, Part.ctx_offerAll] at hmoves
      have hprofile := hmoves.trans (((Shifts.activate p l new).trans (.modLine _ l fun x => { x with waiting := none })).ctx c).profile
      exact ⟨Context.lineId_congr hprofile, hprofile⟩
    have hqueue : r.queue = endedAll p .unscheduled losers p.queue := by
      rw [← hr, Part.foldl_gain_keeps (fun q => q.queue) fun q c f => by simp, hparks.queue, endedAll_congr fun c hc => hsame hc]
      simp [Part.swapped]
    have hfaults : r.faults = p.faults := by
      rw [← hr, Part.foldl_gain_keeps (fun q => q.faults) fun q c f => by simp, hparks.faults]
      simp [Part.swapped]
    have hwho : (r.contextsOn l).filter (fun c => losers.contains c || gainers.contains c) =
        allCtx.filter fun c => decide (c ∈ losers) || decide (c ∈ gainers) := by
      rw [Part.contextsOn, List.filter_filter]
      refine List.filter_congr fun c _ => ?_
      by_cases hc : (p.ctx c).lineId = some l
      · simp [(Context.onLine_iff l _).mpr ((hids c).1.trans hc)]
      · have h1 : c ∉ losers := fun h => hc ((hlose c).mp h).1
        have h2 : c ∉ gainers := fun h => hc ((hgain c).mp h).1
        simp [h1, h2]
    have hnotices : r.swapNotices l losers gainers = (allCtx.filter fun c => decide (c ∈ losers) || decide (c ∈ gainers)).map fun c =>
        if c ∈ losers then swapNotice p l c .parked .unscheduled else swapNotice p l c .waiting .scheduled := by
      rw [Part.swapNotices, hwho]
      refine List.map_congr_left fun c hc => ?_
      have hmem : c ∈ losers ∨ c ∈ gainers := by simpa using (List.mem_filter.mp hc).2
      have hline : (p.ctx c).lineId = some l := hmem.elim (fun h => ((hlose c).mp h).1) fun h => ((hgain c).mp h).1
      have hst : (r.ctx c).attach = if c ∈ losers then .parked else .waiting := by
        rw [← Part.ctx_offerAll (rs := r.swapNotices l losers gainers), ← hswap, attach_swapTo, hls, hgs]
        by_cases h1 : c ∈ losers
        · rw [if_neg fun h2 => ((hlose c).mp h1).2.2.2 ((hgain c).mp h2).2.2.2, if_pos h1, if_pos h1]
        · rw [if_pos (hmem.resolve_left h1), if_neg h1]
      have haddress : (match (p.ctx c).profile with | some pr => pr.address | none => 0) = ((p.ctx c).profile.map (·.address)).getD 0 := by
        cases (p.ctx c).profile <;> rfl
      simp only [Part.dropNotice, hst, (hids c).1, (hids c).2, hline, List.contains_iff_mem, swapNotice, ← haddress]
      by_cases h1 : c ∈ losers
      · simp only [h1, if_true]
        rfl
      · simp only [h1, if_false]
        rfl
    rw [hlist, ← hnotices]
    exact Part.offerAll_congr _ hqueue hfaults

theorem swapped_swapMark {p : Part} (hp : OpsSound p) (l : LineId) : Swapped l p (p.swapMark l) := by
  cases hw : (p.line l).waiting with
  | none =>
    rw [Part.swapMark_of_none hw]
    simp only [Swapped, hw]
  | some new =>
    have h := swapped_swapTo hp hw
    rwa [show p.swapMark l = p.swapTo l new from by rw [Part.swapMark, hw]]

/-! ### The Loop Tester's event -/

section
variable {p : Part} {l : LineId} {set : LoopSetup} (hset : (p.line l).loop.setup = some set)
include hset

theorem check_eq : (p.line l).loop.check = testCheck (p.line l).loop set := by
  have hfin : ((p.line l).loop.records.all fun r => r.finish != .running) = true ↔ ∀ r ∈ (p.line l).loop.records, r.finish ≠ .running := by
    simp [List.all_eq_true]
  simp only [LoopTester.check, testCheck, hset, Bool.or_eq_true, Bool.and_eq_true, List.isEmpty_iff, beq_iff_eq, Bool.not_eq_true', hfin] <;> rfl

theorem mem_participants {c : CtxId} : c ∈ p.participants l ↔
    (p.ctx c).lineId = some l ∧ (p.ctx c).attach = .attached ∧ ∀ cs ∈ set.participants, c ∈ cs := by
  simp only [Part.participants, List.mem_filter, Part.mem_contextsOn, Bool.and_eq_true, beq_iff_eq, hset, Option.bind_some]
  refine and_congr_right fun _ => and_congr_right fun _ => ?_
  cases set.participants <;> simp

end

theorem leftFor_of_noOps {x : Context} (h : NoOps x) (ha : x.attach = .attached) (next : Attach) : x.leaveAttached next = leftFor next x := by
  rw [leftFor, if_pos ha, withoutOps_of_noOps h]
  rfl

theorem ctx_foldl_leave (cs : List CtxId) (hn : cs.Nodup) (p : Part) (d : CtxId) :
    (cs.foldl (fun q c => q.modCtx c fun x => x.leaveAttached .looping) p).ctx d =
      if d ∈ cs then (p.ctx d).leaveAttached .looping else p.ctx d := by
  induction cs generalizing p with
  | nil => rfl
  | cons c cs ih =>
    obtain ⟨hc, hn⟩ := List.nodup_cons.mp hn
    rw [List.foldl_cons, ih hn]
    by_cases hd : d = c
    · subst hd
      simp [hc]
    · simp [hd]

section
variable {p : Part} {l : LineId} {set : LoopSetup} (hp : OpsSound p) (hset : (p.line l).loop.setup = some set)
include hp hset

/-- The entry of a test (R155): the line is in TEST, its participants are LOOPING with fresh records. -/
theorem tested_enterTest (ha : (p.line l).loop.state = .accepted) : Tested l p (p.enterTest l) := by
  have hne : (p.line l).loop.state ≠ .noTest := by rw [ha]; nofun
  have hwho : p.participants l = allCtx.filter fun c =>
      decide ((p.ctx c).lineId = some l ∧ (p.ctx c).attach = .attached ∧ ∀ cs ∈ set.participants, c ∈ cs) := by
    have hfilter : p.participants l = allCtx.filter fun c => decide (c ∈ p.participants l) := by
      rw [Part.participants, Part.contextsOn, List.filter_filter]
      exact (filter_allCtx fun c => decide_eq_true_iff).symm
    rw [hfilter]
    exact List.filter_congr fun c _ => decide_eq_decide.mpr (mem_participants hset)
  have hnodup : (p.participants l).Nodup := hwho ▸ List.Pairwise.filter _ (by decide)
  generalize hq : (p.participants l).foldl (fun q c => q.modCtx c fun x => x.leaveAttached .looping) p = q
  have same {α : Type} (g : Part → α) (h : ∀ q c f, g (Part.modCtx q c f) = g q) : g q = g p := by
    rw [← hq]
    exact Part.foldl_same p g _ _ fun q c => h q c _
  have hctx (c : CtxId) : q.ctx c = if c ∈ p.participants l then leftFor .looping (p.ctx c) else p.ctx c := by
    rw [← hq, ctx_foldl_leave _ hnodup]
    refine ite_congr rfl (fun hc => ?_) fun _ => rfl
    obtain ⟨hline, hatt, -⟩ := (mem_participants hset).mp hc
    exact leftFor_of_noOps ((hp.ops c).noOps (hp.loopQuiet l hne c hline)) hatt _
  have henter : p.enterTest l = (q.modLine l fun x => { x with
      state := .test, loop := { x.loop with state := .inTest, entryFrame := some x.frame, records := (p.participants l).map p.loopRecord } }).offer
      (lineNotice l .test .testEntered) := by
    rw [← hq]
    rfl
  refine ⟨fun h => absurd h hne, fun set' hset' => ?_⟩
  cases hset.symm.trans hset'
  refine ⟨fun _ => ⟨?_, fun c => ?_, ⟨fun m hm => ?_, fun i => ?_, ?_⟩, ?_⟩, fun h => ?_⟩
  · rw [henter, Part.line_offer, Part.line_modLine_self, same (fun q => q.line l) fun q c f => by simp, hwho]
    have hrecord : p.loopRecord = fun c =>
        { ctx := c, address := ((p.ctx c).profile.map (·.address)).getD 0, slot := 0, passes := 0, finish := .running, error := none } := by
      funext c
      rw [Part.loopRecord]
      cases (p.ctx c).profile <;> rfl
    rw [hrecord]
  · rw [henter, Part.ctx_offer, Part.ctx_modLine, hctx]
    exact ite_of_iff ((mem_participants hset).trans decide_eq_true_iff.symm)
  · rw [henter, Part.line_offer, Part.line_modLine_ne _ _ hm, same (fun q => q.line m) fun q c f => by simp]
  · rw [henter, Part.position_offer, Part.position_modLine, same (fun q => q.position i) fun q c f => by simp]
  · rw [henter, Part.link_offer, Part.link_modLine, same (fun q => q.link) fun q c f => by simp]
  · rw [henter]
    exact Part.offerAll_congr [lineNotice l .test .testEntered] (by rw [Part.queue_modLine, same (fun q => q.queue) fun q c f => by simp])
      (by rw [Part.faults_modLine, same (fun q => q.faults) fun q c f => by simp])
  · rw [ha] at h
    rcases h with h | h <;> cases h

/-- The end of a test (R160): its result, its contexts to WAITING, the line to RUN. -/
theorem endTest_ends (hne : (p.line l).loop.state ≠ .noTest) (o : LoopOutcome) :
    (p.endTest l o).line l = { p.line l with state := .run, loop := testOver (p.line l).loop (testBody (p.line l) set o) } ∧
    (∀ c, (p.endTest l o).ctx c =
      if (p.ctx c).lineId = some l ∧ (p.ctx c).attach = .looping then { p.ctx c with attach := .waiting } else p.ctx c) ∧
    ((∀ m, m ≠ l → (p.endTest l o).line m = p.line m) ∧ SamePositions p (p.endTest l o) ∧ (p.endTest l o).link = p.link) ∧
    Offered [lineRecord l .run .testEnded]
      { p with queue := converted p.queue (.loop l) none none (some l) (.loop (testBody (p.line l) set o)) } (p.endTest l o) := by
  have hmem := hp.loop_mem hne
  have hbody : (p.line l).loopBody o = testBody (p.line l) set o := by simp [Line.loopBody, testBody, hset]
  have hline := Part.line_loopResult (p := p) (l := l) o
  generalize hq : (p.loopResult l o).forContexts (fun c q =>
    if (q.ctx c).onLine l ∧ (q.ctx c).attach = .looping then q.modCtx c fun x => { x with attach := .waiting } else q) = q
  have same {α : Type} (g : Part → α) (h : ∀ q c f, g (Part.modCtx q c f) = g q) : g q = g (p.loopResult l o) := by
    rw [← hq]
    exact Part.forContexts_keeps _ _ g fun c q => by split; exact h q c _; rfl
  have hctx (c : CtxId) : q.ctx c =
      if (p.ctx c).lineId = some l ∧ (p.ctx c).attach = .looping then { p.ctx c with attach := .waiting } else p.ctx c := by
    rw [← hq, Part.ctx_forContexts (p.loopResult l o) c _ fun d x =>
      if x.lineId = some l ∧ x.attach = .looping then { x with attach := .waiting } else x]
    · rw [Part.ctx_loopResult]
    · intro e q _
      simp only [Context.onLine_iff]
      split <;> simp
    · intro e d q _ hne
      split <;> simp [hne]
    · intro e q m
      split <;> simp
  have hend : p.endTest l o = (q.modLine l fun x => { x with state := .run }).offer (lineNotice l .run .testEnded) := by
    rw [← hq]
    rfl
  have hlines (m : LineId) : q.line m = (p.loopResult l o).line m := same (fun q => q.line m) fun q c f => by simp
  refine ⟨?_, fun c => ?_, ⟨fun m hm => ?_, fun i => ?_, ?_⟩, ?_⟩
  · rw [hend, Part.line_offer, Part.line_modLine_self, hlines, hline, if_pos rfl, hbody]
    rfl
  · rw [hend, Part.ctx_offer, Part.ctx_modLine, hctx]
  · rw [hend, Part.line_offer, Part.line_modLine_ne _ _ hm, hlines, hline, if_neg hm]
  · rw [hend, Part.position_offer, Part.position_modLine, same (fun q => q.position i) fun q c f => by simp]
    simp [Part.loopResult, Part.modLoop]
  · rw [hend, Part.link_offer, Part.link_modLine, same (fun q => q.link) fun q c f => by simp]
    simp [Part.loopResult, Part.modLoop]
  · rw [hend]
    refine Part.offerAll_congr [lineNotice l .run .testEnded] ?_ ?_
    · rw [Part.queue_modLine, same (fun q => q.queue) fun q c f => by simp, Part.queue_loopResult hmem, hbody]
    · rw [Part.faults_modLine, same (fun q => q.faults) fun q c f => by simp]
      simp [Part.loopResult, Part.modLoop]

end

/-- A test that runs is checked, and ends or goes on (R158). -/
theorem tested_check {p : Part} (hp : OpsSound p) {l : LineId} (hn : (p.line l).loop.state ≠ .noTest) (ha : (p.line l).loop.state ≠ .accepted) :
    Tested l p (p.testMark l) := by
  have hmark : p.testMark l = match (p.line l).loop.check with | some o => p.endTest l o | none => p := by
    unfold Part.testMark
    split
    · exact absurd ‹_› hn
    · exact absurd ‹_› ha
    · rfl
  refine ⟨fun h => absurd h hn, fun set hset => ⟨fun h => absurd h ha, fun _ => ?_⟩⟩
  rw [hmark, check_eq hset]
  cases testCheck (p.line l).loop set with
  | none => rfl
  | some o => exact endTest_ends hp hset hn o

theorem tested_testMark {p : Part} (hp : OpsSound p) (l : LineId) : Tested l p (p.testMark l) := by
  cases hs : (p.line l).loop.state with
  | noTest =>
    rw [Part.testMark_of_noTest hs]
    refine ⟨fun _ => rfl, fun set _ => ⟨fun h => ?_, fun h => ?_⟩⟩
    · rw [hs] at h
      cases h
    · rw [hs] at h
      rcases h with h | h <;> cases h
  | accepted =>
    have hmark : p.testMark l = p.enterTest l := by rw [Part.testMark, hs]
    rw [hmark]
    refine ⟨fun h => ?_, fun set hset => (tested_enterTest hp hset hs).2 set hset⟩
    rw [hs] at h
    cases h
  | inTest => exact tested_check hp (by rw [hs]; nofun) (by rw [hs]; nofun)
  | stopRequested => exact tested_check hp (by rw [hs]; nofun) (by rw [hs]; nofun)

/-! ### The mark -/

theorem expired_expireFirst (l : LineId) (first : List Expiry) (p : Part) : Expired l first p (p.expireFirst l first) := by
  induction first generalizing p with
  | nil => rfl
  | cons x xs ih =>
    have htarget : (expiryCommand x).2 = expiryTarget x := by cases x <;> rfl
    have hexec : exec (expiryCommand x).1 { part := p, pending := [] } = .next { part := p.expire x, pending := [] } := by cases x <;> rfl
    refine ⟨_, ih _, ?_⟩
    simp only [htarget, Context.onLine_iff]
    split
    · exact hexec
    · rfl

theorem profile_swapMark (p : Part) (l : LineId) (c : CtxId) : ((p.swapMark l).ctx c).profile = (p.ctx c).profile := by
  unfold Part.swapMark
  split
  · exact ((Shifts.swapTo p l _).ctx c).profile
  · rfl

theorem profile_endTest (p : Part) (l : LineId) (o : LoopOutcome) (c : CtxId) : ((p.endTest l o).ctx c).profile = (p.ctx c).profile := by
  simp only [Part.endTest, Part.ctx_offer, Part.ctx_modLine]
  rw [Part.forContexts_keeps _ _ (fun q => (q.ctx c).profile) fun d q => ?_, Part.ctx_loopResult]
  split
  · by_cases hd : c = d
    · subst hd
      simp
    · simp [hd]
  · rfl

theorem profile_enterTest (p : Part) (l : LineId) (c : CtxId) : ((p.enterTest l).ctx c).profile = (p.ctx c).profile := by
  simp only [Part.enterTest, Part.ctx_offer, Part.ctx_modLine]
  refine Part.foldl_same p (fun q => (q.ctx c).profile) _ _ fun q d => ?_
  by_cases hd : c = d
  · subst hd
    rw [Part.ctx_modCtx_self]
    rfl
  · rw [Part.ctx_modCtx_ne _ _ hd]

theorem profile_testMark (p : Part) (l : LineId) (c : CtxId) : ((p.testMark l).ctx c).profile = (p.ctx c).profile := by
  unfold Part.testMark
  split
  · rfl
  · exact profile_enterTest ..
  · split
    · exact profile_endTest ..
    · rfl

/-- Settles O53: the events of the mark one after another, each on a part in which operations, holders and reservations are in step. -/
theorem markChangesAttachment : Obligations.MarkChangesAttachment := by
  intro s l first order hsound haddr hnext
  have hp := operationsSound_iff.mp hsound
  have hcounted := counted_counted s.part l
  have hp0 : OpsSound (s.part.counted l) := (Keeps.trans (.sameTest rfl rfl) (.tickLine ..)).sound hp
  have hp1 : OpsSound ((s.part.counted l).expireFirst l first) := (Keeps.expireFirst _ l first).sound hp0
  have haddr1 : AddressesFit ((s.part.counted l).expireFirst l first) :=
    addressesFit_congr (fun c => ((Serves.expireFirst _ l first).ctx c).profile.trans (counted_profile hcounted c)) haddr
  have hmark := Part.frameMark_of_next s.part l hnext first order
  have hexpired := expired_expireFirst l first (s.part.counted l)
  generalize (s.part.counted l).expireFirst l first = p1 at *
  have hopen {p3 : Part} (haddr3 : AddressesFit p3) : (p3.openFrame l).line l = { p3.line l with calls := frameCalls p3 (p3.line l).active } ∧
      (∀ m, m ≠ l → (p3.openFrame l).line m = p3.line m) ∧ SameContexts p3 (p3.openFrame l) ∧ SamePositions p3 (p3.openFrame l) ∧
      (p3.openFrame l).queue = p3.queue ∧ (p3.openFrame l).faults = p3.faults ∧ (p3.openFrame l).link = p3.link :=
    ⟨Part.line_openFrame _ _ haddr3, fun m hm => Part.line_modLine_ne _ _ hm, fun c => Part.ctx_modLine .., fun i => Part.position_modLine ..,
      Part.queue_modLine .., Part.faults_modLine .., Part.link_modLine ..⟩
  cases order with
  | swapFirst =>
    have hp2 := (Keeps.swapMark p1 l).sound hp1
    exact ⟨_, p1, _, _, _, exec_of_effect rfl hmark, hcounted, hexpired, ⟨swapped_swapMark hp1 l, tested_testMark hp2 l⟩,
      hopen (addressesFit_congr (fun c => (profile_testMark ..).trans (profile_swapMark ..)) haddr1)⟩
  | testFirst =>
    have hp2 := (Keeps.testMark p1 l).sound hp1
    exact ⟨_, p1, _, _, _, exec_of_effect rfl hmark, hcounted, hexpired, ⟨tested_testMark hp1 l, swapped_swapMark hp2 l⟩,
      hopen (addressesFit_congr (fun c => (profile_swapMark ..).trans (profile_testMark ..)) haddr1)⟩

end Sys2Proof.Machine
end

section
/-! PROOFS. A line enters IDLE (O54): its test aborted, its contexts parked with their results, its pending schedule active. -/

namespace Sys2Proof.Machine

open Sys2Proof.Safety

section
variable {p : Part} {l : LineId}

/-! ### The test -/

/-- The Event Queue after the test of the line, if any, has ended ABORTED (R160). -/
def abortedQueue (p : Part) (l : LineId) (set : LoopSetup) : EventQueue :=
  if (p.line l).loop.state = .noTest then p.queue
  else converted p.queue (.loop l) none none (some l) (.loop (testBody (p.line l) set .aborted))

/-- The Loop Tester after that. -/
def abortedLoop (x : Line) (set : LoopSetup) : LoopTester :=
  if x.loop.state = .noTest then x.loop else testOver x.loop (testBody x set .aborted)

theorem abortTest_aborts (hp : OpsSound p) {set : LoopSetup} (hset : (p.line l).loop.state ≠ .noTest → (p.line l).loop.setup = some set) :
    (p.abortTest l).line l = { p.line l with loop := abortedLoop (p.line l) set } ∧ (∀ m, m ≠ l → (p.abortTest l).line m = p.line m) ∧
    (p.abortTest l).queue = abortedQueue p l set ∧ SamePositions p (p.abortTest l) ∧ (p.abortTest l).faults = p.faults ∧
    (p.abortTest l).link = p.link := by
  by_cases hn : (p.line l).loop.state = .noTest
  · have habort : p.abortTest l = p := if_pos hn
    rw [habort, abortedLoop, abortedQueue, if_pos hn, if_pos hn]
    exact ⟨rfl, fun _ _ => rfl, rfl, fun _ => rfl, rfl, rfl⟩
  · have habort : p.abortTest l = p.loopResult l .aborted := if_neg hn
    have hbody : (p.line l).loopBody .aborted = testBody (p.line l) set .aborted := by simp [Line.loopBody, testBody, hset hn]
    have hline := Part.line_loopResult (p := p) (l := l) .aborted
    rw [hbody] at hline
    rw [habort, abortedLoop, abortedQueue, if_neg hn, if_neg hn]
    refine ⟨by rw [hline, if_pos rfl]; rfl, fun m hm => by rw [hline, if_neg hm], ?_, fun i => ?_, ?_, ?_⟩
    · rw [Part.queue_loopResult (hp.loop_mem hn), hbody]
    · simp [Part.loopResult, Part.modLoop]
    · simp [Part.loopResult, Part.modLoop]
    · simp [Part.loopResult, Part.modLoop]

/-! ### The contexts -/

/-- A pass over the contexts of a line is one over a list fixed at its start, when no turn changes the line of a context. -/
theorem forContexts_onLine {f : Part → CtxId → Part} (hid : ∀ q c d, ((f q c).ctx d).lineId = (q.ctx d).lineId) (p : Part) (l : LineId) :
    (p.forContexts fun c q => if (q.ctx c).onLine l then f q c else q) = (p.contextsOn l).foldl f p := by
  have key (cs : List CtxId) (q : Part) : cs.foldl (fun q c => if (q.ctx c).onLine l then f q c else q) q =
      (cs.filter fun c => (q.ctx c).onLine l).foldl f q := by
    induction cs generalizing q with
    | nil => rfl
    | cons c cs ih =>
      rw [List.foldl_cons, ih]
      by_cases hc : (q.ctx c).onLine l
      · have hsame : (fun d => ((f q c).ctx d).onLine l) = fun d => (q.ctx d).onLine l := funext fun d => by simp only [Context.onLine, hid]
        rw [if_pos hc, hsame, List.filter_cons, if_pos hc, List.foldl_cons]
      · rw [if_neg hc, List.filter_cons, if_neg hc]
  exact key allCtx p

theorem parkLine_parks (hp : OpsSound p) (why : Cause) : Parks why (p.contextsOn l) p (p.parkLine l why) ∧
    sansArming ((p.parkLine l why).line l) = sansArming (p.line l) ∧ ∀ m, m ≠ l → (p.parkLine l why).line m = p.line m := by
  have hfold : p.parkLine l why = (p.contextsOn l).foldl (fun q c => q.parkForIdle why c) p :=
    forContexts_onLine (f := fun q c => q.parkForIdle why c) (fun q c d => lineId_park q why c d) p l
  rw [hfold]
  refine ⟨Parks.foldl (fun q c => .park q why c) (fun q c hq => .park hq c why) _ (List.Pairwise.filter _ (by decide)) p hp, ?_, fun m hm => ?_⟩
  · refine Part.foldl_same p (fun q => sansArming (q.line l)) _ _ fun q c => ?_
    show sansArming (((q.endOps c why).modCtx c fun x => x.moveTo .parked).line l) = _
    rw [Part.line_modCtx, (Ends.endOps (p := q) (c := c) why).line l]
  · refine line_foldl_ne (l := l) (fun q c hc => ?_) (fun q c d => lineId_park q why c d) _ p fun c hc => Part.mem_contextsOn.mp hc
    show ((q.endOps c why).modCtx c fun x => x.moveTo .parked).line m = _
    rw [Part.line_modCtx, Part.line_endOps_ne]
    rw [hc]
    exact fun h => hm (Option.some.inj h).symm

/-! ### The schedule -/

theorem activateWaiting_activates (p : Part) (l : LineId) :
    (p.activateWaiting l).line l = { p.line l with active := (p.line l).waiting.getD (p.line l).active, waiting := none } ∧
    (∀ m, m ≠ l → (p.activateWaiting l).line m = p.line m) ∧
    (∀ c, (p.activateWaiting l).ctx c =
      let active := (p.line l).waiting.getD (p.line l).active
      if (p.ctx c).lineId = some l ∧ active.count (some c) ≠ (p.line l).active.count (some c) ∧ 0 < active.count (some c)
      then rescanned (p.ctx c) (p.line l).rate (p.line l).frameLen (active.count (some c)) else p.ctx c) ∧
    SamePositions p (p.activateWaiting l) ∧ (p.activateWaiting l).queue = p.queue ∧ (p.activateWaiting l).faults = p.faults ∧
    (p.activateWaiting l).link = p.link := by
  unfold Part.activateWaiting
  cases hw : (p.line l).waiting with
  | none =>
    refine ⟨?_, fun _ _ => rfl, fun c => ?_, fun _ => rfl, rfl, rfl, rfl⟩
    · show p.line l = { p.line l with active := (p.line l).active, waiting := none }
      rw [← hw]
    · simp
  | some new =>
    refine ⟨?_, fun m hm => ?_, fun c => ?_, fun i => ?_, ?_, ?_, ?_⟩
    · simp
    · simp [hm]
    · exact ctx_swapped p l new c
    all_goals simp

/-! ### The line -/

/-- A line enters IDLE (R16 to R19): what is left of it, of its contexts and of the queue. -/
theorem enterIdle_idles (hp : OpsSound p) {set : LoopSetup} (hset : (p.line l).loop.state ≠ .noTest → (p.line l).loop.setup = some set)
    (why : LineReason) :
    (p.enterIdle l why).line l = { p.line l with
      state := .idle, stopPending := false, active := (p.line l).waiting.getD (p.line l).active, waiting := none, calls := [], nextSlot := 0
      inSlot := none, loop := abortedLoop (p.line l) set } ∧
    (∀ m, m ≠ l → (p.enterIdle l why).line m = p.line m) ∧
    (∀ c, (p.enterIdle l why).ctx c =
      if (p.ctx c).lineId = some l then
        let active := (p.line l).waiting.getD (p.line l).active
        if active.count (some c) ≠ (p.line l).active.count (some c) ∧ 0 < active.count (some c)
        then rescanned (leftFor .parked (p.ctx c)) (p.line l).rate (p.line l).frameLen (active.count (some c)) else leftFor .parked (p.ctx c)
      else p.ctx c) ∧
    SamePositions p (p.enterIdle l why) ∧
    (p.enterIdle l why).queue = endedAll p why.cause (p.contextsOn l) (abortedQueue p l set) ∧
    (p.enterIdle l why).faults = p.faults ∧ (p.enterIdle l why).link = p.link := by
  obtain ⟨hline1, hother1, hqueue1, hpos1, hfaults1, hlink1⟩ := abortTest_aborts hp hset
  have hctx1 (c : CtxId) : (p.abortTest l).ctx c = p.ctx c := ctx_abortTest p l c
  have hp1 := (Keeps.abortTest p l).sound hp
  generalize hq1 : p.abortTest l = q1 at *
  obtain ⟨⟨hctx2, hqueue2, hpos2, hfaults2, hlink2⟩, hline2, hother2⟩ := parkLine_parks (l := l) hp1 why.cause
  generalize hq2 : q1.parkLine l why.cause = q2 at *
  obtain ⟨hline3, hother3, hctx3, hpos3, hqueue3, hfaults3, hlink3⟩ := activateWaiting_activates q2 l
  generalize hq3 : q2.activateWaiting l = q3 at *
  have henter : p.enterIdle l why = q3.modLine l fun x =>
      { x with state := .idle, stopPending := false, calls := [], inSlot := none, nextSlot := 0 } := by rw [← hq3, ← hq2, ← hq1]; rfl
  have hwho : q1.contextsOn l = p.contextsOn l := by simp only [Part.contextsOn, hctx1]
  have hmem (c : CtxId) : c ∈ q1.contextsOn l ↔ (p.ctx c).lineId = some l := by rw [hwho, Part.mem_contextsOn]
  have field {α : Type} (g : Line → α) (h : ∀ x, g (sansArming x) = g x) : g (q2.line l) = g (q1.line l) := by
    rw [← h, hline2, h]
  have hactive : (q2.line l).active = (p.line l).active := (field (·.active) fun _ => rfl).trans (by rw [hline1])
  have hwaiting : (q2.line l).waiting = (p.line l).waiting := (field (·.waiting) fun _ => rfl).trans (by rw [hline1])
  have hrate : (q2.line l).rate = (p.line l).rate := (field (·.rate) fun _ => rfl).trans (by rw [hline1])
  have hlen : (q2.line l).frameLen = (p.line l).frameLen := (field (·.frameLen) fun _ => rfl).trans (by rw [hline1])
  refine ⟨?_, fun m hm => ?_, fun c => ?_, fun i => ?_, ?_, ?_, ?_⟩
  · have hcleared := congrArg (fun x : Line => { x with
        state := .idle, stopPending := false, active := x.waiting.getD x.active, waiting := none, calls := [], inSlot := none, nextSlot := 0 }) hline2
    rw [henter, Part.line_modLine_self, hline3]
    refine Eq.trans (show _ = _ from hcleared) ?_
    rw [hline1]
    rfl
  · rw [henter, Part.line_modLine_ne _ _ hm, hother3 m hm, hother2 m hm, hother1 m hm]
  · rw [henter, Part.ctx_modLine, hctx3, hactive, hwaiting, hrate, hlen]
    have hcase := hctx2 c
    by_cases hc : (p.ctx c).lineId = some l
    · rw [if_pos ((hmem c).mpr hc), hctx1] at hcase
      have hid : (leftFor .parked (p.ctx c)).lineId = some l := by
        rw [← hc]
        exact Context.lineId_congr (by unfold leftFor withoutOps; split <;> rfl)
      simp only [hid, hc, hcase, true_and, if_true]
    · rw [if_neg fun h => hc ((hmem c).mp h), hctx1] at hcase
      simp only [hcase, hc, false_and, if_false]
  · rw [henter, Part.position_modLine, hpos3, hpos2, hpos1]
  · rw [henter, Part.queue_modLine, hqueue3, hqueue2, hqueue1, hwho, endedAll_congr fun c _ => hctx1 c]
  · rw [henter, Part.faults_modLine, hfaults3, hfaults2, hfaults1]
  · rw [henter, Part.link_modLine, hlink3, hlink2, hlink1]

end

/-- Settles O54: both ways into IDLE end everything of the line and differ in cause, detection and notice. -/
theorem lineEntersIdle : Obligations.LineEntersIdle := by
  intro s l set hsound ln hset body active tested others idle
  have hp := operationsSound_iff.mp hsound
  have hwho (q : Part) (hq : ∀ c, q.ctx c = s.part.ctx c) : q.contextsOn l = allCtx.filter fun c => decide ((s.part.ctx c).lineId = some l) := by
    rw [Part.contextsOn]
    refine List.filter_congr fun c _ => ?_
    rw [hq, Context.onLine, beq_eq_decide_eq]
  refine ⟨fun hrun hstop hsent => ?_, fun hnot => ?_, fun hrun => ?_, fun hidle => ?_⟩
  · obtain ⟨hframe, hdue⟩ := frameSent_iff.mpr hsent
    obtain ⟨hline, hother, hctx, hpos, hqueue, hfaults, hlink⟩ := enterIdle_idles hp hset .stopped
    have heffect : s.part.stoppedFrameEnd l = (s.part.enterIdle l .stopped).offer (lineNotice l .idle .stopped) :=
      if_pos ⟨hrun, hstop, hframe, by rw [hdue]; nofun⟩
    refine ⟨_, exec_of_effect rfl heffect, ?_, fun c hc => ?_, ⟨fun m hm => ?_, fun c hc => ?_, fun i => ?_, ?_⟩, ?_⟩
    · rw [Part.line_offer, hline]
      rfl
    · intro x
      rw [Part.ctx_offer, hctx, if_pos hc]
    · rw [Part.line_offer, hother m hm]
    · rw [Part.ctx_offer, hctx, if_neg hc]
    · rw [Part.position_offer, hpos]
    · rw [Part.link_offer, hlink]
    · refine Part.offerAll_congr [lineNotice l .idle .stopped] ?_ hfaults
      rw [hqueue, hwho _ fun _ => rfl]
      rfl
  · refine exec_of_effect rfl (if_neg ?_)
    rintro ⟨hrun, hstop, hframe, hdue⟩
    rcases hnot with h | h | h
    · exact hrun h
    · rw [show (s.part.line l).stopPending = false from h] at hstop
      cases hstop
    · exact h (frameSent_iff.mp ⟨hframe, by simpa using hdue⟩)
  · have htrip := fun c => Part.ctx_modLine s.part l (fun x : Line => { x with driverTripped := true }) c
    have hline0 := Part.line_modLine_self s.part l fun x : Line => { x with driverTripped := true }
    have hp0 : OpsSound (s.part.modLine l fun x => { x with driverTripped := true }) := (Keeps.sameTest rfl rfl).sound hp
    obtain ⟨hline, hother, hctx, hpos, hqueue, hfaults, hlink⟩ := enterIdle_idles (l := l) (set := set) hp0 (by rw [hline0]; exact hset) .driverFault
    generalize hq : (s.part.modLine l fun x => { x with driverTripped := true }).enterIdle l .driverFault = q at *
    have heffect : s.part.driverTrip l = (((Ev.of q).detect (s.part.driveFault l)).close (lineNotice l .idle .driverFault)).finish := by
      rw [← hq]
      exact if_neg hrun
    rw [Ev.detect_eq_all, Ev.finish_eq] at heffect
    refine ⟨_, exec_of_effect rfl heffect, ?_, fun c hc => ?_, ⟨fun m hm => ?_, fun c hc => ?_, fun i => ?_, ?_⟩, ?_⟩
    · rw [Part.line_offerAll]
      refine (show _ = q.line l from rfl).trans ?_
      rw [hline, hline0]
      rfl
    · intro x
      rw [Part.ctx_offerAll]
      refine (show _ = q.ctx c from rfl).trans ?_
      rw [hctx, hline0, htrip, if_pos hc]
    · rw [Part.line_offerAll]
      exact (hother m hm).trans (Part.line_modLine_ne _ _ hm)
    · rw [Part.ctx_offerAll]
      refine (show _ = q.ctx c from rfl).trans ?_
      rw [hctx, htrip, if_neg hc]
    · rw [Part.position_offerAll]
      exact (hpos i).trans (Part.position_modLine ..)
    · rw [Part.link_offerAll]
      exact hlink.trans (Part.link_modLine ..)
    · have hfaults0 : q.faults = s.part.faults := hfaults.trans (Part.faults_modLine ..)
      have hqueue0 : q.queue = endedAll s.part .lineFault (allCtx.filter fun c => decide ((s.part.ctx c).lineId = some l)) tested := by
        rw [hqueue, hwho _ htrip, endedAll_congr fun c _ => htrip c, abortedQueue, hline0, Part.queue_modLine]
        rfl
      have hrecs : (recordAll q.faults [s.part.driveFault l]) = recordAll s.part.faults [s.part.driveFault l] := by rw [hfaults0]
      dsimp only [Ev.of, Ev.close]
      rw [hrecs]
      exact Part.offerAll_congr _ hqueue0 rfl
  · refine ⟨_, exec_of_effect rfl (if_pos hidle), Part.line_modLine_self .., fun m hm => Part.line_modLine_ne _ _ hm, fun c => Part.ctx_modLine ..,
      fun i => Part.position_modLine .., Part.queue_modLine .., Part.faults_modLine .., Part.link_modLine ..⟩

end Sys2Proof.Machine
end

section
/-! PROOFS. The start of a slot (O45): the word of a unit, and the choice of the downstream unit case by case. -/

namespace Sys2Proof.Machine

open Sys2Proof.Safety

/-! ### The word of a unit (R170) -/

theorem unitCheck_eq (w : UnitWord) : unitCheck w = crcOf 0x3 0 ((List.range 20).map w.getMsbD) := by
  have bit (c : BitVec 4) (x : Bool) : crc4Bit c x = if c.msb = x then c <<< 1 else (c <<< 1) ^^^ 0x3 := by
    unfold crc4Bit
    have : c.getMsbD 0 = c.msb := rfl
    rw [this]
    cases c.msb <;> cases x <;> rfl
  simp only [unitCheck, crcOf, List.range, List.range.loop, List.map, List.foldl, bit]

/-- The bits of a unit: check, payload, kind. -/
theorem getLsbD_unit (kind : BitVec 4) (payload : Payload) (check : BitVec 4) (i : Nat) :
    (kind ++ payload ++ check : UnitWord).getLsbD i =
      if i < 4 then check.getLsbD i else if i < 20 then payload.getLsbD (i - 4) else kind.getLsbD (i - 20) := by
  have h1 := BitVec.getLsbD_append (x := kind ++ payload) (y := check) (i := i)
  have h2 := BitVec.getLsbD_append (x := kind) (y := payload) (i := i - 4)
  refine h1.trans ?_
  rw [h2, Nat.sub_sub]
  by_cases h4 : i < 4
  · simp [h4]
  · simp only [h4, show (i - 4 < 16) = (i < 20) from propext ⟨fun _ => by omega, fun _ => by omega⟩, if_false]

/-- The check stands in the four low bits, which kind and payload leave 0. -/
theorem append_zero_or (kind : BitVec 4) (payload : Payload) (check : BitVec 4) :
    (kind ++ payload ++ (0 : BitVec 4) : UnitWord) ||| check.setWidth 24 = kind ++ payload ++ check := by
  refine BitVec.eq_of_getLsbD_eq fun i hi => ?_
  rw [BitVec.getLsbD_or, getLsbD_unit, getLsbD_unit, BitVec.getLsbD_setWidth]
  by_cases h : i < 4
  · simp [h, show i < 24 by omega]
  · simp [h, BitVec.getLsbD_of_ge check i (by omega)]

theorem getMsbD_unit (kind : BitVec 4) (payload : Payload) :
    (List.range 20).map (kind ++ payload ++ (0 : BitVec 4) : UnitWord).getMsbD =
      (List.range 4).map kind.getMsbD ++ (List.range 16).map payload.getMsbD := by
  have hsplit : List.range 20 = List.range 4 ++ (List.range 16).map (4 + ·) := by decide
  rw [hsplit, List.map_append, List.map_map]
  refine congr (congrArg (· ++ ·) (List.map_congr_left fun i hi => ?_)) (List.map_congr_left fun i hi => ?_)
  · have h := List.mem_range.mp hi
    rw [BitVec.getMsbD_eq_getLsbD, BitVec.getMsbD_eq_getLsbD, getLsbD_unit, if_neg (by omega), if_neg (by omega),
      show 24 - 1 - i - 20 = 4 - 1 - i by omega]
    simp [h, show i < 24 by omega]
  · have h := List.mem_range.mp hi
    rw [Function.comp_apply, BitVec.getMsbD_eq_getLsbD, BitVec.getMsbD_eq_getLsbD, getLsbD_unit, if_neg (by omega), if_pos (by omega),
      show 24 - 1 - (4 + i) - 4 = 16 - 1 - i by omega]
    simp [h, show 4 + i < 24 by omega]

theorem unitWord_eq_wireUnit (kind : BitVec 4) (payload : Payload) : unitWord kind payload = wireUnit kind payload := by
  rw [unitWord, unitCheck_eq, getMsbD_unit, append_zero_or]
  rfl

theorem DownUnit.word_eq_downWord (u : DownUnit) : u.word = downWord u := by
  rw [DownUnit.word, unitWord_eq_wireUnit]
  cases u with
  | control c =>
    cases c with
    | setForm f => cases f <;> rfl
    | _ => rfl
  | chipEnd last => cases last <;> rfl
  | _ => rfl

/-! ### The choice of the unit (R31) -/

section
variable {p : Part} {l : LineId} {c : CtxId} {i : Nat}

theorem slotNext_iff : ((p.line l).slotInTurn i = true ∧ p.expiryDue l = false) ↔ SlotNext p l i := by
  simp only [Line.slotInTurn, Bool.and_eq_true, decide_eq_true_eq, Option.isNone_iff_eq_none, Line.quietBetween_iff, Part.expiryDue_eq_false,
    and_assoc]

/-- The slot of a context as it starts. -/
def Part.slotRun (p : Part) (l : LineId) (c : CtxId) (i : Nat) : SlotRun where
  index := i
  ctx := c
  unit := (p.chooseUnit l c).1
  fromLoop := (p.ctx c).attach == .looping
  forEntry := (p.chooseUnit l c).1 == .control (.setForm .masked) && (p.ctx c).isArming
  call := ((p.line l).calls[i]?).getD (slotCall 0)
  word := (p.chooseUnit l c).1.word

theorem Part.slotStart_empty (h : SlotNext p l i) (he : (p.line l).active[i]? = some none) :
    p.slotStart l i = p.modLine l fun x => { x with nextSlot := i + 1 } := by
  obtain ⟨hturn, hdue⟩ := slotNext_iff.mpr h
  rw [Part.slotStart, hturn, hdue, he]
  rfl

theorem Part.slotStart_ctx (h : SlotNext p l i) (hc : (p.line l).active[i]? = some (some c)) :
    p.slotStart l i = (p.setCtx c (p.chooseUnit l c).2).modLine l fun x => { x with nextSlot := i + 1, inSlot := some (p.slotRun l c i) } := by
  obtain ⟨hturn, hdue⟩ := slotNext_iff.mpr h
  rw [Part.slotStart, hturn, hdue, hc]
  rfl

theorem Context.isArming_iff {x : Context} : x.isArming = true ↔ ∃ e, x.entry = some e ∧ e.state = .arming := by
  unfold Context.isArming
  cases x.entry <;> simp

theorem Part.chooseUnit_attached (h : (p.ctx c).attach = .attached) : p.chooseUnit l c = (p.ctx c).chooseAttached := by simp only [Part.chooseUnit, h]

theorem find?_record {before after : List LoopRecord} {r : LoopRecord} (hr : r.ctx = c) (hb : ∀ y ∈ before, y.ctx ≠ c) :
    (before ++ r :: after).find? (·.ctx == c) = some r := by
  rw [List.find?_append, List.find?_eq_none.mpr fun y hy => by simpa using hb y hy]
  simp [hr]

/-- The unit of a loop test's slot (R156). -/
theorem LoopSetup.unit_eq (set : LoopSetup) (m : Nat) : set.unit m =
    if set.continuous = false ∧ set.passLimit = 0 then .poll
    else if m = 0 then .control .loopEnter
    else if set.continuous = true ∨ m ≤ 4 * set.passLimit
      then .loopPattern (set.pattern.get ⟨(m - 1) % 4, Nat.mod_lt _ (by decide)⟩)
    else if m = 4 * set.passLimit + 1 then .control .loopExit else .poll := by
  unfold LoopSetup.unit LoopSetup.lastSlot LoopSetup.payload
  cases set.continuous
  · by_cases hp : set.passLimit = 0
    · simp [hp]
    · simp [hp, Nat.lt_add_one_iff]
  · simp

section
variable {x : Context}

theorem Reported.agrees_iff (r : Reported) (w : Bool) : r.agrees w = true ↔ (r = .on ∧ w = true) ∨ (r = .off ∧ w = false) := by
  cases r <;> cases w <;> decide

theorem Context.formDue_some {k : Keypad} (hk : x.keypad = some k) (h : k.wanted ≠ k.reported ∧ x.formHold = 0) :
    x.formDue = some (.setForm k.wanted) := by simp only [Context.formDue, hk, if_pos h]

theorem Context.formDue_none (h : ∀ k, x.keypad = some k → ¬ (k.wanted ≠ k.reported ∧ x.formHold = 0)) : x.formDue = none := by
  unfold Context.formDue
  split
  · rename_i k hk
    exact if_neg (h k hk)
  · rfl

/-- The state control due at a hybrid reader (R33). -/
theorem Context.latchDue_eq {h : Chip} (hc : x.chip = some h) : x.latchDue =
    if ¬ h.reportedLatch.agrees h.wantedLatch ∧ x.latchHold = 0 then some (if h.wantedLatch then .latch else .unlatch)
    else if h.reportedLatch.agrees h.wantedLatch ∧ ¬ h.reportedPower.agrees h.wantedPower ∧ x.powerHold = 0
      then some (if h.wantedPower then .powerOn else .powerOff)
    else none := by
  simp only [Context.latchDue, hc]
  cases h.reportedLatch.agrees h.wantedLatch <;> simp

theorem Context.latchDue_of_chip_none (hc : x.chip = none) : x.latchDue = none := by simp only [Context.latchDue, hc]

/-! ### The refresh of an image (R37, R38) -/

theorem inRefreshSet_iff {kind : DropKind} {f : Features} {piece : Nat} : inRefreshSet kind f piece = true ↔
    if kind = .keypad then (piece ≤ 7 ∧ f.display = true) ∨ (piece = 8 ∧ 1 ≤ f.lamps) else piece = 0 ∧ 1 ≤ f.lamps := by
  cases kind
  case keypad =>
    simp only [inRefreshSet, if_true]
    by_cases h : piece < 8
    · simp [h, show piece ≤ 7 by omega, show piece ≠ 8 by omega]
    · simp [h, show ¬ piece ≤ 7 by omega]
  all_goals simp [inRefreshSet]

theorem refreshPiece_none {kind : DropKind} {f : Features} (h : ∀ piece, ¬ inRefreshSet kind f piece = true) (cursor : Nat) :
    refreshPiece kind f cursor = none := List.find?_eq_none.mpr fun piece _ => h piece

/-- The first piece of the set from the cursor on, cyclically (R37). -/
theorem refreshPiece_keypad {f : Features} {cursor piece : Nat} (hc : cursor ≤ 8) (hp : piece ≤ 8) (hin : inRefreshSet .keypad f piece = true)
    (hnear : ∀ j, inRefreshSet .keypad f j = true → if cursor ≤ piece then j < cursor ∨ piece ≤ j else j < cursor ∧ piece ≤ j) :
    refreshPiece .keypad f cursor = some piece := by
  have hlist : [0, 1, 2, 3, 4, 5, 6, 7, 8] = List.range 9 := by decide
  rw [refreshPiece, hlist, List.find?_eq_some_iff_getElem]
  refine ⟨hin, (piece + 9 - cursor) % 9, by simp; omega, ?_, fun j hj => ?_⟩
  · rw [List.getElem_map, List.getElem_range, pieceCount]
    omega
  · rw [List.getElem_map, List.getElem_range, pieceCount, Bool.not_eq_true']
    refine Classical.byContradiction fun hset => ?_
    have hn := hnear _ (Bool.not_eq_false _ ▸ hset)
    split at hn <;> omega

/-- A reader has its one piece, when it has a lamp. -/
theorem refreshPiece_reader {kind : DropKind} (hk : kind ≠ .keypad) {f : Features} (hin : inRefreshSet kind f 0 = true) (cursor : Nat) :
    refreshPiece kind f cursor = some 0 ∧ pieceCount kind = 1 := by
  have hcount : pieceCount kind = 1 := by cases kind <;> simp_all [pieceCount]
  refine ⟨?_, hcount⟩
  rw [refreshPiece, hcount, List.map_cons, Nat.mod_one, List.find?_cons, hin]

theorem Context.chooseRefresh_none {kind : DropKind} {f : Features} (hk : x.kind = some kind) (hf : x.features = some f)
    (h : refreshPiece kind f x.cursor = none) : x.chooseRefresh = (.poll, x) := by simp only [Context.chooseRefresh, hk, hf, h]

theorem Context.chooseRefresh_some {kind : DropKind} {f : Features} {piece : Nat} (hk : x.kind = some kind) (hf : x.features = some f)
    (h : refreshPiece kind f x.cursor = some piece) :
    x.chooseRefresh = (refreshUnit x.image f piece, { x with cursor := (piece + 1) % pieceCount kind }) := by
  simp only [Context.chooseRefresh, hk, hf, h]

/-- The unit that comes next of a command is read off its bytes at twice the number of units sent (R35). -/
theorem Chip.nextUnit_eq (h : Chip) : h.nextUnit =
    match h.command[2 * h.unitsSent]?, h.command[2 * h.unitsSent + 1]? with
    | some b1, some b2 => .chipData b1 b2
    | some b, none => .chipEnd (some b)
    | none, _ => .chipEnd none := by
  have h0 : h.command[2 * h.unitsSent]? = (h.command.drop (2 * h.unitsSent))[0]? := by rw [List.getElem?_drop, Nat.add_zero]
  have h1 : h.command[2 * h.unitsSent + 1]? = (h.command.drop (2 * h.unitsSent))[1]? := by rw [List.getElem?_drop]
  rw [h0, h1, Chip.nextUnit]
  cases h.command.drop (2 * h.unitsSent) with
  | nil => rfl
  | cons b rest => cases rest <;> rfl

/-- The unit of a keypad's piece: a character pair of the text, or the lamps up to the reported count (R37). -/
theorem refreshUnit_keypad (chars : Vector Byte 16) (lamps : Vector Lamp 4) (f : Features) (piece : Nat) :
    refreshUnit (.keypad chars lamps) f piece =
      if h : piece < 8
      then .refreshText (decide (piece = 0)) (chars.get ⟨2 * piece, by omega⟩) (chars.get ⟨2 * piece + 1, by omega⟩)
      else .refreshLamps (if 1 ≤ f.lamps then lamps[0] else .off) (if 2 ≤ f.lamps then lamps[1] else .off)
        (if 3 ≤ f.lamps then lamps[2] else .off) (if 4 ≤ f.lamps then lamps[3] else .off) := by
  have hget (n : Nat) (hn : n < 16) : chars.toList.getD n 0x20 = chars.get ⟨n, hn⟩ := by
    rw [List.getD_eq_getElem?_getD, List.getElem?_eq_getElem (by simpa using hn), Option.getD_some, Vector.getElem_toList]
    rfl
  by_cases h : piece < 8
  · rw [dif_pos h, ← hget _ (by omega), ← hget _ (by omega)]
    exact if_pos h
  · rw [dif_neg h]
    exact if_neg h

/-- With no control due or queued and no command under way, a refresh or POLL. -/
theorem Context.chooseAttached_idle (hform : x.formDue = none) (hlatch : x.latchDue = none) (hq : x.controls = [])
    (hs : ∀ h, x.chip = some h → h.session ≠ .sending) : x.chooseAttached = x.chooseRefresh := by
  simp only [Context.chooseAttached, hform, hlatch, hq]
  split
  · rename_i h hc
    exact if_neg (hs h hc)
  · rfl

end

end

/-- Settles O45: the first case of the choice that holds gives the unit, and the context with its queue or cursor moved on. -/
theorem slotStartChoosesTheUnit : Obligations.SlotStartChoosesTheUnit := by
  refine ⟨unitWord_eq_wireUnit, fun s l i hnext => ?_⟩
  intro ln kept
  refine ⟨fun hempty => ?_, fun c hc => ?_⟩
  · refine ⟨_, exec_of_effect rfl (Part.slotStart_empty hnext hempty), Part.line_modLine_self .., fun d => Part.ctx_modLine ..,
      fun m hm => Part.line_modLine_ne _ _ hm, fun j => Part.position_modLine .., Part.queue_modLine .., Part.faults_modLine .., Part.link_modLine ..⟩
  intro x agrees formDue latchDue powerDue noForm noneDue idle inSet
  refine ⟨_, s.part.slotRun l c i, exec_of_effect rfl (Part.slotStart_ctx hnext hc), ?_, fun d hd => ?_,
    ⟨fun m hm => ?_, fun j => ?_, ?_, ?_, ?_⟩, rfl, rfl, fun b hb => ?_, DownUnit.word_eq_downWord _, ?_, ?_, ?_⟩
  · rw [Part.line_modLine_self, Part.line_setCtx]
  · rw [Part.ctx_modLine, Part.ctx_setCtx_ne _ _ hd]
  · rw [Part.line_modLine_ne _ _ hm, Part.line_setCtx]
  · rw [Part.position_modLine, Part.position_setCtx]
  · rw [Part.queue_modLine, Part.queue_setCtx]
  · rw [Part.faults_modLine, Part.faults_setCtx]
  · rw [Part.link_modLine, Part.link_setCtx]
  · show ((s.part.line l).calls[i]?).getD (slotCall 0) = b
    rw [hb]
    rfl
  · exact beq_eq_decide_eq ..
  · show ((s.part.chooseUnit l c).1 == .control (.setForm .masked) && x.isArming) = true ↔ _
    rw [Bool.and_eq_true, beq_iff_eq, Context.isArming_iff]
    rfl
  intro sends
  have hsends {u : DownUnit} {y : Context} (h : s.part.chooseUnit l c = (u, y)) : sends u y := by
    refine ⟨congrArg Prod.fst h, ?_⟩
    rw [Part.ctx_modLine, Part.ctx_setCtx_self, h]
  have hattached {u : DownUnit} {y : Context} (ha : x.attach = .attached) (h : x.chooseAttached = (u, y)) : sends u y :=
    hsends ((Part.chooseUnit_attached ha).trans h)
  have hform (h : noForm) : x.formDue = none := Context.formDue_none h
  have hlatch (h : noneDue) : x.latchDue = none := by
    cases hchip : x.chip with
    | none => exact Context.latchDue_of_chip_none hchip
    | some k =>
      obtain ⟨h1, h2⟩ := h.2 k hchip
      rw [Context.latchDue_eq hchip, if_neg, if_neg]
      · simpa only [Reported.agrees_iff] using h2
      · simpa only [Reported.agrees_iff] using h1
  have hidle (h : idle) : x.chooseAttached = x.chooseRefresh := Context.chooseAttached_idle (hform h.1.1) (hlatch h.1) h.2.1 h.2.2
  refine ⟨fun ha set before r after hset hrec hr hb => ?_, fun ha => ?_, fun ha => ?_, fun ha k hk hdue => ?_, fun ha hno k hk => ⟨fun hdue => ?_, fun hdue => ?_⟩,
    fun ha hno b rest hq => ?_, fun ha hno hq h hchip hs => ?_, fun ha hid hf => ?_, fun ha hid kind f hk hf => ?_⟩
  · have hfind : (s.part.line l).loop.record c = some r := by
      rw [LoopTester.record, show (s.part.line l).loop.records = before ++ r :: after from hrec, find?_record hr hb]
    refine hsends ?_
    simp only [Part.chooseUnit, show (s.part.ctx c).attach = .looping from ha, LoopTester.unitFor, show (s.part.line l).loop.setup = some set from hset,
      hfind, LoopSetup.unit_eq]
    rfl
  · refine hsends ?_
    rcases ha with ha | ha <;> simp only [Part.chooseUnit, show (s.part.ctx c).attach = _ from ha] <;> rfl
  · refine hsends ?_
    simp only [Part.chooseUnit, show (s.part.ctx c).attach = _ from ha]
    rfl
  · exact hattached ha (by simp only [Context.chooseAttached, Context.formDue_some hk hdue])
  · have hlatchDue := Context.latchDue_eq hk
    rw [if_pos ⟨by rw [Reported.agrees_iff]; exact hdue.1, hdue.2⟩] at hlatchDue
    exact hattached ha (by simp only [Context.chooseAttached, hform hno, hlatchDue])
  · have hlatchDue := Context.latchDue_eq hk
    have hagrees : k.reportedLatch.agrees k.wantedLatch = true := (Reported.agrees_iff ..).mpr hdue.1
    rw [if_neg fun h => h.1 hagrees, if_pos ⟨hagrees, by rw [Reported.agrees_iff]; exact hdue.2.1, hdue.2.2⟩] at hlatchDue
    exact hattached ha (by simp only [Context.chooseAttached, hform hno, hlatchDue])
  · exact hattached ha (by simp only [Context.chooseAttached, hform hno.1, hlatch hno, hq])
  · have hnext : x.chooseAttached = (h.nextUnit, x) := by simp only [Context.chooseAttached, hform hno.1, hlatch hno, hq, hchip, hs, if_true]
    rw [Chip.nextUnit_eq] at hnext
    refine ⟨fun b1 b2 h1 h2 => hattached ha ?_, fun b h1 h2 => hattached ha ?_, fun h1 => hattached ha ?_⟩
    · rw [hnext, h1, h2]
    · rw [hnext, h1, h2]
    · rw [hnext, h1]
  · refine hattached ha ((hidle hid).trans ?_)
    unfold Context.chooseRefresh
    rw [hf]
    split <;> simp_all
  · refine ⟨fun hnone => ?_, fun bezel hkind himage hin => ?_, fun chars lamps hkind himage hcur piece hin hnear => ?_⟩
    · exact hattached ha ((hidle hid).trans (Context.chooseRefresh_none hk hf
        (refreshPiece_none (fun piece hp => hnone piece (inRefreshSet_iff.mp hp)) _)))
    · obtain ⟨hpiece, hcount⟩ := refreshPiece_reader hkind (inRefreshSet_iff.mpr hin) x.cursor
      refine hattached ha ((hidle hid).trans ((Context.chooseRefresh_some hk hf hpiece).trans ?_))
      rw [hcount, himage]
      rfl
    · subst hkind
      have hpiece := refreshPiece_keypad hcur (Nat.le_of_lt_succ piece.isLt) (inRefreshSet_iff.mpr hin) fun j hj => hnear j (inRefreshSet_iff.mp hj)
      have hcursor : (piece.val + 1) % pieceCount .keypad = if piece.val = 8 then 0 else piece.val + 1 := by
        rw [pieceCount]
        split <;> omega
      intro lamp
      exact hattached ha ((hidle hid).trans ((Context.chooseRefresh_some hk hf hpiece).trans
        (by rw [hcursor, himage, refreshUnit_keypad])))

end Sys2Proof.Machine
end

section
/-! PROOFS. The end of a slot: the class of its unit (R11), the part in the middle of the event, and what every slot completion has in common (R12). -/

namespace Sys2Proof.Machine

open Sys2Proof.Safety

/-! ### The class of a unit (R11, R170) -/

theorem unitWord_eq (kind : BitVec 4) (payload : Payload) :
    unitWord kind payload = kind ++ payload ++ unitCheck (kind ++ payload ++ (0 : BitVec 4)) := append_zero_or ..

theorem unitKind_unit (kind : BitVec 4) (payload : Payload) (check : BitVec 4) : unitKind (kind ++ payload ++ check) = kind.toNat := by
  refine congrArg BitVec.toNat (BitVec.eq_of_getLsbD_eq fun i hi => ?_)
  rw [BitVec.getLsbD_extractLsb', getLsbD_unit, if_neg (by omega), if_neg (by omega), Nat.add_sub_cancel_left]
  simp [hi]

theorem unitPayload_unit (kind : BitVec 4) (payload : Payload) (check : BitVec 4) : unitPayload (kind ++ payload ++ check) = payload := by
  refine BitVec.eq_of_getLsbD_eq fun i hi => ?_
  rw [unitPayload, BitVec.getLsbD_extractLsb', getLsbD_unit, if_neg (by omega), if_pos (by omega), Nat.add_sub_cancel_left]
  simp [hi]

/-- The check does not cover itself. -/
theorem unitCheck_unit (kind : BitVec 4) (payload : Payload) (check : BitVec 4) :
    unitCheck (kind ++ payload ++ check) = unitCheck (kind ++ payload ++ (0 : BitVec 4)) := by
  rw [unitCheck_eq, unitCheck_eq]
  refine congrArg _ (List.map_congr_left fun i hi => ?_)
  have h := List.mem_range.mp hi
  rw [BitVec.getMsbD_eq_getLsbD, BitVec.getMsbD_eq_getLsbD, getLsbD_unit, getLsbD_unit, if_neg (show ¬ 24 - 1 - i < 4 by omega),
    if_neg (show ¬ 24 - 1 - i < 4 by omega)]

theorem unit_split (w : UnitWord) : w = w.extractLsb' 20 4 ++ w.extractLsb' 4 16 ++ w.extractLsb' 0 4 := by
  refine BitVec.eq_of_getLsbD_eq fun i hi => ?_
  rw [getLsbD_unit]
  split
  · simp [*]
  · split
    · rw [BitVec.getLsbD_extractLsb', show 4 + (i - 4) = i by omega]
      simp [show i - 4 < 16 by omega]
    · rw [BitVec.getLsbD_extractLsb', show 20 + (i - 20) = i by omega]
      simp [show i - 20 < 4 by omega]

/-- A unit is good when it is the word of its kind and payload. -/
theorem unitGood_iff (w : UnitWord) : unitGood w = true ↔ w = unitWord (w.extractLsb' 20 4) (w.extractLsb' 4 16) := by
  have hcheck : unitCheck w = unitCheck (w.extractLsb' 20 4 ++ w.extractLsb' 4 16 ++ (0 : BitVec 4)) := by
    conv => lhs; rw [unit_split w, unitCheck_unit]
  rw [unitGood, beq_iff_eq, unitWord_eq, ← hcheck]
  constructor
  · intro h
    conv => lhs; rw [unit_split w, h]
  · intro h
    refine BitVec.eq_of_getLsbD_eq fun i hi => ?_
    have hbit := congrArg (BitVec.getLsbD · i) h
    rw [getLsbD_unit, if_pos hi] at hbit
    rw [BitVec.getLsbD_extractLsb', ← hbit]
    simp [hi]

theorem unitGood_unitWord (kind : BitVec 4) (payload : Payload) : unitGood (unitWord kind payload) = true := by
  have hk : (unitWord kind payload).extractLsb' 20 4 = kind := BitVec.eq_of_toNat_eq (by rw [unitWord_eq]; exact unitKind_unit ..)
  have hp : (unitWord kind payload).extractLsb' 4 16 = payload := by rw [unitWord_eq]; exact unitPayload_unit ..
  rw [unitGood_iff, hk, hp]

theorem classify_unitWord {start : Nat} (h : start < 4) (kind : BitVec 4) (payload : Payload) :
    classify (.unit start 24 (unitWord kind payload)) = .received kind.toNat payload := by
  have hk : unitKind (unitWord kind payload) = kind.toNat := by rw [unitWord_eq]; exact unitKind_unit ..
  have hp : unitPayload (unitWord kind payload) = payload := by rw [unitWord_eq]; exact unitPayload_unit ..
  rw [classify, if_pos h, if_pos (Nat.le_refl 24), if_pos (unitGood_unitWord ..), hk, hp]

theorem classify_silent {up : Upstream} (h : Silent up) : classify up = .silent := by
  cases up with
  | nothing => rfl
  | unit start nbits w => exact if_neg (Nat.not_lt.mpr h)

/-- The bits of a damaged unit that arrived; the others read 0 (R157). -/
theorem classify_damaged {start nbits : Nat} {w : UnitWord} (h : Damaged (.unit start nbits w)) : ∃ v : Payload,
    classify (.unit start nbits w) = .damaged v ∧ ∀ j < 16, v.getLsbD j = (decide (24 ≤ nbits + 4 + j) && w.getLsbD (4 + j)) := by
  obtain ⟨hs, hbad⟩ := h
  rw [classify, if_pos hs]
  by_cases hn : 24 ≤ nbits
  · have hw : ¬ unitGood w = true := fun hg => hbad.elim (fun h => by omega) fun h => h _ _ ((unitGood_iff w).mp hg)
    rw [if_pos hn, if_neg hw]
    refine ⟨_, rfl, fun j hj => ?_⟩
    rw [unitPayload, BitVec.getLsbD_extractLsb', decide_eq_true hj, decide_eq_true (show 24 ≤ nbits + 4 + j by omega)]
  · rw [if_neg hn]
    refine ⟨_, rfl, fun j hj => ?_⟩
    rw [unitPayload, BitVec.getLsbD_extractLsb', decide_eq_true hj, Bool.true_and, arrived, BitVec.getLsbD_and, BitVec.getLsbD_shiftLeft,
      BitVec.getLsbD_allOnes, Bool.and_comm]
    congr 1
    simp only [Bool.and_eq_decide, Bool.not_eq_true', decide_eq_false_iff_not, decide_eq_true_eq]
    exact decide_eq_decide.mpr (by omega)

theorem exists_classify_damaged {up : Upstream} (h : Damaged up) : ∃ v, classify up = .damaged v := by
  cases up with
  | nothing => exact h.elim
  | unit start nbits w =>
    obtain ⟨v, hv, -⟩ := classify_damaged h
    exact ⟨v, hv⟩

theorem classify_of_not_damaged {up : Upstream} (h : ¬ Damaged up) (v : Payload) : classify up ≠ .damaged v := by
  cases up with
  | nothing => exact nofun
  | unit start nbits w =>
    intro hc
    rw [classify] at hc
    split at hc
    · rename_i hs
      split at hc
      · rename_i hn
        split at hc
        · cases hc
        · rename_i hg
          refine h ⟨hs, .inr fun kind payload hw => hg ?_⟩
          rw [hw]
          exact unitGood_unitWord ..
      · exact h ⟨hs, .inl (by omega)⟩
    · cases hc

/-! ### The part in the middle of a slot completion -/

theorem Part.ext_of_views {p q : Part} (hline : ∀ l, q.line l = p.line l) (hctx : ∀ c, q.ctx c = p.ctx c) (hpos : ∀ i, q.position i = p.position i)
    (hq : q.queue = p.queue) (hf : q.faults = p.faults) (hk : q.link = p.link) : q = p := by
  cases p
  cases q
  simp only [Part.mk.injEq]
  exact ⟨hline .a, hline .b, Vector.ext fun i hi => hctx ⟨i, hi⟩, Vector.ext fun i hi => hpos ⟨i, hi⟩, hq, hf, hk⟩

/-- The part in the middle of the completion of a slot of context c on line l: the slot is over, and the context, the Event Queue and the Fault
Record stand so. -/
def Part.during (p : Part) (l : LineId) (c : CtxId) (z : Context) (q : EventQueue) (f : FaultRecord) : Part :=
  (((p.setLine l { p.line l with inSlot := none }).setQueue q).setFaults f).setCtx c z

section
variable {p : Part} {l : LineId} {c : CtxId} {z : Context} {q : EventQueue} {f : FaultRecord}

@[simp] theorem Part.ctx_during : (p.during l c z q f).ctx c = z := Part.ctx_setCtx_self ..
@[simp] theorem Part.ctx_during_ne {d : CtxId} (h : d ≠ c) : (p.during l c z q f).ctx d = p.ctx d := by simp [Part.during, h]
@[simp] theorem Part.line_during : (p.during l c z q f).line l = { p.line l with inSlot := none } := by simp [Part.during]
@[simp] theorem Part.line_during_ne {m : LineId} (h : m ≠ l) : (p.during l c z q f).line m = p.line m := by simp [Part.during, h]
@[simp] theorem Part.position_during (i : PosId) : (p.during l c z q f).position i = p.position i := by simp [Part.during]
@[simp] theorem Part.queue_during : (p.during l c z q f).queue = q := rfl
@[simp] theorem Part.faults_during : (p.during l c z q f).faults = f := rfl
@[simp] theorem Part.link_during : (p.during l c z q f).link = p.link := by simp [Part.during]

/-- A part that differs from it only in the context, the queue and the Fault Record is again of this form. -/
theorem Part.eq_during {r : Part} (hl : r.line l = { p.line l with inSlot := none }) (hm : ∀ m, m ≠ l → r.line m = p.line m)
    (hc : ∀ d, d ≠ c → r.ctx d = p.ctx d) (hi : ∀ i, r.position i = p.position i) (hk : r.link = p.link) :
    r = p.during l c (r.ctx c) r.queue r.faults := by
  refine Part.ext_of_views (fun m => ?_) (fun d => ?_) (fun i => ?_) rfl rfl (by rw [Part.link_during, hk])
  · by_cases h : m = l
    · rw [h, hl, Part.line_during]
    · rw [hm m h, Part.line_during_ne h]
  · by_cases h : d = c
    · rw [h, Part.ctx_during]
    · rw [hc d h, Part.ctx_during_ne h]
  · rw [hi, Part.position_during]

@[simp] theorem Part.modCtx_during (g : Context → Context) : (p.during l c z q f).modCtx c g = p.during l c (g z) q f := by
  rw [Part.eq_during (p := p) (l := l) (c := c) (r := (p.during l c z q f).modCtx c g)]
  · simp
  · simp
  · exact fun m h => by simp [h]
  · exact fun d h => by simp [h]
  · simp
  · simp

@[simp] theorem Part.setQueue_during (q' : EventQueue) : (p.during l c z q f).setQueue q' = p.during l c z q' f := rfl
@[simp] theorem Part.setFaults_during (f' : FaultRecord) : (p.during l c z q f).setFaults f' = p.during l c z q f' := rfl

/-- The offers of an event touch the queue and the Fault Record only. -/
theorem Part.offerAll_during (rs : List Rec) : (p.during l c z q f).offerAll rs =
    p.during l c z (({ p with queue := q, faults := f } : Part).offerAll rs).queue (({ p with queue := q, faults := f } : Part).offerAll rs).faults := by
  have h := Part.offerAll_congr (p := p.during l c z q f) (q := { p with queue := q, faults := f }) rs rfl rfl
  rw [Part.eq_during (p := p) (l := l) (c := c) (r := (p.during l c z q f).offerAll rs), h.1, h.2]
  · simp
  · simp
  · exact fun m h => by simp [h]
  · exact fun d h => by simp [h]
  · simp
  · simp

theorem sansArming_of_none {x : Line} (h : x.inSlot = none) : sansArming x = x := by
  cases x
  cases h
  rfl

/-- An ending touches its context and the queue: the slot in progress is over. -/
theorem Part.ends_during {r : Part} (h : Ends c (p.during l c z q f) r) (hm : ∀ m, m ≠ l → r.line m = (p.during l c z q f).line m) :
    r = p.during l c (r.ctx c) r.queue f := by
  have hl : r.line l = { p.line l with inSlot := none } := by
    have h := h.line l
    rw [Part.line_during] at h
    have hslot := congrArg Line.inSlot h
    simp only [sansArming, Option.map_none, Option.map_eq_none_iff] at hslot
    rwa [sansArming_of_none hslot, sansArming_of_none rfl] at h
  have heq := Part.eq_during (p := p) (l := l) (c := c) (r := r) hl (fun m h' => by rw [hm m h', Part.line_during_ne h'])
    (fun d h' => by rw [h.ctx d h', Part.ctx_during_ne h']) (fun i => by rw [h.position, Part.position_during])
    (by rw [h.link, Part.link_during])
  rwa [h.faults, Part.faults_during] at heq

end

end Sys2Proof.Machine
end

section
/-! PROOFS. What every slot completion has in common (R12): the holds, UNIT_DAMAGED, the unit, the command stream, the arming count, and the event's
notices. -/

namespace Sys2Proof.Machine

open Sys2Proof.Safety

/-! ### Detections and offers within the event -/

theorem recordAll_append (f : FaultRecord) (ds es : List Detection) :
    recordAll f (ds ++ es) = ((recordAll (recordAll f ds).1 es).1, (recordAll f ds).2 ++ (recordAll (recordAll f ds).1 es).2) := by
  induction ds generalizing f with
  | nil => rfl
  | cons d ds ih => simp only [List.cons_append, recordAll, ih, List.append_assoc]

/-- A fault at the context of a slot (R55, R147). -/
def slotFault (l : LineId) (c : CtxId) (ln : Line) (cls : FaultClass) (detail : Option Detail) : Detection where
  cls := cls
  line := some l
  ctx := some c
  stamp := some ln.frame
  detail := detail

section
variable {p : Part} {l : LineId} {c : CtxId} {z : Context} {q : EventQueue} {f : FaultRecord} {fs tail : List Rec}

theorem Ev.detectAt_during (hz : z.lineId = some l) (cls : FaultClass) (detail : Option Detail) :
    Ev.detectAt { part := p.during l c z q f, faults := fs, tail := tail } cls c detail =
      { part := p.during l c z q (recordAll f [slotFault l c (p.line l) cls detail]).1
        faults := fs ++ (recordAll f [slotFault l c (p.line l) cls detail]).2, tail := tail } := by
  have hd : (p.during l c z q f).detectionAt cls c detail = slotFault l c (p.line l) cls detail := by
    simp only [Part.detectionAt, Part.stampOf, Part.ctx_during, hz, Part.line_during]
    rfl
  rw [Ev.detectAt, hd, Ev.detect_eq_all]
  rfl

theorem Ev.finish_during : (Ev.finish { part := p.during l c z q f, faults := fs, tail := tail }) =
    p.during l c z (({ p with queue := q, faults := f } : Part).offerAll (fs ++ tail)).queue
      (({ p with queue := q, faults := f } : Part).offerAll (fs ++ tail)).faults := by
  rw [Ev.finish_eq]
  exact Part.offerAll_during _

/-- A received unit at an ATTACHED context sets the miss count to 0, on a line in RUN (R51). -/
theorem Part.heard_during (hz : z.lineId = some l) :
    (p.during l c z q f).heard c = p.during l c { z with miss := if (p.line l).state = .run then 0 else z.miss } q f := by
  simp only [Part.heard, Part.ctx_during, hz, Part.line_during, Part.modCtx_during]
  split <;> rfl

/-- The command stream at a slot completion (R36, R124). -/
theorem Part.commandSent_during {pr : Profile} (hz : z.profile = some pr) (hl : pr.line = l) (u : DownUnit) :
    (p.during l c z q f).commandSent c u = p.during l c (streamed (p.line l) pr u z) q f := by
  subst hl
  simp only [Part.commandSent, Part.ctx_during, hz, Part.modCtx_during, Part.line_during, Line.startTimer_eq]
  congr 2
  funext h
  cases u <;> simp [DownUnit.isChip, DownUnit.isChipEnd] <;> rfl

/-- With no SECURE entry in ARMING the arming count has nothing to do (R87). -/
theorem Ev.stepArming_during {run : SlotRun} (harm : NotArming z) :
    Ev.stepArming { part := p.during l run.ctx z q f, faults := fs, tail := tail } run =
      { part := p.during l run.ctx z q f, faults := fs, tail := tail } := by
  simp only [Ev.stepArming, Part.ctx_during]
  split
  · rename_i e he
    exact if_neg (harm e he)
  · rfl

end

/-! ### The holds and the event's beginning -/

theorem Context.stepHolds_of_attached {x : Context} (h : x.attach = .attached) (u : DownUnit) : x.stepHolds u = heldBy u x := by
  unfold Context.stepHolds
  rw [if_neg (not_not_intro h)]
  unfold heldBy
  cases u with
  | control c =>
    cases c with
    | setForm f => cases f <;> rfl
    | _ => rfl
  | _ => rfl

theorem Context.stepHolds_of_not_attached {x : Context} (h : x.attach ≠ .attached) (u : DownUnit) : x.stepHolds u = x := if_pos h

section
variable {p : Part} {l : LineId} {run : SlotRun} {cls : SlotClass}

/-- The event of a slot completion, as its unit is taken: the detections so far are `early`. -/
def Part.slotEvent (p : Part) (l : LineId) (run : SlotRun) (early : List Detection) : Ev where
  part := p.during l run.ctx ((p.ctx run.ctx).stepHolds run.unit) p.queue (recordAll p.faults early).1
  faults := (recordAll p.faults early).2
  tail := []

theorem Part.beginSlot_eq : (Ev.of ((p.modLine l fun x => { x with inSlot := none }).modCtx run.ctx fun x => x.stepHolds run.unit)) =
    p.slotEvent l run [] := by
  have h := Part.eq_during (p := p) (l := l) (c := run.ctx)
    (r := (p.modLine l fun x => { x with inSlot := none }).modCtx run.ctx fun x => x.stepHolds run.unit) (by simp)
    (fun m h => by simp [h]) (fun d h => by simp [h]) (by simp) (by simp)
  rw [h]
  simp [Ev.of, Part.slotEvent, recordAll]

theorem Context.lineId_stepHolds (x : Context) (u : DownUnit) : (x.stepHolds u).lineId = x.lineId := by
  obtain ⟨f, a, w, h, -⟩ := Context.stepHolds_eq x u
  rw [h]
  rfl

theorem Context.attach_stepHolds (x : Context) (u : DownUnit) : (x.stepHolds u).attach = x.attach := by
  obtain ⟨f, a, w, h, -⟩ := Context.stepHolds_eq x u
  rw [h]

theorem Part.damagedUnit_of_good (h : ∀ v, cls ≠ .damaged v) : (p.slotEvent l run []).damagedUnit run cls = p.slotEvent l run [] := by
  unfold Ev.damagedUnit
  split
  · exact absurd rfl (h _)
  · rfl

theorem Part.damagedUnit_of_absent (h : (p.ctx run.ctx).attach = .free ∨ (p.ctx run.ctx).attach = .parked) :
    (p.slotEvent l run []).damagedUnit run cls = p.slotEvent l run [] := by
  unfold Ev.damagedUnit
  have hx : ((p.slotEvent l run []).part.ctx run.ctx).attach = (p.ctx run.ctx).attach := by
    rw [Part.slotEvent, Part.ctx_during, Context.attach_stepHolds]
  split
  · rcases h with h | h <;> simp only [hx, h]
  · rfl

theorem Part.damagedUnit_damaged (hl : (p.ctx run.ctx).lineId = some l) (h1 : (p.ctx run.ctx).attach ≠ .free)
    (h2 : (p.ctx run.ctx).attach ≠ .parked) (v : Payload) : (p.slotEvent l run []).damagedUnit run (.damaged v) =
      p.slotEvent l run [slotFault l run.ctx (p.line l) .unitDamaged (some (.slot run.index))] := by
  have hx : ((p.slotEvent l run []).part.ctx run.ctx).attach = (p.ctx run.ctx).attach := by
    rw [Part.slotEvent, Part.ctx_during, Context.attach_stepHolds]
  have hdetect := Ev.detectAt_during (p := p) (l := l) (c := run.ctx) (z := (p.ctx run.ctx).stepHolds run.unit) (q := p.queue) (f := p.faults)
    (fs := []) (tail := []) ((Context.lineId_stepHolds ..).trans hl) .unitDamaged (some (.slot run.index))
  unfold Ev.damagedUnit
  simp only
  split
  · exact absurd (hx.symm.trans ‹_›) h1
  · exact absurd (hx.symm.trans ‹_›) h2
  · exact hdetect

/-- A slot completion from what its unit made of the event (R12). -/
theorem Part.completeSlot_eq {early : List Detection} {pr : Profile} {z : Context} {q : EventQueue} {f : FaultRecord} {fs tail : List Rec}
    {p' : Part} (hearly : (p.slotEvent l run []).damagedUnit run cls = p.slotEvent l run early)
    (htake : (p.slotEvent l run early).takeUnit l run cls = { part := p'.during l run.ctx z q f, faults := fs, tail := tail })
    (hz : z.profile = some pr) (hl : pr.line = l) : p.completeSlot l run cls =
      (Ev.stepArming { part := p'.during l run.ctx (streamed (p'.line l) pr run.unit z) q f, faults := fs, tail := tail } run).finish := by
  rw [Part.completeSlot, Part.beginSlot_eq, hearly, htake]
  simp only [Ev.map, Part.commandSent_during hz hl]

end

/-! ### What an observer sees of a slot completion -/

/-- After the end of slot i of line l the context stands as z, the slot is over, and the rest but the queue and the Fault Record is as it was. -/
abbrev Settles (s : State) (l : LineId) (c : CtxId) (i : Nat) (up : Upstream) (z : Context) (p : Part) : Prop :=
  exec (.slotCompletion l i up) s = .next { s with part := p } ∧ p.ctx c = z ∧ p.line l = { s.part.line l with inSlot := none } ∧
  (∀ m, m ≠ l → p.line m = s.part.line m) ∧ SameContextsBut c s.part p ∧ SamePositions s.part p ∧ p.link = s.part.link

section
variable {s : State} {l : LineId} {i : Nat} {run : SlotRun} {up : Upstream}

theorem exec_slotCompletion (hrun : (s.part.line l).inSlot = some run) (hi : run.index = i) (hdue : NoExpiryDue s.part l) :
    exec (.slotCompletion l i up) s = .next { s with part := s.part.completeSlot l run (classify up) } := by
  refine exec_of_effect rfl ?_
  show s.part.slotCompletion l i up = _
  simp only [Part.slotCompletion, hrun, hi, Part.expiryDue_eq_false.mpr hdue]
  simp

theorem settles_of_eq {pr : Profile} (hslot : SlotEnds s l i run pr) {z : Context} {q : EventQueue} {f : FaultRecord}
    (h : s.part.completeSlot l run (classify up) = s.part.during l run.ctx z q f) :
    Settles s l run.ctx i up z (s.part.during l run.ctx z q f) := by
  obtain ⟨hrun, hi, hdue, -, -⟩ := hslot
  refine ⟨?_, Part.ctx_during, Part.line_during, fun m hm => Part.line_during_ne hm, fun d hd => Part.ctx_during_ne hd,
    fun j => Part.position_during j, Part.link_during⟩
  rw [exec_slotCompletion hrun hi hdue, h]

/-- The end of a slot whose event ends with these notices: the FAULT notices, then the closing ones (R57, R150). -/
theorem settles_of_finish {pr : Profile} (hslot : SlotEnds s l i run pr) {z : Context} {q : EventQueue} {f : FaultRecord} {fs tail : List Rec}
    (h : s.part.completeSlot l run (classify up) = Ev.finish { part := s.part.during l run.ctx z q f, faults := fs, tail := tail }) :
    ∃ p, Settles s l run.ctx i up z p ∧ Offered (fs ++ tail) { s.part with queue := q, faults := f } p := by
  rw [Ev.finish_during] at h
  exact ⟨_, settles_of_eq hslot h, rfl, rfl⟩

/-- A slot completion that leaves no SECURE entry in ARMING. -/
theorem settles_of_take {pr : Profile} (hslot : SlotEnds s l i run pr) {early : List Detection} {z : Context} {q : EventQueue} {f : FaultRecord}
    {fs tail : List Rec} (hearly : (s.part.slotEvent l run []).damagedUnit run (classify up) = s.part.slotEvent l run early)
    (htake : (s.part.slotEvent l run early).takeUnit l run (classify up) =
      { part := s.part.during l run.ctx z q f, faults := fs, tail := tail })
    (hz : z.profile = some pr) (harm : NotArming z) :
    ∃ p, Settles s l run.ctx i up (streamed (s.part.line l) pr run.unit z) p ∧ Offered (fs ++ tail) { s.part with queue := q, faults := f } p := by
  refine settles_of_finish hslot ((Part.completeSlot_eq hearly htake hz hslot.2.2.2.2).trans (congrArg Ev.finish ?_))
  exact Ev.stepArming_during harm

end

end Sys2Proof.Machine
end

section
/-! PROOFS. The slots of a loop test (O51): a participant's slot is numbered and compared (R156, R157). -/

namespace Sys2Proof.Machine

open Sys2Proof.Safety

theorem LoopSetup.compares_iff (set : LoopSetup) (m : Nat) : set.compares m = true ↔
    2 ≤ m ∧ (set.continuous = true ∨ (0 < set.passLimit ∧ m ≤ 4 * set.passLimit + 1)) := by
  simp only [LoopSetup.compares, LoopSetup.lastSlot, Bool.and_eq_true, Bool.or_eq_true, decide_eq_true_iff]
  exact and_congr_right fun _ => or_congr_right (and_congr_right fun _ => decide_eq_true_iff)

/-- What a miscompare keeps of the record's error (R157). -/
def LoopRecord.missed (r : LoopRecord) (set : LoopSetup) (kind : Miscompare) (payload : Option Payload) (upKind : Option Nat) : Option LoopError :=
  if set.stopOnError = true ∧ r.error.isSome = true then r.error else
    some { kind := kind, index := (r.slot - 2) % 4, pass := min 65535 (r.passes + 1), payload := payload, upKind := upKind }

theorem LoopRecord.write_advance (r : LoopRecord) (set : LoopSetup) (kind : Miscompare) (payload : Option Payload) (upKind : Option Nat) :
    (r.write set (kind, payload, upKind)).advance set = { r.advance set with error := r.missed set kind payload upKind } := by
  unfold LoopRecord.write LoopRecord.missed
  split <;> rfl

/-- The record after its slot, the error apart (R156). -/
theorem LoopRecord.advance_eq {r r' : LoopRecord} {set : LoopSetup} (hctx : r'.ctx = r.ctx) (haddress : r'.address = r.address)
    (hslot : r'.slot = if r.slot < 4294967295 then r.slot + 1 else if set.continuous = true then 4 else r.slot)
    (hpass : set.compares r.slot = true ∧ r.slot % 4 = 1 → r'.passes = min 65535 (r.passes + 1))
    (hkeep : ¬ (set.compares r.slot = true ∧ r.slot % 4 = 1) → r'.passes = r.passes)
    (hfinish : r'.finish = if set.continuous = false ∧ 0 < set.passLimit ∧ r.slot = 4 * set.passLimit + 1 then .done else r.finish)
    (e : Option LoopError) : { r.advance set with error := e } = { r' with error := e } := by
  have hpasses : (r.advance set).passes = r'.passes := by
    show (if set.compares r.slot ∧ (r.slot - 2) % 4 = 3 then satInc r.passes else r.passes) = r'.passes
    by_cases h : set.compares r.slot = true ∧ r.slot % 4 = 1
    · rw [hpass h, if_pos ⟨h.1, by have := ((set.compares_iff _).mp h.1).1; omega⟩, satInc_eq_min]
    · rw [hkeep h, if_neg fun hc => h ⟨hc.1, by have := ((set.compares_iff _).mp hc.1).1; omega⟩]
  have hfin : (r.advance set).finish = r'.finish := by
    rw [hfinish]
    simp [LoopRecord.advance, LoopSetup.lastSlot]
  have hnum : (r.advance set).slot = r'.slot := hslot.symm
  simp only [hpasses, hfin, hnum, hctx, haddress, LoopRecord.mk.injEq, and_true]
  exact ⟨rfl, rfl⟩

theorem LoopTester.put_eq {t : LoopTester} {c : CtxId} {before after : List LoopRecord} {r : LoopRecord} (ht : t.records = before ++ r :: after)
    (hr : r.ctx = c) (hne : ∀ y, y ∈ before ∨ y ∈ after → y.ctx ≠ c) (g : LoopRecord → LoopRecord) :
    t.put c g = { t with records := before ++ g r :: after } := by
  have same (ys : List LoopRecord) (h : ∀ y ∈ ys, y.ctx ≠ c) : ys.map (fun r => if r.ctx = c then g r else r) = ys :=
    (List.map_congr_left fun y hy => if_neg (h y hy)).trans (List.map_id ys)
  rw [LoopTester.put, ht, List.map_append, List.map_cons, if_pos hr, same before fun y hy => hne y (.inl hy), same after fun y hy => hne y (.inr hy)]

section
variable {p : Part} {l : LineId} {c : CtxId} {z : Context} {q : EventQueue} {f : FaultRecord} {fs tail : List Rec} {cls : SlotClass}

theorem Part.modLoop_during (g : LoopTester → LoopTester) : (p.during l c z q f).modLoop l g = (p.modLoop l g).during l c z q f := by
  rw [Part.eq_during (p := p.modLoop l g) (l := l) (c := c) (r := (p.during l c z q f).modLoop l g)]
  · simp [Part.modLoop]
  · simp [Part.modLoop]
  · exact fun m h => by simp [Part.modLoop, h]
  · exact fun d h => by simp [Part.modLoop, h]
  · simp [Part.modLoop]
  · simp [Part.modLoop]

variable {set : LoopSetup} {before after : List LoopRecord} {r : LoopRecord} (hset : (p.line l).loop.setup = some set)
  (hrec : (p.line l).loop.records = before ++ r :: after) (hr : r.ctx = c) (hne : ∀ y, y ∈ before ∨ y ∈ after → y.ctx ≠ c)

/-- Line l of the part with its loop record and error flag so. -/
def Part.withRecord (p : Part) (l : LineId) (before after : List LoopRecord) (r : LoopRecord) (flag : Bool) : Part :=
  p.modLoop l fun t => { t with records := before ++ r :: after, errorFlag := flag }

include hset hrec hr hne

/-- A slot that is not compared, or a right echo. -/
theorem Ev.loopCompletion_right (hok : set.compares r.slot = true → compareEcho (set.payload (r.slot - 2)) cls = none) :
    Ev.loopCompletion { part := p.during l c z q f, faults := fs, tail := tail } l c cls =
      { part := (p.withRecord l before after (r.advance set) (p.line l).loop.errorFlag).during l c z q f, faults := fs, tail := tail } := by
  have hfind : (p.line l).loop.record c = some r := by rw [LoopTester.record, hrec, find?_record hr fun y hy => hne y (.inl hy)]
  have hbad : (if set.compares r.slot = true then compareEcho (set.payload (r.slot - 2)) cls else none) = none := by
    split
    · exact hok ‹_›
    · rfl
  simp only [Ev.loopCompletion, Part.line_during, hset, hfind, hbad, Ev.map, Part.modLoop_during]
  congr 2
  simp only [Part.withRecord, Part.modLoop, Part.modLine, LoopTester.put_eq hrec hr hne]

/-- A miscompare: the error is written, the flag set, LOOP_MISCOMPARE recorded (R157). -/
theorem Ev.loopCompletion_miss (hz : z.lineId = some l) (hc : set.compares r.slot = true) {kind : Miscompare} {payload : Option Payload}
    {upKind : Option Nat} (hbad : compareEcho (set.payload (r.slot - 2)) cls = some (kind, payload, upKind)) :
    Ev.loopCompletion { part := p.during l c z q f, faults := fs, tail := tail } l c cls =
      { part := (p.withRecord l before after { r.advance set with error := r.missed set kind payload upKind } true).during l c z q
          (recordAll f [slotFault l c (p.line l) .loopMiscompare (some (.miscompare kind))]).1
        faults := fs ++ (recordAll f [slotFault l c (p.line l) .loopMiscompare (some (.miscompare kind))]).2, tail := tail } := by
  have hfind : (p.line l).loop.record c = some r := by rw [LoopTester.record, hrec, find?_record hr fun y hy => hne y (.inl hy)]
  have hframe (g : LoopTester → LoopTester) : slotFault l c ((p.modLoop l g).line l) .loopMiscompare (some (.miscompare kind)) =
      slotFault l c (p.line l) .loopMiscompare (some (.miscompare kind)) := by
    rw [Part.modLoop, Part.line_modLine_self]
    rfl
  simp only [Ev.loopCompletion, Part.line_during, hset, hfind, hc, if_true, hbad, Ev.map, Part.modLoop_during, Ev.detectAt_during hz, hframe]
  congr 2
  simp only [Part.withRecord, Part.modLoop, Part.modLine, LoopTester.put_eq hrec hr hne, LoopRecord.write_advance]

end

/-! ### The end of a participant's slot -/

/-- A context without a chip session in SENDING has no command stream. -/
theorem streamed_of_session {x : Context} (h : x.session ≠ .sending) (ln : Line) (pr : Profile) (u : DownUnit) : streamed ln pr u x = x := by
  unfold streamed
  cases hc : x.chip with
  | none => exact congrArg (fun ch => { x with chip := ch }) hc.symm
  | some k =>
    rw [Option.map_some, if_neg (by rwa [← Context.session_eq hc]), ← hc]

theorem notArming_of_noOps {x : Context} (h : NoOps x) : NotArming x := fun e he => by rw [h.entry] at he; cases he

section
variable {s : State} {l : LineId} {i : Nat} {run : SlotRun} {up : Upstream} {pr : Profile}

/-- A slot of the loop sequence whose event leaves line l as that of part p' and its detections as ds. -/
theorem loopSlot_ends (hs : OperationsSound s) (hslot : SlotEnds s l i run pr) (hfrom : run.fromLoop = true)
    (ha : (s.part.ctx run.ctx).attach = .looping) {early ds : List Detection} {p' : Part}
    (hearly : (s.part.slotEvent l run []).damagedUnit run (classify up) = s.part.slotEvent l run early)
    (hp' : ∃ g, p' = s.part.modLoop l g)
    (hloop : Ev.loopCompletion { part := s.part.during l run.ctx (s.part.ctx run.ctx) s.part.queue (recordAll s.part.faults early).1
                                 faults := (recordAll s.part.faults early).2, tail := [] } l run.ctx (classify up) =
      { part := p'.during l run.ctx (s.part.ctx run.ctx) s.part.queue (recordAll s.part.faults ds).1, faults := (recordAll s.part.faults ds).2
        tail := [] }) :
    ∃ p, exec (.slotCompletion l i up) s = .next { s with part := p } ∧ p.line l = { p'.line l with inSlot := none } ∧
      (∀ m, m ≠ l → p.line m = s.part.line m) ∧ SameContexts s.part p ∧ SamePositions s.part p ∧ p.link = s.part.link ∧
      EventEnds ds [] s.part p := by
  obtain ⟨hrun, hi, hdue, hpr, hl⟩ := hslot
  obtain ⟨g, rfl⟩ := hp'
  have hops := (opsOk_of_sound hs run.ctx).noOps_of_attach (by rw [ha]; nofun)
  have hhold : (s.part.ctx run.ctx).stepHolds run.unit = s.part.ctx run.ctx := Context.stepHolds_of_not_attached (by rw [ha]; nofun) _
  have htake : (s.part.slotEvent l run early).takeUnit l run (classify up) = (s.part.slotEvent l run early).loopCompletion l run.ctx (classify up) := by
    rw [Part.slotEvent, hhold]
    simp only [Ev.takeUnit, Part.ctx_during, ha, hfrom, if_true]
  rw [Part.slotEvent, hhold, hloop] at htake
  have hend := Part.completeSlot_eq hearly (by rw [Part.slotEvent, hhold]; exact htake) hpr hl
  rw [streamed_of_session (by rw [hops.session]; nofun), Ev.stepArming_during (notArming_of_noOps hops), Ev.finish_during] at hend
  refine ⟨_, exec_slotCompletion hrun hi hdue, ?_⟩
  rw [hend]
  have hoffer := Part.offerAll_congr (p := { s.part.modLoop l g with queue := s.part.queue, faults := (recordAll s.part.faults ds).1 })
    (q := { s.part with faults := (recordAll s.part.faults ds).1 }) ((recordAll s.part.faults ds).2 ++ []) rfl rfl
  refine ⟨Part.line_during, fun m hm => ?_, fun d => ?_, fun j => ?_, ?_, hoffer⟩
  · rw [Part.line_during_ne hm, Part.modLoop, Part.line_modLine_ne _ _ hm]
  · by_cases hd : d = run.ctx
    · rw [hd, Part.ctx_during]
    · rw [Part.ctx_during_ne hd, Part.modLoop, Part.ctx_modLine]
  · rw [Part.position_during, Part.modLoop, Part.position_modLine]
  · rw [Part.link_during, Part.modLoop, Part.link_modLine]

end

/-- Settles O51: the class of the slot's unit gives the compare, and the record moves on whatever it finds. -/
theorem loopSlotIsCompared : Obligations.LoopSlotIsCompared := by
  intro s l i run pr set before after r hs hslot c ln hfrom ha hset hrec hr hne m compared expected r' hctx haddress hnum hpass hkeep hfinish line ends
    miss fault damage right
  have hcomp : set.compares r.slot = true ↔ compared := set.compares_iff _
  have hadv (e : Option LoopError) : { r.advance set with error := e } = { r' with error := e } :=
    LoopRecord.advance_eq (hctx.trans hr.symm) haddress hnum (fun h => hpass ⟨hcomp.mp h.1, h.2⟩)
      (fun h => hkeep fun h' => h ⟨hcomp.mpr h'.1, h'.2⟩) hfinish e
  have hlid : (s.part.ctx c).lineId = some l := by
    obtain ⟨-, -, -, hpr, hl⟩ := hslot
    rw [Context.lineId, hpr, Option.map_some, hl]
  have hright {up : Upstream} {early : List Detection}
      (hearly : (s.part.slotEvent l run []).damagedUnit run (classify up) = s.part.slotEvent l run early)
      (hok : compared → compareEcho expected (classify up) = none) : ends up (line right ln.loop.errorFlag) early := by
    obtain ⟨p, hp, hline, hrest⟩ := loopSlot_ends hs hslot hfrom ha hearly ⟨_, rfl⟩
      (Ev.loopCompletion_right hset hrec hr hne fun h => hok (hcomp.mp h))
    refine ⟨p, hp, hline.trans ?_, hrest⟩
    rw [Part.modLoop, Part.line_modLine_self, show r.advance set = right from hadv r.error]
  have hmiss {up : Upstream} {early : List Detection} {kind : Miscompare} {payload : Option Payload} {upKind : Option Nat}
      (hearly : (s.part.slotEvent l run []).damagedUnit run (classify up) = s.part.slotEvent l run early) (hc : compared)
      (hbad : compareEcho expected (classify up) = some (kind, payload, upKind)) :
      ends up (line (miss kind payload upKind) true) (early ++ [fault kind]) := by
    have hloop := Ev.loopCompletion_miss (p := s.part) (q := s.part.queue) (f := (recordAll s.part.faults early).1)
      (fs := (recordAll s.part.faults early).2) (tail := []) hset hrec hr hne hlid (hcomp.mpr hc) hbad
    have happ := recordAll_append s.part.faults early [fault kind]
    obtain ⟨p, hp, hline, hrest⟩ := loopSlot_ends hs hslot hfrom ha (ds := early ++ [fault kind]) hearly ⟨_, rfl⟩ (hloop.trans (by rw [happ]; rfl))
    refine ⟨p, hp, hline.trans ?_, hrest⟩
    rw [Part.modLoop, Part.line_modLine_self, hadv]
    rfl
  have hgood {up : Upstream} (h : ∀ v, classify up ≠ .damaged v) := Part.damagedUnit_of_good (p := s.part) (l := l) (run := run) h
  refine ⟨fun up hup => ?_, fun start nbits w hbad => ?_, fun start kind w hstart => ?_⟩
  · have hcls := classify_silent hup
    have hearly := hgood (up := up) (by rw [hcls]; nofun)
    exact ⟨fun hc => hmiss hearly hc (by rw [hcls]; rfl), fun hc => hright hearly fun h => absurd h hc⟩
  · obtain ⟨v, hcls, hv⟩ := classify_damaged hbad
    have hearly : (s.part.slotEvent l run []).damagedUnit run (classify (.unit start nbits w)) = s.part.slotEvent l run [damage] := by
      rw [hcls, Part.damagedUnit_damaged hlid (by rw [ha]; nofun) (by rw [ha]; nofun), hslot.2.1]
      rfl
    refine ⟨fun hc => hright hearly fun h => absurd h hc, fun hc v' hv' => ?_⟩
    have hvv : v' = v := BitVec.eq_of_getLsbD_eq fun j hj => (hv' ⟨j, hj⟩).trans (hv j hj).symm
    exact hmiss hearly hc (by rw [hcls, hvv]; rfl)
  · have hcls := classify_unitWord hstart kind w
    have hearly := hgood (up := .unit start 24 (unitWord kind w)) (by rw [hcls]; nofun)
    have hkind : kind = 12 ↔ kind.toNat = 12 := ⟨fun h => by rw [h]; rfl, fun h => BitVec.eq_of_toNat_eq h⟩
    refine ⟨fun hc hecho => hright hearly fun _ => ?_, fun hc hecho => hmiss hearly hc ?_, fun hc => hright hearly fun h => absurd h hc⟩
    · rw [hcls]
      exact if_pos ⟨hkind.mp hecho.1, hecho.2⟩
    · rw [hcls]
      exact if_neg fun h => hecho ⟨hkind.mpr h.1, h.2⟩

end Sys2Proof.Machine
end

section
/-! PROOFS. Silent and damaged slots (O46): misses and the loss of a drop (R51, R52), with the endings it causes (R57). -/

namespace Sys2Proof.Machine

open Sys2Proof.Safety

/-! ### Endings within the event -/

section
variable {p : Part} {l : LineId} {c : CtxId} {z : Context} {q : EventQueue} {f : FaultRecord} {fs tail : List Rec}

/-- The operation of the slot's context, if any, ends with a cause (R57). -/
theorem Part.endOps_during (hz : z.lineId = some l) (hops : OpsOk q.reservations c z) (why : Cause) : (p.during l c z q f).endOps c why =
    p.during l c { withoutOps z with lateBlock := z.lateAfter why } (endedOps c z why q) f := by
  have hctx : (p.during l c z q f).ctx c = z := Part.ctx_during
  have hops' : OpsOk (p.during l c z q f).queue.reservations c ((p.during l c z q f).ctx c) := by rw [hctx]; exact hops
  have h := Part.ends_during (Ends.endOps (p := p.during l c z q f) (c := c) why)
    fun m hm => Part.line_endOps_ne _ _ (by rw [hctx, hz]; exact fun h => hm (Option.some.inj h).symm) _
  rw [h, Part.ctx_endOps hops', Part.queue_endOps hops', hctx, Part.queue_during]

/-- The CARD notice of a loss, if any (R52, R116). -/
def cardNotice (l : LineId) (c : CtxId) (z : Context) : List Rec :=
  match z.reader with
  | some r => if r.card = .unknown then [] else [.of (.card r.card .unknown .lost z.latchPower) z.holder (some c) (some l)]
  | none => []

theorem Part.cardLost_during (hz : z.lineId = some l) : (p.during l c z q f).cardLost c =
    (p.during l c { z with reader := z.reader.map fun r => { r with card := .unknown } } q f).offerAll (cardNotice l c z) := by
  have hctx : (p.during l c z q f).ctx c = z := Part.ctx_during
  unfold Part.cardLost cardNotice
  rw [hctx]
  cases hr : z.reader with
  | none =>
    show p.during l c z q f = p.during l c { z with reader := none } q f
    rw [← hr]
  | some r =>
    by_cases hcard : r.card = .unknown
    · simp only [hcard, if_true, Option.map_some]
      rw [← hcard, show ({ r with card := r.card } : Reader) = r from rfl, ← hr]
      rfl
    · simp only [if_neg hcard, hz, Part.modCtx_during]
      rw [Context.modReader, hr]
      rfl

theorem Ev.closeDrop_during {pr : Profile} (hz : z.profile = some pr) (hl : pr.line = l) (cause : DropCause) (restart : Bool)
    (hello : Option HelloInfo) :
    Ev.closeDrop { part := p.during l c z q f, faults := fs, tail := tail } c cause restart hello =
      { part := p.during l c z q f, faults := fs
        tail := tail ++ [.of (.drop pr.address z.attach cause restart hello) none (some c) (some l)] } := by
  have hctx : (p.during l c z q f).ctx c = z := Part.ctx_during
  simp only [Ev.closeDrop, Ev.close, Part.dropNotice, hctx, Context.lineId, hz, Option.map_some, hl]

end

/-! ### A loss (R52) -/

/-- The context after a loss. -/
def Context.lostAt (x : Context) (n : Nat) : Context :=
  { leftFor .lost x with
    miss := n, chip := (leftFor .lost x).chip.map fun h => { h with reportedLatch := .unknown, reportedPower := .unknown } }

/-- Of an ATTACHED context a loss leaves the same whatever the slot has done to holds and to the FRESH mark (R30, R52). -/
theorem Context.afterLoss_eq {x : Context} (ha : x.attach = .attached) (u : DownUnit) (n : Nat) (b : Bool) :
    let y : Context := { withoutOps { stepped u x with miss := n } with lateBlock := b }
    { y.afterLoss with reader := y.afterLoss.reader.map fun r => { r with card := .unknown } } = x.lostAt n := by
  simp only [Context.lostAt, leftFor, ha, if_true, Context.afterLoss, Context.leaveAttached, Context.clearService, withoutOps, stepped, heldBy,
    Option.map_map]
  rfl

theorem noOps_withoutOps (x : Context) : NoOps (withoutOps x) where
  holder := rfl
  entry := by
    simp only [Context.entry, withoutOps]
    cases x.keypad with
    | none => rfl
    | some k => cases he : k.entry <;> simp [he]
  capture := by
    simp only [Context.capture, withoutOps]
    cases x.reader with
    | none => rfl
    | some r => cases hu : r.capture <;> simp [hu]
  session := by
    simp only [Context.session, withoutOps]
    cases x.chip with
    | none => rfl
    | some h => by_cases hs : h.session = .off <;> simp [sessionOff, hs]

theorem noOps_lostAt {x : Context} (ha : x.attach = .attached) (n : Nat) : NoOps (x.lostAt n) := by
  have h := noOps_withoutOps x
  rw [Context.lostAt, leftFor, if_pos ha]
  refine ⟨h.holder, h.entry, ?_, ?_⟩
  · have hu := h.capture
    simp only [Context.capture] at hu ⊢
    cases hr : (withoutOps x).reader with
    | none => rfl
    | some r =>
      rw [hr] at hu
      exact hu
  · have hs := h.session
    simp only [Context.session] at hs ⊢
    cases hc : (withoutOps x).chip with
    | none => rfl
    | some k =>
      rw [hc] at hs
      exact hs

theorem profile_lostAt {x : Context} (ha : x.attach = .attached) {pr : Profile} (hpr : x.profile = some pr) (n : Nat) :
    (x.lostAt n).profile = some pr := by
  rw [Context.lostAt, leftFor, if_pos ha]
  exact hpr

theorem offered_congr {rs : List Rec} {p q r : Part} (hq : p.queue = q.queue) (hf : p.faults = q.faults) (h : Offered rs p r) : Offered rs q r := by
  have hsame := Part.offerAll_congr rs hq hf
  exact ⟨h.1.trans hsame.1, h.2.trans hsame.2⟩

/-- A CARD notice of a loss, in the terms of the context before it (R116). -/
def cardsLost (l : LineId) (c : CtxId) (x : Context) : List Rec :=
  match x.reader with
  | some r => if r.card = .unknown then [] else
    [{ level := 0, pos := none, ctx := some c, line := some l
       body := .card r.card .unknown .lost (x.chip.map fun _ => (.unknown, .unknown)) }]
  | none => []

theorem cardNotice_afterLoss (l : LineId) (c : CtxId) (x : Context) (u : DownUnit) (n : Nat) (b : Bool) :
    cardNotice l c ({ withoutOps { stepped u x with miss := n } with lateBlock := b } : Context).afterLoss = cardsLost l c x := by
  unfold cardNotice cardsLost
  simp only [Context.afterLoss, withoutOps, stepped, heldBy, Context.latchPower, Option.map_map]
  cases x.reader with
  | none => rfl
  | some r => by_cases hu : r.capture.isSome = true <;> simp only [Option.map_some, hu, if_true] <;> rfl

theorem OpsOk.stepped {held : List Reservation} {c : CtxId} {x : Context} (h : OpsOk held c x) (u : DownUnit) (n : Nat) :
    OpsOk held c { Safety.stepped u x with miss := n } := by
  have hsame : CtxOps x { Safety.stepped u x with miss := n } := .of_blocks rfl rfl rfl rfl rfl rfl
  exact OpsOk.of_ctxOps hsame h

section
variable {p : Part} {l : LineId} {c : CtxId} {q : EventQueue} {f : FaultRecord} {fs : List Rec}

/-- The loss of a drop whose slot has been silent or damaged (R52, R57, R116). -/
theorem Ev.dropLost_during {x : Context} {pr : Profile} (hpr : x.profile = some pr) (hl : pr.line = l) (ha : x.attach = .attached)
    (hops : OpsOk q.reservations c x) (u : DownUnit) (n : Nat) :
    let p1 : Part := ({ p with queue := endedOps c x .dropLost q, faults := f } : Part).offerAll (cardsLost l c x)
    let d := slotFault l c (p.line l) .dropLost (some (.threshold pr.q))
    Ev.dropLost { part := p.during l c { stepped u x with miss := n } q f, faults := fs, tail := [] } c pr.q =
      { part := p.during l c (x.lostAt n) p1.queue (recordAll p1.faults [d]).1, faults := fs ++ (recordAll p1.faults [d]).2
        tail := [.of (.drop pr.address .lost .lost false none) none (some c) (some l)] } := by
  intro p1 d
  have hlid : x.lineId = some l := by rw [Context.lineId, hpr, Option.map_some, hl]
  have hz := profile_lostAt ha hpr n
  have hattach : (x.lostAt n).attach = .lost := by rw [Context.lostAt, leftFor, if_pos ha]
  have hzid : (x.lostAt n).lineId = some l := by rw [Context.lineId, hz, Option.map_some, hl]
  simp only [Ev.dropLost, Ev.map]
  rw [Part.endOps_during (z := { Safety.stepped u x with miss := n }) hlid (hops.stepped u n), Part.modCtx_during, Part.cardLost_during (by exact hlid),
    Context.afterLoss_eq ha, cardNotice_afterLoss, Part.offerAll_during, Ev.detectAt_during hzid, Ev.closeDrop_during hz hl, hattach]
  rfl

theorem Ev.miss_during {z : Context} {pr : Profile} {tail : List Rec} (hz : z.profile = some pr) (hl : pr.line = l) :
    Ev.miss { part := p.during l c z q f, faults := fs, tail := tail } c =
      if (p.line l).state = .run then
        if pr.q ≤ z.miss + 1
        then Ev.dropLost { part := p.during l c { z with miss := z.miss + 1 } q f, faults := fs, tail := tail } c pr.q
        else { part := p.during l c { z with miss := z.miss + 1 } q f, faults := fs, tail := tail }
      else { part := p.during l c z q f, faults := fs, tail := tail } := by
  have hctx (z : Context) : (p.during l c z q f).ctx c = z := Part.ctx_during
  subst hl
  simp only [Ev.miss, hctx, hz, Part.line_during, Ev.map, Part.modCtx_during]

end

/-! ### Slots that bring nothing -/

section
variable {p : Part} {l : LineId} {run : SlotRun} {cls : SlotClass}

theorem Part.takeUnit_missed (ha : (p.ctx run.ctx).attach = .attached) (hcls : ∀ kind w, cls ≠ .received kind w) (early : List Detection) :
    (p.slotEvent l run early).takeUnit l run cls =
      Ev.miss { part := p.during l run.ctx (stepped run.unit (p.ctx run.ctx)) p.queue (recordAll p.faults early).1
                faults := (recordAll p.faults early).2, tail := [] } run.ctx := by
  have hx : ((p.slotEvent l run early).part.ctx run.ctx).attach = .attached := by
    rw [Part.slotEvent, Part.ctx_during, Context.attach_stepHolds, ha]
  have hmod : ((p.slotEvent l run early).map fun p => p.modCtx run.ctx fun x => { x with fresh := false }) =
      { part := p.during l run.ctx (stepped run.unit (p.ctx run.ctx)) p.queue (recordAll p.faults early).1
        faults := (recordAll p.faults early).2, tail := [] } := by
    rw [Part.slotEvent, Ev.map, Part.modCtx_during, Context.stepHolds_of_attached ha]
    rfl
  unfold Ev.takeUnit
  cases cls with
  | received kind w => exact absurd rfl (hcls kind w)
  | silent => simp only [hx, hmod]
  | damaged v => simp only [hx, hmod]

theorem Part.during_self (p : Part) (l : LineId) (c : CtxId) :
    p.during l c (p.ctx c) p.queue p.faults = p.setLine l { p.line l with inSlot := none } := by
  have h := Part.eq_during (p := p) (l := l) (c := c) (r := p.setLine l { p.line l with inSlot := none }) (by simp) (fun m h => by simp [h])
    (fun d _ => by simp) (by simp) (by simp)
  rw [h]
  simp

theorem Context.modChip_same {x : Context} {g : Chip → Chip} (h : ∀ k, x.chip = some k → g k = k) : x.modChip g = x := by
  have hmap : x.chip.map g = x.chip := by
    cases hc : x.chip with
    | none => rfl
    | some k => rw [Option.map_some, h k hc]
  rw [Context.modChip, hmap]

/-- The completion of a slot whose unit reaches a context without operations, which takes nothing from it. -/
theorem Part.completeSlot_idle {early : List Detection} (ha : (p.ctx run.ctx).attach ≠ .attached) (hops : NoOps (p.ctx run.ctx))
    (hearly : (p.slotEvent l run []).damagedUnit run cls = p.slotEvent l run early)
    (htake : (p.slotEvent l run early).takeUnit l run cls = p.slotEvent l run early) :
    p.completeSlot l run cls = Ev.finish { part := p.during l run.ctx (p.ctx run.ctx) p.queue (recordAll p.faults early).1
                                           faults := (recordAll p.faults early).2, tail := [] } := by
  have hsent : (p.during l run.ctx (p.ctx run.ctx) p.queue (recordAll p.faults early).1).commandSent run.ctx run.unit =
      p.during l run.ctx (p.ctx run.ctx) p.queue (recordAll p.faults early).1 := by
    rw [Part.commandSent, Part.modCtx_during]
    refine congrArg (p.during l run.ctx · p.queue _) ?_
    refine Context.modChip_same fun k hc => if_neg fun h => ?_
    rw [← Context.session_eq hc, hops.session] at h
    cases h.1
  rw [Part.completeSlot, Part.beginSlot_eq, hearly, htake, Part.slotEvent, Context.stepHolds_of_not_attached ha, Ev.map, hsent,
    Ev.stepArming_during (notArming_of_noOps hops)]

theorem readUnit_ne_hello {kind : Nat} (h : kind ≠ 1) (w : Payload) (code : Nat) (start display : Bool) (lamps : Nat) :
    readUnit kind w ≠ .hello code start display lamps := by
  unfold readUnit
  split
  case h_2 => exact absurd rfl h
  all_goals exact nofun

/-- Before a drop is attached, a slot without a HELLO changes nothing (R46). -/
theorem Part.takeUnit_unheard {early : List Detection}
    (ha : (p.ctx run.ctx).attach = .waiting ∨ (p.ctx run.ctx).attach = .lost ∨ (p.ctx run.ctx).attach = .mismatch)
    (hcls : ∀ kind w, cls = .received kind w → kind ≠ 1) : (p.slotEvent l run early).takeUnit l run cls = p.slotEvent l run early := by
  have hx : ((p.slotEvent l run early).part.ctx run.ctx).attach = (p.ctx run.ctx).attach := by
    rw [Part.slotEvent, Part.ctx_during, Context.attach_stepHolds]
  rw [← hx] at ha
  have hread {kind : Nat} {w : Payload} (h : kind ≠ 1) (e : Ev) (g : Nat → Bool → Nat → Ev) :
      (match readUnit kind w with
      | .hello code _ display lamps => g code display lamps
      | _ => e) = e := by
    split
    · rename_i hr
      exact absurd hr (readUnit_ne_hello h _ _ _ _ _)
    · rfl
  cases cls with
  | received kind w => rcases ha with ha | ha | ha <;> simp only [Ev.takeUnit, ha] <;> exact hread (hcls kind w rfl) ..
  | silent => rcases ha with ha | ha | ha <;> simp only [Ev.takeUnit, ha]
  | damaged v => rcases ha with ha | ha | ha <;> simp only [Ev.takeUnit, ha]

theorem Part.takeUnit_absent (h : (p.ctx run.ctx).attach = .free ∨ (p.ctx run.ctx).attach = .parked) (early : List Detection) :
    (p.slotEvent l run early).takeUnit l run cls = p.slotEvent l run early := by
  have hx : ((p.slotEvent l run early).part.ctx run.ctx).attach = (p.ctx run.ctx).attach := by
    rw [Part.slotEvent, Part.ctx_during, Context.attach_stepHolds]
  rw [← hx] at h
  rcases h with h | h <;> simp only [Ev.takeUnit, h]

theorem Part.takeUnit_foreign (h : (p.ctx run.ctx).attach = .looping) (hf : run.fromLoop = false) (early : List Detection) :
    (p.slotEvent l run early).takeUnit l run cls = p.slotEvent l run early := by
  have hx : ((p.slotEvent l run early).part.ctx run.ctx).attach = .looping := by
    rw [Part.slotEvent, Part.ctx_during, Context.attach_stepHolds, h]
  simp [Ev.takeUnit, hx, hf]

end

section
variable {s : State} {l : LineId} {i : Nat} {run : SlotRun} {up : Upstream} {pr : Profile}

/-- Of a silent or damaged slot: the detections so far, when the context takes slot completions. -/
theorem damagedUnit_of_bad (hslot : SlotEnds s l i run pr) (h1 : (s.part.ctx run.ctx).attach ≠ .free) (h2 : (s.part.ctx run.ctx).attach ≠ .parked)
    {early : List Detection} (hup : (Silent up ∧ early = []) ∨
      (Damaged up ∧ early = [slotFault l run.ctx (s.part.line l) .unitDamaged (some (.slot i))])) :
    (s.part.slotEvent l run []).damagedUnit run (classify up) = s.part.slotEvent l run early ∧ ∀ kind w, classify up ≠ .received kind w := by
  obtain ⟨-, rfl, -, hpr, hl⟩ := hslot
  have hlid : (s.part.ctx run.ctx).lineId = some l := by rw [Context.lineId, hpr, Option.map_some, hl]
  rcases hup with ⟨hup, rfl⟩ | ⟨hup, rfl⟩
  · rw [classify_silent hup]
    exact ⟨Part.damagedUnit_of_good nofun, nofun⟩
  · obtain ⟨v, hv⟩ := exists_classify_damaged hup
    rw [hv]
    exact ⟨Part.damagedUnit_damaged hlid h1 h2 v, nofun⟩

/-- A slot that brings nothing to a context without operations: its detections are reported, and nothing else changes. -/
theorem settles_idle (hrun : (s.part.line l).inSlot = some run) (hi : run.index = i) (hdue : NoExpiryDue s.part l)
    (ha : (s.part.ctx run.ctx).attach ≠ .attached) (hs : OperationsSound s) {early : List Detection}
    (hearly : (s.part.slotEvent l run []).damagedUnit run (classify up) = s.part.slotEvent l run early)
    (htake : (s.part.slotEvent l run early).takeUnit l run (classify up) = s.part.slotEvent l run early) :
    exec (.slotCompletion l i up) s = .next { s with
      part := Ev.finish { part := s.part.during l run.ctx (s.part.ctx run.ctx) s.part.queue (recordAll s.part.faults early).1
                          faults := (recordAll s.part.faults early).2, tail := [] } } := by
  rw [exec_slotCompletion hrun hi hdue, Part.completeSlot_idle ha ((opsOk_of_sound hs _).noOps_of_attach ha) hearly htake]

theorem settles_nothing (hrun : (s.part.line l).inSlot = some run) (hi : run.index = i) (hdue : NoExpiryDue s.part l)
    (ha : (s.part.ctx run.ctx).attach ≠ .attached) (hs : OperationsSound s)
    (hearly : (s.part.slotEvent l run []).damagedUnit run (classify up) = s.part.slotEvent l run [])
    (htake : (s.part.slotEvent l run []).takeUnit l run (classify up) = s.part.slotEvent l run []) :
    exec (.slotCompletion l i up) s = .next { s with part := s.part.setLine l { s.part.line l with inSlot := none } } := by
  rw [settles_idle hrun hi hdue ha hs hearly htake, ← Part.during_self s.part l run.ctx]
  rfl

end

/-- Settles O46: the class of the unit and the attachment state decide what the completion does. -/
theorem silentSlotMissesThenLoses : Obligations.SilentSlotMissesThenLoses := by
  refine ⟨fun s l i start run pr kind w hslot hs hstart hkind ha => ?_, fun s l i run up hrun hi hdue hs => ?_,
    fun s l i run pr up early hslot hs => ?_⟩
  · have hcls := classify_unitWord hstart kind w
    have hne : kind.toNat ≠ 1 := fun h => hkind (BitVec.eq_of_toNat_eq h)
    refine settles_nothing hslot.1 hslot.2.1 hslot.2.2.1 (by rcases ha with h | h | h <;> rw [h] <;> exact nofun) hs
      (Part.damagedUnit_of_good (by rw [hcls]; exact nofun)) (Part.takeUnit_unheard ha fun k v h => ?_)
    rw [hcls] at h
    cases h
    exact hne
  · intro x ends ended
    refine ⟨fun ha => ?_, fun ha hf => ⟨fun hd => ?_, fun hd hlid => ?_⟩⟩
    · exact settles_nothing hrun hi hdue (by rcases ha with h | h <;> rw [show (s.part.ctx run.ctx).attach = _ from h] <;> exact nofun) hs
        (Part.damagedUnit_of_absent ha) (Part.takeUnit_absent ha [])
    · exact settles_nothing hrun hi hdue (by rw [show (s.part.ctx run.ctx).attach = _ from ha]; exact nofun) hs
        (Part.damagedUnit_of_good (classify_of_not_damaged hd)) (Part.takeUnit_foreign ha hf [])
    · obtain ⟨v, hv⟩ := exists_classify_damaged hd
      have hne : (s.part.ctx run.ctx).attach ≠ .attached := by rw [show (s.part.ctx run.ctx).attach = _ from ha]; exact nofun
      have hearly := Part.damagedUnit_damaged (p := s.part) (run := run) hlid (by rw [show (s.part.ctx run.ctx).attach = _ from ha]; exact nofun)
        (by rw [show (s.part.ctx run.ctx).attach = _ from ha]; exact nofun) v
      rw [← hv] at hearly
      refine ⟨_, settles_idle hrun hi hdue hne hs hearly (Part.takeUnit_foreign ha hf _), ?_⟩
      have hended : ended = s.part.during l run.ctx (s.part.ctx run.ctx) s.part.queue s.part.faults := (Part.during_self ..).symm
      rw [Ev.finish_during, hi]
      refine ⟨fun m => ?_, fun d => ?_, fun j => ?_, Part.link_during, rfl, rfl⟩
      · rw [hended]
        by_cases hm : m = l
        · rw [hm, Part.line_during, Part.line_during]
        · rw [Part.line_during_ne hm, Part.line_during_ne hm]
      · rw [hended]
        by_cases hd : d = run.ctx
        · rw [hd, Part.ctx_during, Part.ctx_during]
        · rw [Part.ctx_during_ne hd, Part.ctx_during_ne hd]
      · rw [hended, Part.position_during, Part.position_during]
  · intro c x ln at_ hup y ends
    refine ⟨fun ha => ?_, fun ha => ?_⟩
    · obtain ⟨hearly, hcls⟩ := damagedUnit_of_bad (up := up) hslot (by rcases ha with h | h | h <;> rw [show (s.part.ctx run.ctx).attach = _ from h] <;> exact nofun)
        (by rcases ha with h | h | h <;> rw [show (s.part.ctx run.ctx).attach = _ from h] <;> exact nofun) hup
      have hne : (s.part.ctx run.ctx).attach ≠ .attached := by
        rcases ha with h | h | h <;> rw [show (s.part.ctx run.ctx).attach = _ from h] <;> exact nofun
      exact settles_of_finish hslot (Part.completeSlot_idle hne ((opsOk_of_sound hs _).noOps_of_attach hne) hearly
        (Part.takeUnit_unheard ha fun kind w h => absurd h (hcls kind w)))
    · obtain ⟨hearly, hcls⟩ := damagedUnit_of_bad (up := up) hslot (by rw [show (s.part.ctx run.ctx).attach = _ from ha]; exact nofun)
        (by rw [show (s.part.ctx run.ctx).attach = _ from ha]; exact nofun) hup
      obtain ⟨-, -, -, hpr, hl⟩ := id hslot
      have htake := (Part.takeUnit_missed (l := l) ha hcls early).trans (Ev.miss_during (by exact hpr) hl)
      refine ⟨fun harm hrun => ?_, fun harm hrun hq => ?_, fun hrun hq => ?_⟩
      · rw [if_neg (by rw [show (s.part.line l).state = .test from hrun]; exact nofun)] at htake
        exact settles_of_take hslot hearly htake hpr harm
      · rw [if_pos hrun, if_neg (show ¬ pr.q ≤ (stepped run.unit (s.part.ctx run.ctx)).miss + 1 from Nat.not_le.mpr hq)] at htake
        exact settles_of_take hslot hearly htake hpr harm
      · rw [if_pos hrun, if_pos (show pr.q ≤ (stepped run.unit (s.part.ctx run.ctx)).miss + 1 from hq)] at htake
        have htake' := htake.trans (Ev.dropLost_during hpr hl ha (opsOk_of_sound hs _) run.unit _)
        have hno := noOps_lostAt ha ((stepped run.unit (s.part.ctx run.ctx)).miss + 1)
        obtain ⟨p, hp, hoffered⟩ := settles_of_take hslot hearly htake' (profile_lostAt ha hpr _) (notArming_of_noOps hno)
        rw [streamed_of_session (by rw [hno.session]; nofun)] at hp
        refine ⟨p, hp, ?_⟩
        show EventRuns early _ (cardsLost l c x) _ _ s.part p
        exact offered_congr (by rfl) (by rfl) hoffered

end Sys2Proof.Machine
end

section
/-! PROOFS. Received units: the fields of their payloads (R170), and HELLO (O47). -/

namespace Sys2Proof.Machine

open Sys2Proof.Safety

/-! ### The fields of a received unit (R170) -/

section
variable {n m : Nat}

/-- A field above the last one. -/
theorem field_above (x : BitVec n) (y : BitVec m) {start : Nat} (k : Nat) (h : start = m + k) (len : Nat) :
    (x ++ y).extractLsb' start len = x.extractLsb' k len := by
  subst h
  rw [BitVec.extractLsb'_append_eq_of_le (Nat.le_add_right ..), Nat.add_sub_cancel_left]

theorem bit_above (x : BitVec n) (y : BitVec m) {i : Nat} (k : Nat) (h : i = m + k) : (x ++ y).getLsbD i = x.getLsbD k := by
  subst h
  rw [BitVec.getLsbD_append, if_neg (by omega), Nat.add_sub_cancel_left]

/-- The last field. -/
theorem field_last (x : BitVec n) (y : BitVec m) : (x ++ y).extractLsb' 0 m = y := by
  rw [BitVec.extractLsb'_append_eq_of_add_le (by omega), BitVec.extractLsb'_eq_self]

theorem bit_last (x : BitVec n) (b : Bool) : (x ++ BitVec.ofBool b).getLsbD 0 = b := by
  rw [BitVec.getLsbD_append, if_pos (by decide), BitVec.getLsbD_ofBool]
  simp

end

theorem readUnit_hello (code : BitVec 3) (start display : Bool) (lamps : BitVec 3) (low : BitVec 8) :
    readUnit 1 (code ++ BitVec.ofBool start ++ BitVec.ofBool display ++ lamps ++ low) = .hello code.toNat start display lamps.toNat := by
  have hcode : (code ++ BitVec.ofBool start ++ BitVec.ofBool display ++ lamps ++ low).extractLsb' 13 3 = code := by
    rw [field_above _ _ 5 rfl, field_above _ _ 2 rfl, field_above _ _ 1 rfl, field_above _ _ 0 rfl, BitVec.extractLsb'_eq_self]
  have hstart : (code ++ BitVec.ofBool start ++ BitVec.ofBool display ++ lamps ++ low).getLsbD 12 = start := by
    rw [bit_above _ _ 4 rfl, bit_above _ _ 1 rfl, bit_above _ _ 0 rfl, bit_last]
  have hdisplay : (code ++ BitVec.ofBool start ++ BitVec.ofBool display ++ lamps ++ low).getLsbD 11 = display := by
    rw [bit_above _ _ 3 rfl, bit_above _ _ 0 rfl, bit_last]
  have hlamps : (code ++ BitVec.ofBool start ++ BitVec.ofBool display ++ lamps ++ low).extractLsb' 8 3 = lamps := by
    rw [field_above _ _ 0 rfl, field_last]
  exact congr (congr (congr (congrArg (fun c => UpUnit.hello c.toNat) hcode) hstart) hdisplay) (congrArg BitVec.toNat hlamps)

theorem readUnit_cardState (code : BitVec 3) (latch power : Bool) (low : BitVec 11) :
    readUnit 4 (code ++ BitVec.ofBool latch ++ BitVec.ofBool power ++ low) = .cardState code.toNat latch power := by
  have hcode : (code ++ BitVec.ofBool latch ++ BitVec.ofBool power ++ low).extractLsb' 13 3 = code := by
    rw [field_above _ _ 2 rfl, field_above _ _ 1 rfl, field_above _ _ 0 rfl, BitVec.extractLsb'_eq_self]
  have hlatch : (code ++ BitVec.ofBool latch ++ BitVec.ofBool power ++ low).getLsbD 12 = latch := by
    rw [bit_above _ _ 1 rfl, bit_above _ _ 0 rfl, bit_last]
  have hpower : (code ++ BitVec.ofBool latch ++ BitVec.ofBool power ++ low).getLsbD 11 = power := by
    rw [bit_above _ _ 0 rfl, bit_last]
  exact congr (congr (congrArg (fun c => UpUnit.cardState c.toNat) hcode) hlatch) hpower

theorem readUnit_trackChar (track : BitVec 2) (parity : Bool) (mid : BitVec 6) (code : BitVec 7) :
    readUnit 5 (track ++ BitVec.ofBool parity ++ mid ++ code) = .trackChar track.toNat parity (code.setWidth 8) := by
  have htrack : (track ++ BitVec.ofBool parity ++ mid ++ code).extractLsb' 14 2 = track := by
    rw [field_above _ _ 7 rfl, field_above _ _ 1 rfl, field_above _ _ 0 rfl, BitVec.extractLsb'_eq_self]
  have hparity : (track ++ BitVec.ofBool parity ++ mid ++ code).getLsbD 13 = parity := by
    rw [bit_above _ _ 6 rfl, bit_above _ _ 0 rfl, bit_last]
  have hcode : (track ++ BitVec.ofBool parity ++ mid ++ code).extractLsb' 0 7 = code := field_last ..
  exact congr (congr (congrArg (fun c => UpUnit.trackChar c.toNat) htrack) hparity) (congrArg (BitVec.setWidth 8) hcode)

theorem readUnit_trackEnd (track status : BitVec 2) (low : BitVec 12) :
    readUnit 6 (track ++ status ++ low) = .trackEnd track.toNat status.toNat := by
  have htrack : (track ++ status ++ low).extractLsb' 14 2 = track := by
    rw [field_above _ _ 2 rfl, field_above _ _ 0 rfl, BitVec.extractLsb'_eq_self]
  have hstatus : (track ++ status ++ low).extractLsb' 12 2 = status := by rw [field_above _ _ 0 rfl, field_last]
  exact congr (congrArg (fun c => UpUnit.trackEnd c.toNat) htrack) (congrArg BitVec.toNat hstatus)

theorem readUnit_chipData (b1 b2 : Byte) : readUnit 8 (b1 ++ b2) = .chipData b1 b2 := by
  have h1 : (b1 ++ b2).extractLsb' 8 8 = b1 := by rw [field_above _ _ 0 rfl, BitVec.extractLsb'_eq_self]
  exact congr (congrArg UpUnit.chipData h1) (field_last ..)

theorem readUnit_blockData (b1 b2 : Byte) : readUnit 10 (b1 ++ b2) = .blockData b1 b2 := by
  have h1 : (b1 ++ b2).extractLsb' 8 8 = b1 := by rw [field_above _ _ 0 rfl, BitVec.extractLsb'_eq_self]
  exact congr (congrArg UpUnit.blockData h1) (field_last ..)

theorem readUnit_chipEnd (st : BitVec 2) (mid : BitVec 5) (last : Bool) (b : Byte) :
    readUnit 9 (st ++ mid ++ BitVec.ofBool last ++ b) = .chipEnd (readDropStatus st.toNat) (if last then some b else none) := by
  have hst : (st ++ mid ++ BitVec.ofBool last ++ b).extractLsb' 14 2 = st := by
    rw [field_above _ _ 6 rfl, field_above _ _ 5 rfl, field_above _ _ 0 rfl, BitVec.extractLsb'_eq_self]
  have hlast : (st ++ mid ++ BitVec.ofBool last ++ b).getLsbD 8 = last := by rw [bit_above _ _ 0 rfl, bit_last]
  have hb : (st ++ mid ++ BitVec.ofBool last ++ b).extractLsb' 0 8 = b := field_last ..
  exact congr (congrArg (fun c => UpUnit.chipEnd (readDropStatus c.toNat)) hst)
    (congr (congrArg (fun (l : Bool) (c : Byte) => if l then some c else none) hlast) hb)

theorem readUnit_blockEnd (refused : Bool) (low : BitVec 15) : readUnit 11 (BitVec.ofBool refused ++ low) = .blockEnd refused := by
  have h : (BitVec.ofBool refused ++ low).getLsbD 15 = refused := by
    rw [bit_above _ _ 0 rfl, BitVec.getLsbD_ofBool]
    simp
  exact congrArg UpUnit.blockEnd h

/-- A HELLO of origin ANSWER, whatever it reports (R49). -/
theorem readUnit_answer (code : BitVec 3) (display : Bool) (rest : BitVec 11) : ∃ lamps,
    readUnit 1 (code ++ BitVec.ofBool false ++ BitVec.ofBool display ++ rest) = .hello code.toNat false display lamps := by
  have hcode : (code ++ BitVec.ofBool false ++ BitVec.ofBool display ++ rest).extractLsb' 13 3 = code := by
    rw [field_above _ _ 2 rfl, field_above _ _ 1 rfl, field_above _ _ 0 rfl, BitVec.extractLsb'_eq_self]
  have hstart : (code ++ BitVec.ofBool false ++ BitVec.ofBool display ++ rest).getLsbD 12 = false := by
    rw [bit_above _ _ 1 rfl, bit_above _ _ 0 rfl, bit_last]
  have hdisplay : (code ++ BitVec.ofBool false ++ BitVec.ofBool display ++ rest).getLsbD 11 = display := by
    rw [bit_above _ _ 0 rfl, bit_last]
  refine ⟨((code ++ BitVec.ofBool false ++ BitVec.ofBool display ++ rest).extractLsb' 8 3).toNat, ?_⟩
  exact congrFun (congr (congr (congrArg (fun c => UpUnit.hello c.toNat) hcode) hstart) hdisplay) _

/-! ### A received unit at an ATTACHED context -/

section
variable {p : Part} {l : LineId} {run : SlotRun}

/-- The event of a received unit at an ATTACHED context, before the unit is taken (R51). -/
def Part.heardEvent (p : Part) (l : LineId) (run : SlotRun) : Ev where
  part := p.during l run.ctx (Safety.heard (p.line l) run.unit (p.ctx run.ctx)) p.queue p.faults
  faults := []
  tail := []

theorem Part.takeUnit_received (ha : (p.ctx run.ctx).attach = .attached) (hl : (p.ctx run.ctx).lineId = some l) (kind : Nat) (w : Payload) :
    (p.slotEvent l run []).takeUnit l run (.received kind w) =
      Ev.attachedUnit { part := p.during l run.ctx (stepped run.unit (p.ctx run.ctx)) p.queue p.faults, faults := [], tail := [] } run.ctx
        (p.ctx run.ctx).fresh kind w ∧
    Ev.map { part := p.during l run.ctx (stepped run.unit (p.ctx run.ctx)) p.queue p.faults, faults := [], tail := [] }
      (fun q => q.heard run.ctx) = p.heardEvent l run := by
  have hctx (z : Context) (q : EventQueue) (f : FaultRecord) : (p.during l run.ctx z q f).ctx run.ctx = z := Part.ctx_during
  refine ⟨?_, ?_⟩
  · simp only [Ev.takeUnit, Part.slotEvent, hctx, Context.stepHolds_of_attached ha]
    rw [show (heldBy run.unit (p.ctx run.ctx)).attach = .attached from ha]
    simp only [Ev.map, Part.modCtx_during]
    rfl
  · simp only [Ev.map, Part.heard_during (p := p) (z := stepped run.unit (p.ctx run.ctx)) hl]
    rfl

/-- A HELLO at an ATTACHED context (R49, R50). -/
theorem Part.takeUnit_hello (ha : (p.ctx run.ctx).attach = .attached) (hl : (p.ctx run.ctx).lineId = some l) {kind : Nat} {w : Payload} {code : Nat}
    {start display : Bool} {lamps : Nat} (hw : readUnit kind w = .hello code start display lamps) :
    (p.slotEvent l run []).takeUnit l run (.received kind w) =
      if start then (p.heardEvent l run).helloRestart run.ctx code display lamps
      else if (p.ctx run.ctx).fresh then p.heardEvent l run else (p.heardEvent l run).misfit run.ctx kind := by
  obtain ⟨htake, hheard⟩ := Part.takeUnit_received (run := run) ha hl kind w
  rw [htake, Ev.attachedUnit, hheard, hw]

/-- A unit at an ATTACHED keypad (R53). -/
theorem Part.takeUnit_keypad (ha : (p.ctx run.ctx).attach = .attached) (hl : (p.ctx run.ctx).lineId = some l)
    (hk : (p.ctx run.ctx).kind = some .keypad) {kind : Nat} (hne : kind ≠ 1) (w : Payload) :
    (p.slotEvent l run []).takeUnit l run (.received kind w) = (p.heardEvent l run).keypadUnit run.ctx kind (readUnit kind w) := by
  obtain ⟨htake, hheard⟩ := Part.takeUnit_received (run := run) ha hl kind w
  have hkind : ((p.during l run.ctx (stepped run.unit (p.ctx run.ctx)) p.queue p.faults).ctx run.ctx).kind = some .keypad := by
    rw [Part.ctx_during]
    exact hk
  rw [htake]
  unfold Ev.attachedUnit
  simp only [hheard]
  split
  · rename_i hr
    exact absurd hr (readUnit_ne_hello hne _ _ _ _ _)
  · rw [hkind]

/-- A unit at an ATTACHED reader (R53, R112). -/
theorem Part.takeUnit_reader (ha : (p.ctx run.ctx).attach = .attached) (hl : (p.ctx run.ctx).lineId = some l) {drop : DropKind}
    (hk : (p.ctx run.ctx).kind = some drop) (hd : drop ≠ .keypad) {kind : Nat} (hne : kind ≠ 1) (w : Payload) :
    (p.slotEvent l run []).takeUnit l run (.received kind w) = (p.heardEvent l run).readerUnit run.ctx drop kind (readUnit kind w) := by
  obtain ⟨htake, hheard⟩ := Part.takeUnit_received (run := run) ha hl kind w
  have hkind : ((p.during l run.ctx (stepped run.unit (p.ctx run.ctx)) p.queue p.faults).ctx run.ctx).kind = some drop := by
    rw [Part.ctx_during]
    exact hk
  rw [htake]
  unfold Ev.attachedUnit
  simp only [hheard]
  split
  · rename_i hr
    exact absurd hr (readUnit_ne_hello hne _ _ _ _ _)
  · rw [hkind]
    cases drop
    case keypad => exact absurd rfl hd
    all_goals rfl

/-- A HELLO at a context that waits for its drop (R47). -/
theorem Part.takeUnit_first
    (ha : (p.ctx run.ctx).attach = .waiting ∨ (p.ctx run.ctx).attach = .lost ∨ (p.ctx run.ctx).attach = .mismatch) {kind : Nat} {w : Payload}
    {code : Nat} {start display : Bool} {lamps : Nat} (hw : readUnit kind w = .hello code start display lamps) :
    (p.slotEvent l run []).takeUnit l run (.received kind w) =
      Ev.helloAttach { part := p.during l run.ctx (p.ctx run.ctx) p.queue p.faults, faults := [], tail := [] } run.ctx code display lamps := by
  have hne : (p.ctx run.ctx).attach ≠ .attached := by rcases ha with h | h | h <;> rw [h] <;> exact nofun
  rw [Part.slotEvent, Context.stepHolds_of_not_attached hne]
  rcases ha with h | h | h <;> simp only [Ev.takeUnit, Part.ctx_during, h, hw] <;> rfl

/-- A unit that does not fit (R55). -/
theorem Part.misfit_heard (hl : (p.ctx run.ctx).lineId = some l) (kind : Nat) : (p.heardEvent l run).misfit run.ctx kind =
    { part := p.during l run.ctx (Safety.heard (p.line l) run.unit (p.ctx run.ctx)) p.queue
        (recordAll p.faults [slotFault l run.ctx (p.line l) .streamProtocol (some (.unitCode kind))]).1
      faults := (recordAll p.faults [slotFault l run.ctx (p.line l) .streamProtocol (some (.unitCode kind))]).2, tail := [] } := by
  rw [Ev.misfit, Part.heardEvent, Ev.detectAt_during (by exact hl)]
  rfl

end

/-! ### HELLO (R47 to R50) -/

theorem anew_withoutOps (x : Context) (b : Bool) : anew { withoutOps x with lateBlock := b } = anew x := by
  simp only [anew, withoutOps, Option.map_map]
  congr 1
  · cases x.keypad with
    | none => rfl
    | some k => by_cases he : k.entry.isSome = true <;> simp [he]

/-- What an attachment makes of a context without operations (R30, R48, R54, R72, R104, R117, R118). -/
theorem Context.dropAnew_eq {x : Context} (h : NoOps x) : { x.dropAnew with fresh := false } = anew x := by
  have he := h.entry
  have hu := h.capture
  simp only [Context.dropAnew, Context.clearService, anew]
  congr 1
  · exact h.holder
  · cases hk : x.keypad with
    | none => rfl
    | some k =>
      rw [Context.entry_eq hk] at he
      simp [he, ScanForm.allUp, ScanForm.keyCount]
  · cases hr : x.reader with
    | none => rfl
    | some r =>
      rw [Context.capture_eq hr] at hu
      simp [hu, Reader.clearTally, TrackSet.none]

theorem helloFeatures_eq (code : BitVec 3) (display : Bool) (lamps : Nat) :
    helloFeatures code.toNat display lamps = { display := display && decide (code = 1), lamps := min 4 lamps } := by
  have hcode : (code.toNat == 1) = decide (code = 1) := by
    rw [beq_eq_decide_eq]
    exact decide_eq_decide.mpr ⟨fun h => BitVec.eq_of_toNat_eq h, fun h => by rw [h]; rfl⟩
  rw [helloFeatures, hcode]

theorem Context.helloMatches_iff {x : Context} {pr : Profile} (h : x.profile = some pr) (code : Nat) :
    x.helloMatches code = true ↔ code = pr.kind.helloCode := by
  simp only [Context.helloMatches, Context.kind, h, Option.map_some, beq_iff_eq, Option.some.injEq]
  exact eq_comm

theorem noOps_anew (x : Context) : NoOps (anew x) where
  holder := rfl
  entry := by
    simp only [Context.entry, anew]
    cases x.keypad <;> rfl
  capture := by
    simp only [Context.capture, anew]
    cases x.reader <;> rfl
  session := by
    simp only [Context.session, anew]
    cases x.chip <;> rfl

section
variable {p : Part} {l : LineId} {c : CtxId} {x : Context} {q : EventQueue} {f : FaultRecord} {pr : Profile} (hpr : x.profile = some pr)
  (hl : pr.line = l) {code : Nat} (display : Bool) (lamps : Nat)
include hpr hl

/-- The drop of a context that waits for it answers with its kind (R47, R48, R58). -/
theorem Ev.helloAttach_match (hops : NoOps x) (hcode : code = pr.kind.helloCode) :
    let feats := helloFeatures code display lamps
    Ev.helloAttach { part := p.during l c x q f, faults := [], tail := [] } c code display lamps =
      { part := p.during l c { anew x with attach := .attached, miss := 0, features := some feats, fresh := true } q f
        faults := []
        tail := [.of (.drop pr.address .attached .attached false (some { kindCode := code, features := feats })) none (some c) (some l)] } := by
  intro feats
  have hnew : { x.enterAttached feats with fresh := true } =
      { anew x with attach := .attached, miss := 0, features := some feats, fresh := true } := by
    rw [← Context.dropAnew_eq hops]
    rfl
  have hz : ({ anew x with attach := .attached, miss := 0, features := some feats, fresh := true } : Context).profile = some pr := hpr
  simp only [Ev.helloAttach, Part.ctx_during, (Context.helloMatches_iff hpr code).mpr hcode, if_true, Ev.map, Part.modCtx_during]
  rw [hnew, Ev.closeDrop_during hz hl]
  rfl

/-- The drop of a context that waits for it answers with another kind (R47, R58). -/
theorem Ev.helloAttach_mismatch (hcode : code ≠ pr.kind.helloCode) :
    let feats := helloFeatures code display lamps
    let d := slotFault l c (p.line l) .dropKind (some (.kindCode code))
    Ev.helloAttach { part := p.during l c x q f, faults := [], tail := [] } c code display lamps =
      { part := p.during l c { x with attach := .mismatch } q (recordAll f [d]).1
        faults := (recordAll f [d]).2
        tail := if x.attach = .mismatch then [] else
          [.of (.drop pr.address .mismatch .mismatch false (some { kindCode := code, features := feats })) none (some c) (some l)] } := by
  intro feats d
  have hno : x.helloMatches code = false := Bool.eq_false_iff.mpr fun h => hcode ((Context.helloMatches_iff hpr code).mp h)
  have hz : ({ x with attach := .mismatch } : Context).profile = some pr := hpr
  have hzid : ({ x with attach := .mismatch } : Context).lineId = some l := by rw [Context.lineId, hz, Option.map_some, hl]
  simp only [Ev.helloAttach, Part.ctx_during, hno, Bool.false_eq_true, if_false, Ev.map, Part.modCtx_during]
  rw [Ev.detectAt_during hzid]
  split
  · rfl
  · rw [Ev.closeDrop_during hz hl]
    rfl

/-- A drop restart, as the context's operation has ended (R50, R57). -/
theorem Part.endOps_restart (hops : OpsOk q.reservations c x) :
    (p.during l c x q f).endOps c .dropRestarted =
      p.during l c { withoutOps x with lateBlock := x.lateAfter .dropRestarted } (endedOps c x .dropRestarted q) f :=
  Part.endOps_during (by rw [Context.lineId, hpr, Option.map_some, hl]) hops _

theorem Ev.helloRestart_match (hops : OpsOk q.reservations c x) (hfresh : x.fresh = false) (hcode : code = pr.kind.helloCode) :
    let feats := helloFeatures code display lamps
    let d := slotFault l c (p.line l) .dropRestart none
    Ev.helloRestart { part := p.during l c x q f, faults := [], tail := [] } c code display lamps =
      { part := p.during l c { anew x with attach := .attached, miss := 0, features := some feats } (endedOps c x .dropRestarted q) (recordAll f [d]).1
        faults := (recordAll f [d]).2
        tail := [.of (.drop pr.address .attached .restarted true (some { kindCode := code, features := feats })) none (some c) (some l)] } := by
  intro feats d
  have hno := noOps_withoutOps x
  have hend : NoOps { withoutOps x with lateBlock := x.lateAfter .dropRestarted } := ⟨hno.holder, hno.entry, hno.capture, hno.session⟩
  have hnew : ({ withoutOps x with lateBlock := x.lateAfter .dropRestarted } : Context).enterAttached feats =
      { anew x with attach := .attached, miss := 0, features := some feats } := by
    rw [← anew_withoutOps x (x.lateAfter .dropRestarted), ← Context.dropAnew_eq hend, ← hfresh]
    rfl
  have hz : ({ anew x with attach := .attached, miss := 0, features := some feats } : Context).profile = some pr := hpr
  have hzid : ({ anew x with attach := .attached, miss := 0, features := some feats } : Context).lineId = some l := by
    rw [Context.lineId, hz, Option.map_some, hl]
  have hmatch := (Context.helloMatches_iff (x := { withoutOps x with lateBlock := x.lateAfter .dropRestarted }) hpr code).mpr hcode
  simp only [Ev.helloRestart, Ev.map, Part.endOps_restart hpr hl hops, Part.ctx_during, hmatch, if_true, Part.modCtx_during]
  rw [hnew, Ev.detectAt_during hzid, Ev.closeDrop_during hz hl]
  rfl

theorem Ev.helloRestart_mismatch (hops : OpsOk q.reservations c x) (hcode : code ≠ pr.kind.helloCode) :
    let feats := helloFeatures code display lamps
    let ds := [slotFault l c (p.line l) .dropRestart none, slotFault l c (p.line l) .dropKind (some (.kindCode code))]
    Ev.helloRestart { part := p.during l c x q f, faults := [], tail := [] } c code display lamps =
      { part := p.during l c { anew x with attach := .mismatch, miss := x.miss } (endedOps c x .dropRestarted q) (recordAll f ds).1
        faults := (recordAll f ds).2
        tail := [.of (.drop pr.address .mismatch .mismatch true (some { kindCode := code, features := feats })) none (some c) (some l)] } := by
  intro feats ds
  have hno := noOps_withoutOps x
  have hend : NoOps { withoutOps x with lateBlock := x.lateAfter .dropRestarted } := ⟨hno.holder, hno.entry, hno.capture, hno.session⟩
  have hnew : { ({ withoutOps x with lateBlock := x.lateAfter .dropRestarted } : Context).dropAnew with attach := .mismatch, fresh := false } =
      { anew x with attach := .mismatch, miss := x.miss } := by
    rw [← anew_withoutOps x (x.lateAfter .dropRestarted), ← Context.dropAnew_eq hend]
    rfl
  have hz : ({ anew x with attach := .mismatch, miss := x.miss } : Context).profile = some pr := hpr
  have hzid : ({ anew x with attach := .mismatch, miss := x.miss } : Context).lineId = some l := by rw [Context.lineId, hz, Option.map_some, hl]
  have hmatch : ({ withoutOps x with lateBlock := x.lateAfter .dropRestarted } : Context).helloMatches code = false :=
    Bool.eq_false_iff.mpr fun h => hcode ((Context.helloMatches_iff (by exact hpr) code).mp h)
  simp only [Ev.helloRestart, Ev.map, Part.endOps_restart hpr hl hops, Part.ctx_during, hmatch, Bool.false_eq_true, if_false, Part.modCtx_during]
  rw [hnew, Ev.detectAt_during hzid, Ev.detectAt_during hzid, Ev.closeDrop_during hz hl]
  rw [show recordAll f ds = _ from recordAll_append f [slotFault l c (p.line l) .dropRestart none] [_]]
  rfl

end

/-- A slot completion that leaves the context without operations. -/
theorem settles_of_noOps {s : State} {l : LineId} {i : Nat} {run : SlotRun} {up : Upstream} {pr : Profile} (hslot : SlotEnds s l i run pr)
    {z : Context} {q : EventQueue} {f : FaultRecord} {fs tail : List Rec}
    (hearly : (s.part.slotEvent l run []).damagedUnit run (classify up) = s.part.slotEvent l run [])
    (htake : (s.part.slotEvent l run []).takeUnit l run (classify up) =
      { part := s.part.during l run.ctx z q f, faults := fs, tail := tail })
    (hz : z.profile = some pr) (hno : NoOps z) :
    ∃ p, Settles s l run.ctx i up z p ∧ Offered (fs ++ tail) { s.part with queue := q, faults := f } p := by
  have h := settles_of_take hslot hearly htake hz (notArming_of_noOps hno)
  rwa [streamed_of_session (by rw [hno.session]; nofun)] at h

/-- Settles O47: the attachment state, the kind and the origin decide what a HELLO does. -/
theorem helloAttachesTheContext : Obligations.HelloAttachesTheContext := by
  intro s l i start run pr code origin display lamps low hslot hstart hs c x ln payload up f own notice at_ ends
  have hcls : classify up = .received 1 payload := classify_unitWord hstart 1 payload
  have hearly : (s.part.slotEvent l run []).damagedUnit run (classify up) = s.part.slotEvent l run [] :=
    Part.damagedUnit_of_good (by rw [hcls]; exact nofun)
  have hread : readUnit 1 payload = .hello code.toNat origin display lamps.toNat := readUnit_hello ..
  have hown : own = pr.kind.helloCode := by
    show (match pr.kind with | .keypad => 1 | .readerStripe => 2 | .readerHybrid => 3) = _
    cases pr.kind <;> rfl
  obtain ⟨-, -, -, hpr, hl⟩ := id hslot
  have hlid : x.lineId = some l := by rw [Context.lineId, show x.profile = some pr from hpr, Option.map_some, hl]
  have hops := opsOk_of_sound hs c
  have hno (z : Context) (hk : z.keypad = (anew x).keypad) (hr : z.reader = (anew x).reader) (hc : z.chip = (anew x).chip)
      (hh : z.holder = none) : NoOps z := by
    have h := noOps_anew x
    refine ⟨hh, ?_, ?_, ?_⟩
    · rw [Context.entry, hk]; exact h.entry
    · rw [Context.capture, hr]; exact h.capture
    · rw [Context.session, hc]; exact h.session
  refine ⟨fun ha => ?_, fun ha => ?_⟩
  · have htake := (congrArg ((s.part.slotEvent l run []).takeUnit l run) hcls).trans (Part.takeUnit_first (l := l) ha hread)
    have hnone : NoOps x := hops.noOps_of_attach (by rcases ha with h | h | h <;> rw [h] <;> exact nofun)
    refine ⟨fun hcode => ?_, fun hcode => ?_⟩
    · have h := htake.trans (Ev.helloAttach_match hpr hl display lamps.toNat hnone (hcode.trans hown))
      rw [helloFeatures_eq] at h
      exact settles_of_noOps hslot hearly h hpr (hno _ rfl rfl rfl rfl)
    · have h := htake.trans (Ev.helloAttach_mismatch hpr hl display lamps.toNat (hown ▸ hcode))
      rw [helloFeatures_eq] at h
      exact settles_of_noOps hslot hearly h hpr ⟨hnone.holder, hnone.entry, hnone.capture, hnone.session⟩
  · have htake := (congrArg ((s.part.slotEvent l run []).takeUnit l run) hcls).trans (Part.takeUnit_hello (l := l) ha hlid hread)
    have hheard : OpsOk s.part.queue.reservations c (heard ln run.unit x) :=
      OpsOk.of_ctxOps (x := x) (y := heard ln run.unit x) (.of_blocks rfl rfl rfl rfl rfl rfl) hops
    refine ⟨fun horigin hcode => ?_, fun horigin hcode => ?_, fun horigin harm => ?_⟩
    · rw [if_pos horigin] at htake
      have h := htake.trans (Ev.helloRestart_match (x := heard ln run.unit x) hpr hl display lamps.toNat hheard rfl (hcode.trans hown))
      rw [helloFeatures_eq] at h
      exact settles_of_noOps hslot hearly h hpr (hno _ rfl rfl rfl rfl)
    · rw [if_pos horigin] at htake
      have h := htake.trans (Ev.helloRestart_mismatch (x := heard ln run.unit x) hpr hl display lamps.toNat hheard (hown ▸ hcode))
      rw [helloFeatures_eq] at h
      exact settles_of_noOps hslot hearly h hpr (hno _ rfl rfl rfl rfl)
    · rw [if_neg (by rw [horigin]; nofun)] at htake
      by_cases hf : x.fresh = true
      · rw [if_pos hf] at htake ⊢
        exact settles_of_take hslot hearly htake hpr harm
      · rw [if_neg hf, Part.misfit_heard hlid] at htake
        rw [if_neg hf]
        exact settles_of_take hslot hearly htake hpr harm

end Sys2Proof.Machine
end

section
/-! PROOFS. What the blocks of an ATTACHED context make of a received unit (R53): the endings within the event, and the units that do not fit or change
nothing (R53, R54, R55, R112, R121, R132). -/

namespace Sys2Proof.Machine

open Sys2Proof.Safety

/-! ### Endings within the event -/

section
variable {p : Part} {l : LineId} {c : CtxId} {z : Context} {q : EventQueue} {f : FaultRecord}

/-- An entry ends (R98, R99). -/
theorem Part.endEntry_during {e : Entry} (hz : z.lineId = some l) (he : z.entry = some e) (hres : .entry c ∈ q.reservations) (o : EntryEnding) :
    (p.during l c z q f).endEntry c o =
      p.during l c (z.afterEntry e o) (converted q (.entry c) (some e.owner) (some c) (some l) (.entry (e.result o))) f := by
  have hctx : (p.during l c z q f).ctx c = z := Part.ctx_during
  have he' : ((p.during l c z q f).ctx c).entry = some e := by rw [hctx, he]
  have h := Part.ends_during (Ends.endEntry (p := p.during l c z q f) (c := c) o)
    fun m hm => Part.line_endEntry_ne _ _ (by rw [hctx, hz]; exact fun h => hm (Option.some.inj h).symm) _
  rw [h, Part.ctx_endEntry he', Part.queue_endEntry he' hres, hctx, hz, Part.queue_during]

/-- A capture ends (R114). -/
theorem Part.endCapture_during {u : Capture} {r : Reader} (hz : z.lineId = some l) (hr : z.reader = some r) (hu : r.capture = some u)
    (hres : .capture c ∈ q.reservations) (o : CaptureOutcome) :
    (p.during l c z q f).endCapture c o =
      p.during l c
        { z with holder := none, reader := some { r with capture := none, seen := { t1 := false, t2 := false, t3 := false }, discarded := 0 } }
        (converted q (.capture c) (some u.owner) (some c) (some l) (.capture (captureShown u o))) f := by
  have hctx : (p.during l c z q f).ctx c = z := Part.ctx_during
  have hu' : ((p.during l c z q f).ctx c).capture = some u := by rw [hctx, Context.capture_eq hr, hu]
  have h := Part.ends_during (Ends.endCapture (p := p.during l c z q f) (c := c) o) fun m _ => Part.line_endCapture hu' o m
  rw [h, Part.ctx_endCapture hu' o (by rw [hctx]; exact hr), Part.queue_endCapture hu' hres, hctx, hz, Part.queue_during]

section
variable {h : Chip} (hz : z.lineId = some l) (hc : z.chip = some h)
include hz hc

/-- A session in any state is brought to its end (R122, R128). -/
theorem Part.cutSession_during (hops : OpsOk q.reservations c z) (o : StartOutcome) (st : ExchangeStatus) (r : EndReason) :
    (p.during l c z q f).cutSession c o st r =
      p.during l c { z with holder := if h.session = .off then z.holder else none, chip := some (h.cut o r) }
        (endedSession c (some l) h o st r q) f := by
  have hctx : (p.during l c z q f).ctx c = z := Part.ctx_during
  have hc' : ((p.during l c z q f).ctx c).chip = some h := by rw [hctx, hc]
  have hops' : OpsOk (p.during l c z q f).queue.reservations c ((p.during l c z q f).ctx c) := by rw [hctx]; exact hops
  have heq := Part.ends_during (Ends.cutSession (p := p.during l c z q f) (c := c) o st r) fun m _ => Part.line_cutSession _ _ _ m
  rw [heq, Part.ctx_cutSession hc', Part.queue_cutSession hc' hops', hctx, hz, Part.queue_during]

/-- A start fails (R122). -/
theorem Part.startFails_during (hops : OpsOk q.reservations c z) (hs : h.session = .starting) (o : StartOutcome) :
    (p.during l c z q f).startFails c o =
      p.during l c { z with holder := none, chip := some (h.afterFailedStart o) } (endedSession c (some l) h o .ok .stopped q) f := by
  have hcut := Part.cutSession_during (p := p) (f := f) hz hc hops o .ok .stopped
  have hc' : ((p.during l c z q f).ctx c).chip = some h := by rw [Part.ctx_during, hc]
  rw [Part.cutSession_eq hc', Chip.cut, hs] at hcut
  exact hcut

/-- An exchange ends, and the session stands in READY (R124). -/
theorem Part.endExchange_during (hres : .exchange c ∈ q.reservations) (st : ExchangeStatus) :
    (p.during l c z q f).endExchange c st =
      p.during l c
        { z with chip := some { h with session := .ready, command := [], unitsSent := 0, response := [], overrun := false, respTimer := none } }
        (converted q (.exchange c) h.owner (some c) (some l) (.chip (.exchange h.exchanges st h.response))) f := by
  have hctx : (p.during l c z q f).ctx c = z := Part.ctx_during
  have hc' : ((p.during l c z q f).ctx c).chip = some h := by rw [hctx, hc]
  have heq := Part.ends_during (Ends.endExchange (p := p.during l c z q f) (c := c) st) fun m _ => by
    unfold Part.endExchange
    split <;> simp
  rw [heq, Part.ctx_endExchange hc', Part.queue_endExchange hc' hres, hctx, hz, Part.queue_during]

/-- A session ends (R128). -/
theorem Part.endSession_during (hres : .chipEnd c ∈ q.reservations) (r : EndReason) (inFlight : Bool) :
    (p.during l c z q f).endSession c r inFlight =
      p.during l c { z with holder := none, chip := some (h.afterSession r inFlight) }
        (converted q (.chipEnd c) h.owner (some c) (some l) (.chip (.sessionEnd r h.exchanges))) f := by
  have hctx : (p.during l c z q f).ctx c = z := Part.ctx_during
  have hc' : ((p.during l c z q f).ctx c).chip = some h := by rw [hctx, hc]
  have heq := Part.ends_during (Ends.endSession (p := p.during l c z q f) (c := c) r inFlight) fun m _ => by
    unfold Part.endSession
    split <;> simp
  rw [heq, Part.ctx_endSession hc', Part.queue_endSession hc' hres, hctx, hz, Part.queue_during]

end

/-- A result is made of its reservation (R140). -/
theorem Part.convert_during {r : Reservation} (hres : r ∈ q.reservations) (body : Body) (pos : Option PosId) (ctx : Option CtxId)
    (line : Option LineId) :
    (p.during l c z q f).convert r (.of body pos ctx line) = p.during l c z (converted q r pos ctx line body) f := by
  rw [Part.convert_eq_converted hres, Part.setQueue_during]
  rfl

end

/-! ### The end of a slot with a received unit -/

section
variable {s : State} {l : LineId} {i start : Nat} {run : SlotRun} {pr : Profile}

theorem lineId_of_hears (h : Hears s l i run pr) : (s.part.ctx run.ctx).lineId = some l := by
  obtain ⟨⟨-, -, -, hpr, hl⟩, -⟩ := h
  rw [Context.lineId, hpr, Option.map_some, hl]

theorem kind_of_hears (h : Hears s l i run pr) : (s.part.ctx run.ctx).kind = some pr.kind := by
  obtain ⟨⟨-, -, -, hpr, -⟩, -⟩ := h
  rw [Context.kind, hpr, Option.map_some]

/-- A received unit whose event has these notices to offer at its end. -/
theorem settles_heard (h : Hears s l i run pr) (hstart : start < 4) {kind : BitVec 4} {w : Payload} {z : Context} {q : EventQueue} {f : FaultRecord}
    {fs : List Rec} (htake : (s.part.slotEvent l run []).takeUnit l run (.received kind.toNat w) =
      { part := s.part.during l run.ctx z q f, faults := fs, tail := [] }) (hz : z.profile = some pr) (harm : NotArming z) :
    ∃ p, Settles s l run.ctx i (.unit start 24 (unitWord kind w)) (streamed (s.part.line l) pr run.unit z) p ∧
      Offered fs { s.part with queue := q, faults := f } p := by
  have hcls := classify_unitWord hstart kind w
  have hearly : (s.part.slotEvent l run []).damagedUnit run (classify (.unit start 24 (unitWord kind w))) = s.part.slotEvent l run [] :=
    Part.damagedUnit_of_good (by rw [hcls]; exact nofun)
  obtain ⟨p, hp, hoffered⟩ := settles_of_take h.1 hearly (by rw [hcls]; exact htake) hz harm
  rw [List.append_nil] at hoffered
  exact ⟨p, hp, hoffered⟩

/-- A received unit whose event has no further notices. -/
theorem settles_plain (h : Hears s l i run pr) (hstart : start < 4) {kind : BitVec 4} {w : Payload} {z : Context} {q : EventQueue}
    {f : FaultRecord} (htake : (s.part.slotEvent l run []).takeUnit l run (.received kind.toNat w) =
      { part := s.part.during l run.ctx z q f, faults := [], tail := [] }) (hz : z.profile = some pr) (harm : NotArming z) :
    ∃ p, Settles s l run.ctx i (.unit start 24 (unitWord kind w)) (streamed (s.part.line l) pr run.unit z) p ∧ p.queue = q ∧ p.faults = f := by
  obtain ⟨p, hp, hq, hf⟩ := settles_heard h hstart htake hz harm
  exact ⟨p, hp, hq, hf⟩

end

/-! ### Units that do not fit, and units that change nothing -/

theorem readUnit_unknown {kind : Nat} (h : 13 ≤ kind) (w : Payload) : readUnit kind w = .unknown := by
  unfold readUnit
  split
  case h_14 => rfl
  all_goals omega

section
variable {e : Ev} {c : CtxId} {code : Nat} {w : Payload}

/-- A block unit that reaches no entry in CLOSING (R54). -/
theorem Ev.blockUnit_late (h : ¬ ∃ en, (e.part.ctx c).entry = some en ∧ en.state = .closing) (g : Entry → Part → Part) :
    e.blockUnit c code g = if (e.part.ctx c).lateBlock then e else e.misfit c code := by
  unfold Ev.blockUnit
  split
  · rename_i en hen
    exact if_neg fun hs => h ⟨en, hen, hs⟩
  · rfl

theorem Ev.keypadUnit_misfit (h : Misfit (e.part.ctx c) .keypad code w) : e.keypadUnit c code (readUnit code w) = e.misfit c code := by
  rcases h with ⟨h1, h2⟩ | h | ⟨hcode, hclosing, hlate⟩
  · rcases (show code = 4 ∨ code = 5 ∨ code = 6 ∨ code = 7 ∨ code = 8 ∨ code = 9 by omega) with rfl | rfl | rfl | rfl | rfl | rfl <;> rfl
  · rcases Nat.lt_or_ge code 13 with hlt | hge
    · rw [show code = 12 by omega]
      rfl
    · rw [readUnit_unknown hge]
      rfl
  · have hblock (g : Entry → Part → Part) : e.blockUnit c code g = e.misfit c code := by rw [Ev.blockUnit_late hclosing, hlate]; rfl
    rcases hcode with rfl | rfl <;> exact hblock _

theorem Ev.keypadUnit_quiet (h : Quiet (e.part.ctx c) .keypad code) : e.keypadUnit c code (readUnit code w) = e := by
  rcases h with rfl | ⟨-, hcode, hclosing, hlate⟩ | ⟨hk, -⟩
  · rfl
  · have hblock (g : Entry → Part → Part) : e.blockUnit c code g = e := by rw [Ev.blockUnit_late hclosing, hlate]; rfl
    rcases hcode with rfl | rfl <;> exact hblock _
  · cases hk

/-! The fields of a payload that decide whether a reader's unit fits. -/

theorem cardField_eq (w : Payload) : (w.extractLsb' 13 3).toNat = w.toNat / 8192 := by
  rw [BitVec.extractLsb'_toNat, Nat.shiftRight_eq_div_pow]
  have := w.isLt
  omega

theorem trackField_eq (w : Payload) : (w.extractLsb' 14 2).toNat = w.toNat / 16384 := by
  rw [BitVec.extractLsb'_toNat, Nat.shiftRight_eq_div_pow]
  have := w.isLt
  omega

theorem statusField_eq (w : Payload) : (w.extractLsb' 12 2).toNat = w.toNat / 4096 % 4 := by
  rw [BitVec.extractLsb'_toNat, Nat.shiftRight_eq_div_pow]

theorem Ev.cardState_misfit {drop : DropKind} (h : readCard drop (w.toNat / 8192) = none) :
    e.readerUnit c drop 4 (readUnit 4 w) = e.misfit c 4 := by
  show e.cardState c drop 4 (w.extractLsb' 13 3).toNat (w.getLsbD 12) (w.getLsbD 11) = e.misfit c 4
  rw [cardField_eq, Ev.cardState, h]

theorem Ev.trackChar_misfit {drop : DropKind} (h : w.toNat / 16384 = 0) : e.readerUnit c drop 5 (readUnit 5 w) = e.misfit c 5 := by
  show e.trackUnit c 5 (w.extractLsb' 14 2).toNat _ = e.misfit c 5
  rw [trackField_eq, h]
  rfl

theorem Ev.trackEnd_misfit {drop : DropKind} (h : w.toNat / 16384 = 0 ∨ w.toNat / 4096 % 4 = 3) :
    e.readerUnit c drop 6 (readUnit 6 w) = e.misfit c 6 := by
  show (match readReaderStatus (w.extractLsb' 12 2).toNat with
    | some st => e.trackUnit c 6 (w.extractLsb' 14 2).toNat fun p => p.trackEnd c (w.extractLsb' 14 2).toNat st
    | none => e.misfit c 6) = _
  rw [trackField_eq, statusField_eq]
  rcases h with h | h
  · rw [h]
    split <;> rfl
  · rw [h]
    rfl

/-- Codes that no reader sends. -/
theorem Ev.readerUnit_foreign {drop : DropKind} (h : code = 2 ∨ code = 3 ∨ 10 ≤ code) :
    e.readerUnit c drop code (readUnit code w) = e.misfit c code := by
  rcases h with rfl | rfl | h
  · rfl
  · rfl
  · rcases Nat.lt_or_ge code 13 with hlt | hge
    · rcases (show code = 10 ∨ code = 11 ∨ code = 12 by omega) with rfl | rfl | rfl <;> rfl
    · rw [readUnit_unknown hge]
      rfl

theorem Ev.stripeUnit_misfit (hchip : (e.part.ctx c).chip = none) (h : Misfit (e.part.ctx c) .readerStripe code w) :
    e.readerUnit c .readerStripe code (readUnit code w) = e.misfit c code := by
  rcases h with h | h | h | ⟨rfl, h⟩ | ⟨rfl, h⟩ | ⟨rfl, h⟩
  · exact Ev.readerUnit_foreign (.inl h)
  · exact Ev.readerUnit_foreign (.inr (.inl h))
  · rcases Nat.lt_or_ge code 10 with hlt | hge
    · rcases (show code = 8 ∨ code = 9 by omega) with rfl | rfl
      · show (match (e.part.ctx c).chip with | some h => _ | none => e.misfit c 8) = _
        rw [hchip]
      · show (match (e.part.ctx c).chip with | some h => _ | none => e.misfit c 9) = _
        rw [hchip]
    · exact Ev.readerUnit_foreign (.inr (.inr hge))
  · refine Ev.cardState_misfit ?_
    unfold readCard
    split <;> simp_all
  · exact Ev.trackChar_misfit h
  · exact Ev.trackEnd_misfit h

section
variable {h : Chip} (hchip : (e.part.ctx c).chip = some h)
include hchip

theorem Ev.readerUnit_chipData (drop : DropKind) (b1 b2 : Byte) : e.readerUnit c drop code (.chipData b1 b2) = e.chipData c h code b1 b2 := by
  simp only [Ev.readerUnit, hchip]

theorem Ev.readerUnit_chipEnd (drop : DropKind) (st : DropStatus) (last : Option Byte) :
    e.readerUnit c drop code (.chipEnd st last) = e.chipEnd c h code st last := by
  simp only [Ev.readerUnit, hchip]

theorem Ev.hybridUnit_misfit (hm : Misfit (e.part.ctx c) .readerHybrid code w) :
    e.readerUnit c .readerHybrid code (readUnit code w) = e.misfit c code := by
  rcases hm with hm | hm | hm | ⟨rfl, hm⟩ | ⟨rfl, hm⟩ | ⟨rfl, hm⟩ | ⟨hcode, k, hk, hm⟩
  · exact Ev.readerUnit_foreign (.inl hm)
  · exact Ev.readerUnit_foreign (.inr (.inl hm))
  · exact Ev.readerUnit_foreign (.inr (.inr hm))
  · refine Ev.cardState_misfit ?_
    unfold readCard
    split <;> simp_all
  · exact Ev.trackChar_misfit hm
  · exact Ev.trackEnd_misfit hm
  · obtain rfl : h = k := Option.some.inj (hchip.symm.trans hk)
    have hout (b : Bool) : e.chipOutOfTurn c h b code = e.misfit c code := by
      unfold Ev.chipOutOfTurn
      refine if_neg fun ⟨hoff, hlate⟩ => ?_
      rcases hm with ⟨-, hm⟩ | hm | hm <;> simp_all
    have hdata (b1 b2 : Byte) : e.chipData c h code b1 b2 = e.misfit c code := by
      unfold Ev.chipData
      rcases hm with ⟨hs, -⟩ | hs | hs <;> rw [hs] <;> exact hout false
    have hend (st : DropStatus) (last : Option Byte) : e.chipEnd c h code st last = e.misfit c code := by
      unfold Ev.chipEnd
      rcases hm with ⟨hs, -⟩ | hs | hs <;> rw [hs] <;> exact hout true
    rcases hcode with rfl | rfl
    · exact (Ev.readerUnit_chipData hchip ..).trans (hdata ..)
    · exact (Ev.readerUnit_chipEnd hchip ..).trans (hend ..)

theorem Ev.hybridUnit_quiet (hq : Quiet (e.part.ctx c) .readerHybrid code) : e.readerUnit c .readerHybrid code (readUnit code w) = e := by
  rcases hq with rfl | ⟨hk, -⟩ | ⟨-, k, hk, hq⟩
  · rfl
  · cases hk
  · obtain rfl : h = k := Option.some.inj (hchip.symm.trans hk)
    rcases hq with ⟨hcode, hs, hp⟩ | ⟨rfl, hs, hlate⟩
    · have hdata (b1 b2 : Byte) : e.chipData c h code b1 b2 = e := by
        simp only [Ev.chipData, hs, Part.atrData, hp, Bool.not_false, if_true]
        rfl
      have hend (st : DropStatus) (last : Option Byte) : e.chipEnd c h code st last = e := by
        simp only [Ev.chipEnd, hs, Part.atrEnd, hp, Bool.not_false, if_true]
        rfl
      rcases hcode with rfl | rfl
      · exact (Ev.readerUnit_chipData hchip ..).trans (hdata ..)
      · exact (Ev.readerUnit_chipEnd hchip ..).trans (hend ..)
    · refine (Ev.readerUnit_chipData hchip ..).trans ?_
      simp only [Ev.chipData, hs, Ev.chipOutOfTurn, hlate, and_self, if_true]
      rfl

end

end

end Sys2Proof.Machine
end

section
/-! PROOFS. Chip and block units, and the units that go to no block (O50). -/

namespace Sys2Proof.Machine

open Sys2Proof.Safety

/-! ### The records of a session -/

theorem Context.modChip_eq {x : Context} {h : Chip} (hc : x.chip = some h) (g : Chip → Chip) : x.modChip g = { x with chip := some (g h) } := by
  rw [Context.modChip, hc]
  rfl

/-- Response bytes, the first 258 of them kept (R124). -/
theorem Chip.foldl_respond (bs : List Byte) (h : Chip) (hlen : h.response.length ≤ 258) : bs.foldl Chip.respond h =
    { h with response := (h.response ++ bs).take 258, overrun := h.overrun || decide (258 < h.response.length + bs.length) } := by
  induction bs generalizing h with
  | nil => simp [List.take_of_length_le hlen, Nat.not_lt.mpr hlen]
  | cons b bs ih =>
    rw [List.foldl_cons, Chip.respond, Config.responseSize]
    split
    · rename_i hlt
      rw [ih _ (by simp; omega)]
      simp [Nat.add_assoc, Nat.add_comm 1]
    · rename_i hge
      rw [ih { h with overrun := true } hlen]
      have hfull : h.response.length = 258 := by omega
      simp [hfull]

/-- A start that a drop status or its length fails (R121, R122). -/
theorem Chip.afterFailedStart_of_drop (h : Chip) {o : StartOutcome} (ho : o = .atrLength ∨ o = .mute ∨ o = .parity ∨ o = .contactFault) :
    h.afterFailedStart o =
    { h with
      session := .off, owner := none, wantedPower := false, atr := [], atrWait := none, command := [], unitsSent := 0, response := []
      overrun := false, respTimer := none, wantedLatch := false, discardLate := decide (o = .atrLength) || h.discardLate } := by
  rcases ho with rfl | rfl | rfl | rfl <;> simp [Chip.afterFailedStart, Chip.toOff, StartOutcome.leavesLate, StartOutcome.byCause]

theorem Chip.afterSession_contactFault (h : Chip) : h.afterSession .contactFault false =
    { h with
      session := .off, owner := none, wantedPower := false, atr := [], atrWait := none, command := [], unitsSent := 0, response := []
      overrun := false, respTimer := none } := by
  simp [Chip.afterSession, Chip.toOff, EndReason.keepsLatch, EndReason.late, EndReason.byCause]

theorem exchangeStatus_readDropStatus (st : BitVec 2) : (readDropStatus st.toNat).exchangeStatus =
    if st = 0 then .ok else if st = 1 then .mute else if st = 2 then .parity else .contactFault := by
  revert st
  decide

theorem readDropStatus_eq_contactFault (st : BitVec 2) : readDropStatus st.toNat = .contactFault ↔ st = 3 := by
  revert st
  decide

/-! ### Chip units at a hybrid reader -/

section
variable {p : Part} {l : LineId} {c : CtxId} {z : Context} {q : EventQueue} {f : FaultRecord} {h : Chip} (hz : z.lineId = some l)
  (hc : z.chip = some h) (hops : OpsOk q.reservations c z)
include hz hc hops

/-- A byte pair of an answer to reset (R121). -/
theorem Part.atrData_during (hs : h.session = .starting) (hp : h.powerSeen = true) (b1 b2 : Byte) :
    (p.during l c z q f).atrData c h b1 b2 =
      if 31 < h.atr.length
      then p.during l c { z with holder := none, chip := some (h.afterFailedStart .atrLength) } (endedSession c (some l) h .atrLength .ok .stopped q) f
      else p.during l c { z with chip := some { h with atr := h.atr ++ [b1, b2] } } q f := by
  rw [Part.atrData, if_neg (by rw [hp]; decide), Part.startFails_during hz hc hops hs, Part.modCtx_during, Context.modChip_eq hc, Config.atrSize]
  by_cases hlen : 31 < h.atr.length
  · rw [if_pos hlen, if_pos (by omega)]
  · rw [if_neg hlen, if_neg (by omega)]

/-- The session enters READY (R121). -/
theorem Part.startReady_during (hs : h.session = .starting) (atr : List Byte) :
    (p.during l c z q f).startReady c h atr =
      p.during l c { z with chip := some { h with session := .ready, atr := [], atrWait := none } }
        (converted q (.chipStart c) h.owner (some c) (some l) (.chip (.start .ready (some atr)))) f := by
  rw [Part.startReady, chipRecord, Part.convert_during (hops.start_mem ((Context.session_eq hc).trans hs)), Part.modCtx_during,
    Context.modChip_eq hc, Part.ctx_during, hz]

/-- A response that ends (R124). -/
theorem Part.responseEnd_during (hs : h.session = .awaiting) (hlen : h.response.length ≤ 258) (st : DropStatus) (last : Option Byte) :
    let status : ExchangeStatus := if h.overrun || decide (258 < h.response.length + last.toList.length) then .overrun else st.exchangeStatus
    let q' := converted q (.exchange c) h.owner (some c) (some l) (.chip (.exchange h.exchanges status ((h.response ++ last.toList).take 258)))
    (p.during l c z q f).responseEnd c st last =
      if st = .contactFault
      then p.during l c { z with holder := none, chip := some (h.afterSession .contactFault false) }
        (converted q' (.chipEnd c) h.owner (some c) (some l) (.chip (.sessionEnd .contactFault h.exchanges))) f
      else p.during l c
        { z with chip := some { h with session := .ready, command := [], unitsSent := 0, response := [], overrun := false, respTimer := none } }
        q' f := by
  intro status q'
  have hsession := (Context.session_eq hc).trans hs
  have hmem : .exchange c ∈ q.reservations := hops.exchange_mem (.inr hsession)
  have hend : .chipEnd c ∈ q'.reservations := (List.mem_erase_of_ne (by simp)).mpr (hops.end_mem (by rw [hsession]; nofun))
  have hexchange := fun st => Part.endExchange_during (p := p) (l := l) (f := f) (q := q)
    (z := { z with chip := some { h with
              response := (h.response ++ last.toList).take 258, overrun := h.overrun || decide (258 < h.response.length + last.toList.length) } })
    hz rfl hmem st
  simp only [Part.responseEnd, Part.modCtx_during, Context.modChip_eq hc, Chip.foldl_respond _ h hlen, Part.ctx_during, hexchange]
  by_cases hst : st = .contactFault
  · rw [if_pos hst, if_pos hst]
    exact Part.endSession_during (z := { z with chip := some { h with
      session := .ready, command := [], unitsSent := 0, response := [], overrun := false, respTimer := none } }) hz rfl hend .contactFault false
  · rw [if_neg hst, if_neg hst]

/-- The end of an answer to reset (R121). -/
theorem Part.atrEnd_during (hs : h.session = .starting) (hp : h.powerSeen = true) (st : DropStatus) (last : Option Byte) :
    let fails (o : StartOutcome) : Part :=
      p.during l c { z with holder := none, chip := some (h.afterFailedStart o) } (endedSession c (some l) h o .ok .stopped q) f
    (p.during l c z q f).atrEnd c h st last =
      if 33 < (h.atr ++ last.toList).length then fails .atrLength
      else if st = .ok then
        if h.atr ++ last.toList = [] then fails .atrLength
        else p.during l c { z with chip := some { h with session := .ready, atr := [], atrWait := none } }
          (converted q (.chipStart c) h.owner (some c) (some l) (.chip (.start .ready (some (h.atr ++ last.toList))))) f
      else fails st.startOutcome := by
  intro fails
  rw [Part.atrEnd, if_neg (by rw [hp]; decide), Part.startReady_during hz hc hops hs]
  simp only [Part.startFails_during hz hc hops hs, Config.atrSize]
  rfl

end

/-- A late CHIP_END clears the discard-late flag (R132). -/
theorem Ev.chipEnd_late {e : Ev} {c : CtxId} {h : Chip} {kind : Nat} {st : DropStatus} {last : Option Byte} (hoff : h.session = .off)
    (hlate : h.discardLate = true) :
    e.chipEnd c h kind st last = e.map fun p => p.modCtx c fun x => x.modChip fun h => { h with discardLate := false } := by
  simp only [Ev.chipEnd, hoff, Ev.chipOutOfTurn, hlate, and_self, if_true]

/-! ### Chip units that end or go on with a start or an exchange -/

section
variable {s : State} {l : LineId} {i start : Nat} {run : SlotRun} {pr : Profile}

theorem lineId_heard (h : Hears s l i run pr) : (heard (s.part.line l) run.unit (s.part.ctx run.ctx)).lineId = some l := lineId_of_hears h

theorem opsOk_heard (hs : OperationsSound s) (l : LineId) (run : SlotRun) :
    OpsOk s.part.queue.reservations run.ctx (heard (s.part.line l) run.unit (s.part.ctx run.ctx)) :=
  OpsOk.of_ctxOps (x := s.part.ctx run.ctx) (y := heard (s.part.line l) run.unit (s.part.ctx run.ctx)) (.of_blocks rfl rfl rfl rfl rfl rfl)
    (opsOk_of_sound hs run.ctx)

/-- At a hybrid reader there is no keypad, and so no entry (R30). -/
theorem keypad_none_of_reader (hsound : AttachSound s) (h : Hears s l i run pr) (hk : pr.kind ≠ .keypad) : (s.part.ctx run.ctx).keypad = none := by
  obtain ⟨-, hkeypad, -⟩ := hsound run.ctx
  rw [kind_of_hears h] at hkeypad
  cases hx : (s.part.ctx run.ctx).keypad with
  | none => rfl
  | some k => exact absurd (Option.some.inj (hkeypad.mp (by rw [hx]; rfl))) hk

theorem notArming_of_keypad_none {x : Context} (h : x.keypad = none) : NotArming x := fun e he => by
  rw [Context.entry, h] at he
  cases he

theorem chip_none_of_keypad (hsound : AttachSound s) (h : Hears s l i run pr) (hk : pr.kind ≠ .readerHybrid) : (s.part.ctx run.ctx).chip = none := by
  obtain ⟨-, -, -, hchip, -⟩ := hsound run.ctx
  rw [kind_of_hears h] at hchip
  cases hx : (s.part.ctx run.ctx).chip with
  | none => rfl
  | some k => exact absurd (Option.some.inj (hchip.mp (by rw [hx]; rfl))) hk

/-- A received unit that leaves no command to stream. -/
theorem settles_still (h : Hears s l i run pr) (hstart : start < 4) {kind : BitVec 4} {w : Payload} {z : Context} {q : EventQueue}
    {f : FaultRecord} (htake : (s.part.slotEvent l run []).takeUnit l run (.received kind.toNat w) =
      { part := s.part.during l run.ctx z q f, faults := [], tail := [] }) (hz : z.profile = some pr) (harm : NotArming z)
    (hsession : z.session ≠ .sending) :
    ∃ p, Settles s l run.ctx i (.unit start 24 (unitWord kind w)) z p ∧ p.queue = q ∧ p.faults = f := by
  have h' := settles_plain h hstart htake hz harm
  rwa [streamed_of_session hsession] at h'

variable {h : Chip}

theorem takeUnit_chipData (hears : Hears s l i run pr) (hk : pr.kind = .readerHybrid) (hc : (s.part.ctx run.ctx).chip = some h) (b1 b2 : Byte) :
    (s.part.slotEvent l run []).takeUnit l run (.received (8 : BitVec 4).toNat (b1 ++ b2)) = (s.part.heardEvent l run).chipData run.ctx h 8 b1 b2 := by
  refine (Part.takeUnit_reader (drop := .readerHybrid) hears.2 (lineId_of_hears hears) ((kind_of_hears hears).trans (by rw [hk])) nofun (by decide) _).trans ?_
  have hread : readUnit (8 : BitVec 4).toNat (b1 ++ b2) = .chipData b1 b2 := readUnit_chipData ..
  rw [hread]
  exact Ev.readerUnit_chipData (by rw [Part.heardEvent, Part.ctx_during]; exact hc) ..

theorem takeUnit_chipEnd (hears : Hears s l i run pr) (hk : pr.kind = .readerHybrid) (hc : (s.part.ctx run.ctx).chip = some h) (st : BitVec 2)
    (mid : BitVec 5) (last : Bool) (b : Byte) :
    (s.part.slotEvent l run []).takeUnit l run (.received (9 : BitVec 4).toNat (st ++ mid ++ BitVec.ofBool last ++ b)) =
      (s.part.heardEvent l run).chipEnd run.ctx h 9 (readDropStatus st.toNat) (if last then some b else none) := by
  refine (Part.takeUnit_reader (drop := .readerHybrid) hears.2 (lineId_of_hears hears) ((kind_of_hears hears).trans (by rw [hk])) nofun (by decide) _).trans ?_
  have hread : readUnit (9 : BitVec 4).toNat (st ++ mid ++ BitVec.ofBool last ++ b) = _ := readUnit_chipEnd ..
  rw [hread]
  exact Ev.readerUnit_chipEnd (by rw [Part.heardEvent, Part.ctx_during]; exact hc) ..

end

/-! ### Block units at a keypad -/

section
variable {s : State} {l : LineId} {i start : Nat} {run : SlotRun} {pr : Profile} {e : Entry}

theorem takeUnit_block (hears : Hears s l i run pr) (hk : pr.kind = .keypad) (he : (s.part.ctx run.ctx).entry = some e) (hclosing : e.state = .closing)
    {kind : BitVec 4} {w : Payload} {g : Entry → Part → Part} (hne : kind.toNat ≠ 1)
    (hg : (s.part.heardEvent l run).keypadUnit run.ctx kind.toNat (readUnit kind.toNat w) = (s.part.heardEvent l run).blockUnit run.ctx kind.toNat g) :
    (s.part.slotEvent l run []).takeUnit l run (.received kind.toNat w) = (s.part.heardEvent l run).map (g e) := by
  rw [Part.takeUnit_keypad hears.2 (lineId_of_hears hears) ((kind_of_hears hears).trans (by rw [hk])) hne, hg]
  have he' : ((s.part.heardEvent l run).part.ctx run.ctx).entry = some e := by rw [Part.heardEvent, Part.ctx_during]; exact he
  rw [Ev.blockUnit, he']
  exact if_pos hclosing

/-- The result of a SECURE entry that ends in CLOSING by its block (R95, R101). -/
theorem Entry.result_of_block {e : Entry} (hk : e.kind = .secure) {o : EntryOutcome} (ho : o = .completed ∨ o = .blockFault)
    (detail : Option EntryDetail) : e.result { outcome := o, endKey := e.endKey, detail := detail } =
      { kind := .secure, outcome := o, endKey := e.endKey, detail := detail, digits := none, count := e.count, ignored := e.ignored
        block := if o = .completed then some e.block else none, blockBytes := if o = .completed then none else some e.block.length } := by
  rcases ho with rfl | rfl <;> simp [Entry.result, Entry.digitCount_eq, hk]

end

/-! ### Units that go to no block -/

theorem eventEnds_of_offered {ds : List Detection} {p q : Part}
    (h : Offered (recordAll p.faults ds).2 { p with faults := (recordAll p.faults ds).1 } q) : EventEnds ds [] p q := by
  unfold EventEnds
  rwa [List.append_nil]

section
variable {s : State} {l : LineId} {i : Nat} {run : SlotRun} {pr : Profile} (hsound : AttachSound s) (hears : Hears s l i run pr) {kind : Nat}
  (hne : kind ≠ 1) {w : Payload}
include hsound hears hne

/-- A unit that does not fit, at a context of any kind (R55). -/
theorem takeUnit_misfit (h : Misfit (s.part.ctx run.ctx) pr.kind kind w) :
    (s.part.slotEvent l run []).takeUnit l run (.received kind w) = (s.part.heardEvent l run).misfit run.ctx kind := by
  have hlid := lineId_of_hears hears
  have hkind := kind_of_hears hears
  have hctx : (s.part.heardEvent l run).part.ctx run.ctx = heard (s.part.line l) run.unit (s.part.ctx run.ctx) := Part.ctx_during
  cases hk : pr.kind with
  | keypad =>
    rw [hk] at h hkind
    exact (Part.takeUnit_keypad hears.2 hlid hkind hne w).trans (Ev.keypadUnit_misfit (by rw [hctx]; exact h))
  | readerStripe =>
    rw [hk] at h hkind
    have hchip := chip_none_of_keypad hsound hears (by rw [hk]; nofun)
    exact (Part.takeUnit_reader hears.2 hlid hkind nofun hne w).trans (Ev.stripeUnit_misfit (by rw [hctx]; exact hchip) (by rw [hctx]; exact h))
  | readerHybrid =>
    rw [hk] at h hkind
    obtain ⟨-, -, -, hchip, -⟩ := hsound run.ctx
    obtain ⟨k, hchip⟩ := Option.isSome_iff_exists.mp (hchip.mpr hkind)
    exact (Part.takeUnit_reader hears.2 hlid hkind nofun hne w).trans
      (Ev.hybridUnit_misfit (h := k) (by rw [hctx]; exact hchip) (by rw [hctx]; exact h))

/-- A unit that changes nothing (R53, R54, R121, R132). -/
theorem takeUnit_quiet (h : Quiet (s.part.ctx run.ctx) pr.kind kind) :
    (s.part.slotEvent l run []).takeUnit l run (.received kind w) = s.part.heardEvent l run := by
  have hlid := lineId_of_hears hears
  have hkind := kind_of_hears hears
  have hctx : (s.part.heardEvent l run).part.ctx run.ctx = heard (s.part.line l) run.unit (s.part.ctx run.ctx) := Part.ctx_during
  cases hk : pr.kind with
  | keypad =>
    rw [hk] at h hkind
    exact (Part.takeUnit_keypad hears.2 hlid hkind hne w).trans (Ev.keypadUnit_quiet (by rw [hctx]; exact h))
  | readerStripe =>
    rw [hk] at h hkind
    rcases h with rfl | ⟨hstripe, -⟩ | ⟨hstripe, -⟩
    · exact Part.takeUnit_reader hears.2 hlid hkind nofun hne w
    · cases hstripe
    · cases hstripe
  | readerHybrid =>
    rw [hk] at h hkind
    obtain ⟨-, -, -, hchip, -⟩ := hsound run.ctx
    obtain ⟨k, hchip⟩ := Option.isSome_iff_exists.mp (hchip.mpr hkind)
    exact (Part.takeUnit_reader hears.2 hlid hkind nofun hne w).trans
      (Ev.hybridUnit_quiet (h := k) (by rw [hctx]; exact hchip) (by rw [hctx]; exact h))

end

/-- Settles O50: the block of the kind and the session's or the entry's state decide what the unit does. -/
theorem chipAndBlockUnits : Obligations.ChipAndBlockUnits := by
  intro s l i start run pr hears hstart hs hsound c x ln y q ends after
  have hz : y.lineId = some l := lineId_heard hears
  have hpr : y.profile = some pr := hears.1.2.2.2.1
  have hops : OpsOk q.reservations c y := opsOk_heard hs l run
  refine ⟨fun hk h b1 b2 st mid last hc => ?_, fun hk kp e b1 b2 low hkp he hclosing hsecure => ?_, fun harm kind w hne => ?_⟩
  · intro bytes endUnit off fails
    have hkeypad : x.keypad = none := keypad_none_of_reader hsound hears (by rw [hk]; nofun)
    have hdata := takeUnit_chipData hears hk hc b1 b2
    have hend := takeUnit_chipEnd hears hk hc st mid last b1
    have hbytes : (if last = true then some b1 else none).toList = bytes := by
      show _ = if last = true then [b1] else []
      cases last <;> rfl
    have hsettle {kind : BitVec 4} {w : Payload} {z : Context} {q' : EventQueue}
        (htake : (s.part.slotEvent l run []).takeUnit l run (.received kind.toNat w) =
          { part := s.part.during l run.ctx z q' s.part.faults, faults := [], tail := [] }) (hzp : z.profile = some pr) (hzk : z.keypad = none)
        (hzs : z.session ≠ .sending) : after (unitWord kind w) z q' :=
      settles_still hears hstart htake hzp (notArming_of_keypad_none hzk) hzs
    refine ⟨fun hstarting hpower => ?_, fun hawait hlen => ?_, fun hoff hlate => ?_⟩
    · have hatr : (s.part.slotEvent l run []).takeUnit l run (.received (8 : BitVec 4).toNat (b1 ++ b2)) =
          { part := (s.part.during l c y q s.part.faults).atrData c h b1 b2, faults := [], tail := [] } := by
        rw [hdata, Ev.chipData, hstarting]
        rfl
      have hatrEnd : (s.part.slotEvent l run []).takeUnit l run (.received (9 : BitVec 4).toNat (st ++ mid ++ BitVec.ofBool last ++ b1)) =
          { part := (s.part.during l c y q s.part.faults).atrEnd c h (readDropStatus st.toNat) (if last then some b1 else none)
            faults := [], tail := [] } := by
        rw [hend, Ev.chipEnd, hstarting]
        rfl
      rw [Part.atrData_during hz hc hops hstarting hpower] at hatr
      rw [Part.atrEnd_during hz hc hops hstarting hpower, hbytes] at hatrEnd
      have hfails {kind : BitVec 4} {w : Payload} {o : StartOutcome} (ho : o = .atrLength ∨ o = .mute ∨ o = .parity ∨ o = .contactFault)
          (htake : (s.part.slotEvent l run []).takeUnit l run (.received kind.toNat w) =
            { part := s.part.during l run.ctx { y with holder := none, chip := some (h.afterFailedStart o) }
                (endedSession c (some l) h o .ok .stopped q) s.part.faults, faults := [], tail := [] }) : fails (unitWord kind w) o := by
        rw [Chip.afterFailedStart_of_drop h ho] at htake
        exact hsettle htake hpr hkeypad (by simp [Context.session])
      refine ⟨fun hlen => ?_, fun hlen => ?_, fun hlen => ?_, fun hlen => ?_⟩
      · rw [if_neg (Nat.not_lt.mpr hlen)] at hatr
        exact hsettle hatr hpr hkeypad (by simp [Context.session, hstarting])
      · rw [if_pos hlen] at hatr
        exact hfails (.inl rfl) hatr
      · rw [if_pos hlen] at hatrEnd
        exact hfails (.inl rfl) hatrEnd
      · rw [if_neg (Nat.not_lt.mpr hlen)] at hatrEnd
        refine ⟨fun hst hnil => ?_, fun hst hnil => ?_, fun hst => ?_, fun hst => ?_, fun hst => ?_⟩
        · rw [if_pos (by rw [hst]; rfl), if_pos hnil] at hatrEnd
          exact hfails (.inl rfl) hatrEnd
        · rw [if_pos (by rw [hst]; rfl), if_neg hnil] at hatrEnd
          exact hsettle hatrEnd hpr hkeypad (by simp [Context.session])
        · rw [if_neg (by rw [hst]; exact nofun)] at hatrEnd
          have hout : (readDropStatus st.toNat).startOutcome = .mute := by rw [hst]; rfl
          rw [hout] at hatrEnd
          exact hfails (.inr (.inl rfl)) hatrEnd
        · rw [if_neg (by rw [hst]; exact nofun)] at hatrEnd
          have hout : (readDropStatus st.toNat).startOutcome = .parity := by rw [hst]; rfl
          rw [hout] at hatrEnd
          exact hfails (.inr (.inr (.inl rfl))) hatrEnd
        · rw [if_neg (by rw [hst]; exact nofun)] at hatrEnd
          have hout : (readDropStatus st.toNat).startOutcome = .contactFault := by rw [hst]; rfl
          rw [hout] at hatrEnd
          exact hfails (.inr (.inr (.inr rfl))) hatrEnd
    · have hrespond : (s.part.slotEvent l run []).takeUnit l run (.received (8 : BitVec 4).toNat (b1 ++ b2)) =
          { part := s.part.during l c { y with chip := some ([b1, b2].foldl Chip.respond h) } q s.part.faults, faults := [], tail := [] } := by
        rw [hdata, Ev.chipData, hawait]
        simp only [Part.heardEvent, Ev.map, Part.modCtx_during]
        rw [Context.modChip_eq (by exact hc)]
        rfl
      have hresult : (s.part.slotEvent l run []).takeUnit l run (.received (9 : BitVec 4).toNat (st ++ mid ++ BitVec.ofBool last ++ b1)) =
          { part := (s.part.during l c y q s.part.faults).responseEnd c (readDropStatus st.toNat) (if last then some b1 else none)
            faults := [], tail := [] } := by
        rw [hend, Ev.chipEnd, hawait]
        rfl
      rw [Chip.foldl_respond _ _ hlen] at hrespond
      rw [Part.responseEnd_during hz hc hops hawait hlen, hbytes, exchangeStatus_readDropStatus] at hresult
      refine ⟨hsettle hrespond hpr hkeypad (by simp [Context.session, hawait]), ?_⟩
      intro tooLong status q'
      refine ⟨fun hst => ?_, fun hst => ?_⟩
      · rw [if_neg fun h => hst ((readDropStatus_eq_contactFault st).mp h)] at hresult
        exact hsettle hresult hpr hkeypad (by simp [Context.session])
      · rw [if_pos ((readDropStatus_eq_contactFault st).mpr hst), Chip.afterSession_contactFault] at hresult
        exact hsettle hresult hpr hkeypad (by simp [Context.session])
    · refine hsettle (hend.trans ?_) hpr hkeypad (by simp [Context.session, hoff])
      rw [Ev.chipEnd_late hoff hlate]
      simp only [Part.heardEvent, Ev.map, Part.modCtx_during]
      rw [Context.modChip_eq (by exact hc)]
  · intro endsEntry
    have hchip : x.chip = none := chip_none_of_keypad hsound hears (by rw [hk]; nofun)
    have hentry : x.entry = some e := (Context.entry_eq hkp).trans he
    have hmem : .entry c ∈ q.reservations := hops.entry_mem hentry
    have hsettle {kind : BitVec 4} {w : Payload} {z : Context} {q' : EventQueue}
        (htake : (s.part.slotEvent l run []).takeUnit l run (.received kind.toNat w) =
          { part := s.part.during l run.ctx z q' s.part.faults, faults := [], tail := [] }) (hzp : z.profile = some pr) (hzc : z.chip = none)
        (harm : NotArming z) : after (unitWord kind w) z q' :=
      settles_still hears hstart htake hzp harm (by rw [Context.session, hzc]; exact nofun)
    have hentryY : y.entry = some e := hentry
    have hkpY : y.keypad = some kp := hkp
    have hdata : (s.part.slotEvent l run []).takeUnit l run (.received (10 : BitVec 4).toNat (b1 ++ b2)) =
        { part := (s.part.during l c y q s.part.faults).blockData c e b1 b2, faults := [], tail := [] } := by
      refine (takeUnit_block (g := fun en p => p.blockData run.ctx en b1 b2) hears hk hentry hclosing (by decide) ?_).trans rfl
      rw [show readUnit (10 : BitVec 4).toNat (b1 ++ b2) = .blockData b1 b2 from readUnit_blockData ..]
      rfl
    have hend (refused : Bool) : (s.part.slotEvent l run []).takeUnit l run (.received (11 : BitVec 4).toNat (BitVec.ofBool refused ++ low)) =
        { part := (s.part.during l c y q s.part.faults).blockEnd c e refused, faults := [], tail := [] } := by
      refine (takeUnit_block (g := fun en p => p.blockEnd run.ctx en refused) hears hk hentry hclosing (by decide) ?_).trans rfl
      rw [show readUnit (11 : BitVec 4).toNat (BitVec.ofBool refused ++ low) = .blockEnd refused from readUnit_blockEnd ..]
      rfl
    have hends {kind : BitVec 4} {w : Payload} {o : EntryOutcome} {detail : Option EntryDetail} {cs : List Control}
        (ho : o = .completed ∨ o = .blockFault)
        (htake : (s.part.slotEvent l run []).takeUnit l run (.received kind.toNat w) =
          { part := (s.part.during l c y q s.part.faults).endEntry c { outcome := o, endKey := e.endKey, detail := detail }, faults := [], tail := [] })
        (hcs : (if e.state = .closing ∧ EntryEnding.abandons { outcome := o, endKey := e.endKey, detail := detail } = true
          then abandonBlock y.controls else y.controls) = cs) : endsEntry (unitWord kind w) o detail cs := by
      have hlate : (y.lateBlock || (decide (e.state = .closing) && EntryEnding.leavesBlock { outcome := o, endKey := e.endKey, detail := detail })) =
          true := by
        rw [hclosing]
        rcases ho with rfl | rfl <;> simp [EntryEnding.leavesBlock]
      rw [Part.endEntry_during hz hentryY hmem, Context.afterEntry_eq hkpY, hcs, hlate, Entry.result_of_block hsecure ho] at htake
      exact hsettle htake hpr hchip fun e' he' => by simp [Context.entry] at he'
    refine ⟨fun hlen => ?_, fun hlen => ?_, fun hlen => ?_, fun hlen => ?_, ?_⟩
    · rw [Part.blockData, Config.blockSize, if_neg (by omega), Part.modCtx_during, Context.setEntry_eq hkpY] at hdata
      refine hsettle hdata hpr hchip fun e' he' => ?_
      obtain rfl : { e with block := e.block ++ [b1, b2] } = e' := Option.some.inj he'
      rw [hclosing]
      nofun
    · rw [Part.blockData, Config.blockSize, if_pos (by omega)] at hdata
      exact hends (.inr rfl) hdata (by rw [if_pos ⟨hclosing, rfl⟩, abandonBlock_eq]; rfl)
    · have h := hend false
      rw [Part.blockEnd, if_neg nofun, if_pos hlen] at h
      exact hends (.inl rfl) h (if_neg fun h => nomatch h.2)
    · have h := hend false
      rw [Part.blockEnd, if_neg nofun, if_neg hlen] at h
      exact hends (.inr rfl) h (if_neg fun h => nomatch h.2)
    · have h := hend true
      rw [Part.blockEnd, if_pos rfl] at h
      exact hends (.inr rfl) h (if_neg fun h => nomatch h.2)
  · have hnum : kind.toNat ≠ 1 := fun h => hne (BitVec.eq_of_toNat_eq h)
    refine ⟨fun hmisfit => ?_, fun hquiet => ?_⟩
    · have htake := takeUnit_misfit hsound hears hnum hmisfit
      rw [Part.misfit_heard (lineId_of_hears hears)] at htake
      obtain ⟨p, hp, hoffered⟩ := settles_heard hears hstart htake hpr harm
      exact ⟨p, hp, eventEnds_of_offered hoffered⟩
    · exact settles_plain hears hstart (takeUnit_quiet hsound hears hnum hquiet) hpr harm

end Sys2Proof.Machine
end

section
/-! PROOFS. Track units and the card at an ATTACHED reader (O49). -/

namespace Sys2Proof.Machine

open Sys2Proof.Safety

/-! ### Tracks -/

theorem Capture.begin_eq (u : Capture) (ln : Line) : u.begin ln =
    if u.state = .armed then { u with state := .capturing, armTimer := none, limitTimer := timerFrames ln 3000 } else u := by
  unfold Capture.begin
  cases u.state <;> rfl

theorem Capture.tracks_begin (u : Capture) (ln : Line) : (u.begin ln).tracks = u.tracks := by
  rw [Capture.begin_eq]
  split <;> rfl

/-- A track character at its track, the reached count read off the rule (R103, R110). -/
theorem TrackRec.takeChar_eq (t : TrackRec) (parity : Bool) (ch : Byte) : t.takeChar parity ch =
    match t.state with
    | .ended => t
    | .seeking => if t.rule.start = some ch then { t with state := .collecting, startFound := true, parity := t.parity || parity } else t
    | .collecting =>
      let marked : TrackRec := { t with taken := true, parity := t.parity || parity }
      let stored := t.buffer ++ [ch]
      if ch ∈ t.rule.ends then { marked with state := .ended, endedBy := some .endCode }
      else if 112 ≤ stored.length then { marked with buffer := stored, state := .ended, endedBy := some .truncated }
      else if 0 < t.rule.count ∧ t.rule.count ≤ stored.length
        then { marked with buffer := stored, state := .ended, endedBy := some .count }
      else { marked with buffer := stored } := by
  unfold TrackRec.takeChar
  cases t.state with
  | ended => rfl
  | seeking => rfl
  | collecting =>
    by_cases hend : ch ∈ t.rule.ends
    · simp [hend, TrackRec.finish]
    · by_cases hfull : 112 ≤ (t.buffer ++ [ch]).length
      · simp [hend, TrackRec.store, TrackRec.finish, Config.trackSize] at hfull ⊢
        simp [hfull]
      · have hlimit : t.rule.limit ≤ (t.buffer ++ [ch]).length ↔ 0 < t.rule.count ∧ t.rule.count ≤ (t.buffer ++ [ch]).length := by
          rw [TrackRule.limit, Config.trackSize]
          split <;> omega
        simp only [hend, TrackRec.store, TrackRec.finish, Config.trackSize, hfull, if_false, hlimit, List.contains_iff_mem]

/-- The first status of a track (R111). -/
theorem TrackRec.takeEnd_eq (t : TrackRec) (st : ReaderStatus) : t.takeEnd st =
    if t.status.isSome then t
    else if t.state = .ended then { t with status := some st }
    else { t with status := some st, state := .ended, endedBy := some .trackEnd } := by
  unfold TrackRec.takeEnd
  cases t.status <;> rfl

theorem TrackSet.add_eq (t : TrackSet) (track : BitVec 2) : t.add track.toNat =
    { t1 := t.t1 || decide (track = 1), t2 := t.t2 || decide (track = 2), t3 := t.t3 || decide (track = 3) } := by
  obtain ⟨a, b, c⟩ := t
  revert a b c track
  decide

theorem Context.modReader_eq {x : Context} {r : Reader} (hr : x.reader = some r) (g : Reader → Reader) :
    x.modReader g = { x with reader := some (g r) } := by
  rw [Context.modReader, hr]
  rfl

section
variable {p : Part} {l : LineId} {c : CtxId} {z : Context} {q : EventQueue} {f : FaultRecord} {r : Reader}

theorem Part.lineOf_during (hz : z.lineId = some l) : (p.during l c z q f).lineOf c = { p.line l with inSlot := none } := by
  simp only [Part.lineOf, Part.ctx_during, hz, Part.line_during]

/-- A track unit goes to the capture, which it begins, or else to the tally (R108, R110, R111, R117). -/
theorem Part.trackChar_during (hz : z.lineId = some l) (hr : z.reader = some r) (track : Nat) (parity : Bool) (ch : Byte) :
    (p.during l c z q f).trackChar c track parity ch = p.during l c
      { z with reader := some (match r.capture with
        | none => { r with seen := r.seen.add track, discarded := min 255 (r.discarded + 1) }
        | some u => { r with capture := some { u.begin (p.line l) with
                              tracks := u.tracks.map fun t => if t.track = track then t.takeChar parity ch else t } }) } q f := by
  rw [Part.trackChar, Part.modCtx_during, Part.lineOf_during hz, Context.modReader_eq hr]
  cases r.capture with
  | none => simp only [satInc8_eq_min]
  | some u =>
    simp only [Capture.onTrack, Capture.tracks_begin]
    rfl

theorem Part.trackEnd_during (hz : z.lineId = some l) (hr : z.reader = some r) (track : Nat) (st : ReaderStatus) :
    (p.during l c z q f).trackEnd c track st = p.during l c
      { z with reader := some (match r.capture with
        | none => { r with seen := r.seen.add track }
        | some u => { r with capture := some { u.begin (p.line l) with
                              tracks := u.tracks.map fun t => if t.track = track then t.takeEnd st else t } }) } q f := by
  rw [Part.trackEnd, Part.modCtx_during, Part.lineOf_during hz, Context.modReader_eq hr]
  cases r.capture with
  | none => rfl
  | some u =>
    simp only [Capture.onTrack, Capture.tracks_begin]
    rfl

/-- A SWIPE_END with no capture closes the pass with its notice (R117). -/
theorem Part.swipeEnd_during (hz : z.lineId = some l) (hr : z.reader = some r) (hu : r.capture = none) :
    let rec_ : Rec := .of (.swiped r.card r.seen r.discarded) z.holder (some c) (some l)
    let p1 : Part := ({ p with queue := q, faults := f } : Part).offerAll [rec_]
    (p.during l c z q f).swipeEnd c = p.during l c
      { z with reader := some { r with seen := { t1 := false, t2 := false, t3 := false }, discarded := 0 } } p1.queue p1.faults := by
  intro rec_ p1
  have hswipe : (p.during l c z q f).swipeEnd c = ((p.during l c z q f).offerAll [rec_]).modCtx c fun x => x.modReader Reader.clearTally := by
    simp only [Part.swipeEnd, Part.ctx_during, hr, hu, hz]
    rfl
  rw [hswipe, Part.offerAll_during, Part.modCtx_during, Context.modReader_eq hr]
  rfl

end

/-- The result of a completed capture (R113, R115). -/
theorem captureShown_completed (u : Capture) :
    let verdict (t : TrackRec) : TrackStatus :=
      if t.status = some .noData ∨ (t.rule.start.isSome ∧ t.startFound = false) ∨ (t.rule.start = none ∧ t.taken = false) then .noData
      else if t.endedBy = some .truncated then .truncated
      else if t.status = some .lrcBad then .lrcBad
      else if t.parity = true then .parity else .ok
    let entry (t : TrackRec) : TrackEntry :=
      { track := t.track, status := verdict t, endedBy := t.endedBy, chars := if verdict t = .noData then none else some t.buffer }
    captureShown u .completed = { outcome := .completed, mask := u.mask, tracks := u.tracks.map entry } := by
  intro verdict entry
  have hverdict (t : TrackRec) : t.verdict .completed = verdict t := by
    show TrackRec.verdict t .completed = if _ then _ else _
    simp [TrackRec.verdict]
  have hentry (t : TrackRec) : t.entry .completed = entry t := by
    show TrackRec.entry t .completed = ({ track := t.track, status := verdict t, endedBy := t.endedBy
                                          chars := if verdict t = .noData then none else some t.buffer } : TrackEntry)
    rw [TrackRec.entry, hverdict]
  rw [← Capture.result_eq, Capture.result]
  congr 1
  exact List.map_congr_left fun t _ => hentry t

/-! ### The card -/

/-- What a hybrid reader reports with a card state (R53). -/
def Chip.reports (h : Chip) (latch power : Bool) : Chip :=
  { h with reportedLatch := if latch then .on else .off, reportedPower := if power then .on else .off }

/-- A card enters the reader (R108). -/
abbrev Enters (before after : CardState) : Prop := before = .noCard ∧ (after = .swiping ∨ after = .inserted)

theorem cardEnters_iff (before after : CardState) : cardEnters before after = true ↔ Enters before after := by
  cases before <;> cases after <;> decide

/-- The reader after a card state: a card that enters begins the capture (R108, R116). -/
def Reader.took (r : Reader) (card : CardState) (ln : Line) : Reader :=
  { r with card := card, capture := if Enters r.card card then r.capture.map fun u => u.begin ln else r.capture }

/-- The CARD notice of a change (R116). -/
def cardChange (l : LineId) (c : CtxId) (z : Context) (before after : CardState) : List Rec :=
  if before = after then [] else [.of (.card before after .changed z.latchPower) z.holder (some c) (some l)]

section
variable {p : Part} {l : LineId} {c : CtxId} {z : Context} {q : EventQueue} {f : FaultRecord} {r : Reader}

theorem Reader.took_same (r : Reader) (ln : Line) : r.took r.card ln = r := by
  rw [Reader.took, if_neg]
  rintro ⟨h, h' | h'⟩ <;> rw [h] at h' <;> cases h'

theorem Part.takeCard_during (hz : z.lineId = some l) (hr : z.reader = some r) (card : CardState) :
    let p1 : Part := ({ p with queue := q, faults := f } : Part).offerAll (cardChange l c z r.card card)
    (p.during l c z q f).takeCard c card = p.during l c { z with reader := some (r.took card (p.line l)) } p1.queue p1.faults := by
  intro p1
  by_cases hcard : r.card = card
  · have hsame : (p.during l c z q f).takeCard c card = p.during l c z q f := by
      simp only [Part.takeCard, Part.ctx_during, hr]
      exact if_pos hcard
    have hp1 : p1 = { p with queue := q, faults := f } := by
      show Part.offerAll _ (cardChange l c z r.card card) = _
      rw [cardChange, if_pos hcard]
      rfl
    rw [hsame, hp1, ← hcard, Reader.took_same, ← hr]
  · have hchange : (p.during l c z q f).takeCard c card =
        (((p.during l c z q f).modCtx c fun x => x.modReader fun r => { r with card := card }).offerAll (cardChange l c z r.card card)).modCtx c
          fun x => x.modReader fun r' =>
            if cardEnters r.card card then { r' with capture := r'.capture.map fun u => u.begin { p.line l with inSlot := none } } else r' := by
      simp only [Part.takeCard, Part.ctx_during, hr, hz, Part.lineOf_during hz, cardChange]
      rw [if_neg hcard, if_neg hcard]
      rfl
    rw [hchange, Part.modCtx_during, Context.modReader_eq hr, Part.offerAll_during, Part.modCtx_during, Context.modReader_eq rfl, Reader.took]
    by_cases henter : Enters r.card card
    · rw [if_pos henter, if_pos ((cardEnters_iff ..).mpr henter)]
      rfl
    · rw [if_neg henter, if_neg fun h => henter ((cardEnters_iff ..).mp h)]

variable {h : Chip}

/-- The power-seen flag has no part in the results of a session's end. -/
theorem Part.cutSession_seen (hz : z.lineId = some l) (hc : z.chip = some h) (hops : OpsOk q.reservations c z) (b : Bool) (o : StartOutcome)
    (st : ExchangeStatus) (r : EndReason) : (p.during l c { z with chip := some { h with powerSeen := b } } q f).cutSession c o st r =
      p.during l c { z with holder := if h.session = .off then z.holder else none, chip := some (Chip.cut { h with powerSeen := b } o r) }
        (endedSession c (some l) h o st r q) f := by
  have hsame : CtxOps z { z with chip := some { h with powerSeen := b } } := by
    rw [← Context.modChip_eq hc fun h => { h with powerSeen := b }]
    exact .modChip fun _ _ => rfl
  exact Part.cutSession_during (z := { z with chip := some { h with powerSeen := b } }) hz rfl (OpsOk.of_ctxOps hsame hops) o st r

/-- What the card makes of the session (R121, R129, R130). -/
theorem Part.chipCard_during (hz : z.lineId = some l) (hc : z.chip = some h) (hops : OpsOk q.reservations c z) (card : CardState) (power : Bool) :
    let seen := h.seePower power
    (p.during l c z q f).chipCard c card power =
      if card = .noCard then
        if h.session = .off then p.during l c { z with chip := some { seen with wantedLatch := false } } q f
        else p.during l c { z with holder := none, chip := some (seen.cut .cardRemoved .cardRemoved) }
          (endedSession c (some l) h .cardRemoved .cardRemoved .cardRemoved q) f
      else if power = true then p.during l c { z with chip := some seen } q f
      else if h.powerSeen = true then
        if h.session = .off then p.during l c { z with chip := some { seen with powerSeen := false } } q f
        else p.during l c { z with holder := none, chip := some (Chip.cut { seen with powerSeen := false } .powerLost .powerLost) }
          (endedSession c (some l) h .powerLost .powerLost .powerLost q) f
      else p.during l c { z with chip := some seen } q f := by
  intro seen
  have hchip : (p.during l c z q f).chipCard c card power =
      let p1 := p.during l c { z with chip := some seen } q f
      if card = .noCard then
        if h.session = .off then p1.modCtx c fun x => x.modChip fun h => { h with wantedLatch := false }
        else p1.cutSession c .cardRemoved .cardRemoved .cardRemoved
      else if power = true then p1
      else if h.powerSeen = true then
        (p1.modCtx c fun x => x.modChip fun h => { h with powerSeen := false }).cutSession c .powerLost .powerLost .powerLost
      else p1 := by
    simp only [Part.chipCard, Part.ctx_during, hc, Part.modCtx_during, Context.modChip_eq hc]
    rfl
  rw [hchip]
  simp only [Part.modCtx_during]
  rw [Context.modChip_eq rfl, Context.modChip_eq rfl]
  by_cases hcard : card = .noCard
  · rw [if_pos hcard, if_pos hcard]
    by_cases hoff : h.session = .off
    · rw [if_pos hoff, if_pos hoff]
    · rw [if_neg hoff, if_neg hoff]
      rw [show seen = _ from h.seePower_eq power, Part.cutSession_seen hz hc hops, if_neg hoff]
  · rw [if_neg hcard, if_neg hcard]
    split
    · rfl
    · split
      · have hseen : { seen with powerSeen := false } = { h with powerSeen := false } := by rw [show seen = _ from h.seePower_eq power]
        rw [hseen, Part.cutSession_seen hz hc hops]
        split
        · rename_i hoff
          simp only [Chip.cut, endedSession, hoff]
        · rfl
      · rfl

end

/-- A session that a card ends by leaving (R129). -/
theorem Chip.cut_cardRemoved {h : Chip} (hs : h.session ≠ .off) : h.cut .cardRemoved .cardRemoved =
    { h with
      session := .off, owner := none, wantedPower := false, discardLate := true, atr := [], atrWait := none, command := [], unitsSent := 0
      response := [], overrun := false, respTimer := none, wantedLatch := false } := by
  unfold Chip.cut
  split
  · exact absurd ‹_› hs
  all_goals
    simp [Chip.afterFailedStart, Chip.afterSession, Chip.toOff, StartOutcome.leavesLate, StartOutcome.byCause, EndReason.keepsLatch, EndReason.late,
      EndReason.byCause]

/-- A session that a loss of power ends (R130). -/
theorem Chip.cut_powerLost {h : Chip} (hs : h.session ≠ .off) : h.cut .powerLost .powerLost =
    { h with
      session := .off, owner := none, wantedPower := false, atr := [], atrWait := none, command := [], unitsSent := 0
      response := [], overrun := false, respTimer := none, wantedLatch := if h.session = .starting then false else h.wantedLatch
      discardLate := if h.session = .ready then h.discardLate else true } := by
  cases hsession : h.session
  case off => exact absurd hsession hs
  all_goals
    simp [Chip.cut, hsession, Chip.afterFailedStart, Chip.afterSession, Chip.toOff, StartOutcome.leavesLate, StartOutcome.byCause,
      EndReason.keepsLatch, EndReason.late, EndReason.byCause]

/-- The card states a reader reports (R53, R116). -/
theorem readCard_eq_some {drop : DropKind} {code : BitVec 3} {card : CardState}
    (h : (code = 0 ∧ card = .noCard) ∨ (drop = .readerStripe ∧ code = 1 ∧ card = .swiping) ∨
      (drop = .readerHybrid ∧ ((code = 2 ∧ card = .inserted) ∨ (code = 3 ∧ card = .latched)))) (hd : drop ≠ .keypad) :
    readCard drop code.toNat = some card := by
  rcases h with ⟨rfl, rfl⟩ | ⟨rfl, rfl, rfl⟩ | ⟨rfl, ⟨rfl, rfl⟩ | ⟨rfl, rfl⟩⟩
  · cases drop
    case keypad => exact absurd rfl hd
    all_goals rfl
  all_goals rfl

theorem Reader.owner_took (r : Reader) (card : CardState) (ln : Line) :
    (r.took card ln).capture.map (·.owner) = r.capture.map (·.owner) := by
  unfold Reader.took
  split
  · cases r.capture with
    | none => rfl
    | some u =>
      simp only [Option.map_some, Capture.begin_eq]
      split <;> rfl
  · rfl

theorem Part.chipCard_of_none {p : Part} {l : LineId} {c : CtxId} {z : Context} {q : EventQueue} {f : FaultRecord} (hc : z.chip = none)
    (card : CardState) (power : Bool) : (p.during l c z q f).chipCard c card power = p.during l c z q f := by
  simp only [Part.chipCard, Part.ctx_during, hc]

/-- Outside a session, and without contact power, the power-seen flag stays (R121, R130). -/
theorem Chip.seePower_idle {h : Chip} {power : Bool} (hoff : h.session = .off ∨ power = false) : h.seePower power = h :=
  if_neg fun ⟨hp, hs⟩ => hoff.elim hs fun hno => by rw [hno] at hp; cases hp

theorem Chip.seePower_on {h : Chip} {power : Bool} (hs : h.session ≠ .off) :
    h.seePower power = { h with powerSeen := power || h.powerSeen } := by
  rw [Chip.seePower_eq, decide_eq_true hs, Bool.and_true, Bool.or_comm]

theorem track_range {track : BitVec 2} (h : track ≠ 0) : 1 ≤ track.toNat ∧ track.toNat ≤ 3 := by
  revert h track
  decide

theorem readReaderStatus_eq {status : BitVec 2} (h : status ≠ 3) :
    readReaderStatus status.toNat = some (if status = 0 then .ok else if status = 1 then .noData else .lrcBad) := by
  revert h status
  decide

/-- Settles O49: a track unit goes to the capture or the tally, and a card state to reader, capture and session in turn. -/
theorem trackCharacterIsTaken : Obligations.TrackCharacterIsTaken := by
  intro s l i start run pr r hears hstart hsound hs hkind hr c x ln after still y begun none_
  have hz : y.lineId = some l := lineId_heard hears
  have hpr : y.profile = some pr := hears.1.2.2.2.1
  have hry : y.reader = some r := hr
  have hops : OpsOk s.part.queue.reservations c y := opsOk_heard hs l run
  have hkeypad : x.keypad = none := keypad_none_of_reader hsound hears hkind
  have hbegun (u : Capture) : u.begin ln = begun u := Capture.begin_eq u ln
  have htake {kind : BitVec 4} (hne : kind.toNat ≠ 1) (w : Payload) := Part.takeUnit_reader hears.2 (lineId_of_hears hears) (kind_of_hears hears)
    hkind hne w
  have hplain {kind : BitVec 4} {w : Payload} {z : Context} {q : EventQueue} {f : FaultRecord}
      (h : (s.part.slotEvent l run []).takeUnit l run (.received kind.toNat w) =
        { part := s.part.during l run.ctx z q f, faults := [], tail := [] }) (hzp : z.profile = some pr) (hzk : z.keypad = none) :
      ∃ p, after (unitWord kind w) z p ∧ p.queue = q ∧ p.faults = f :=
    settles_plain hears hstart h hzp (notArming_of_keypad_none hzk)
  have hcapture (u : Capture) {g g' : TrackRec → TrackRec} (h : ∀ t, g t = g' t) :
      ({ r with capture := some { u.begin ln with tracks := u.tracks.map g } } : Reader) =
        { r with capture := some { begun u with tracks := u.tracks.map g' } } := by rw [hbegun, funext h]
  have hreader {rd rd' : Reader} (h : rd = rd') :
      ({ part := s.part.during l c { y with reader := some rd } s.part.queue s.part.faults, faults := [], tail := [] } : Ev) =
        { part := s.part.during l c { y with reader := some rd' } s.part.queue s.part.faults, faults := [], tail := [] } := by rw [h]
  refine ⟨fun track parity mid code htrack => ?_, fun track status low htrack hstatus => ?_, fun payload => ?_, fun code latch power low card hcard => ?_⟩
  · intro ch payload take seen r'
    have hunit : (s.part.slotEvent l run []).takeUnit l run (.received (5 : BitVec 4).toNat payload) =
        { part := (s.part.during l c y s.part.queue s.part.faults).trackChar c track.toNat parity ch, faults := [], tail := [] } := by
      refine (htake (by decide) payload).trans ?_
      rw [show readUnit (5 : BitVec 4).toNat payload = .trackChar track.toNat parity ch from readUnit_trackChar ..]
      exact if_pos (track_range htrack)
    rw [Part.trackChar_during hz hry] at hunit
    refine hplain (hunit.trans (hreader ?_)) hpr hkeypad
    show _ = (match r.capture with
      | none => ({ r with seen := seen, discarded := min 255 (r.discarded + 1) } : Reader)
      | some u => { r with capture := some { begun u with tracks := u.tracks.map take } })
    cases r.capture with
    | none => rw [TrackSet.add_eq]
    | some u =>
      refine hcapture u fun t => ?_
      by_cases ht : t.track = track.toNat
      · rw [if_pos ht, TrackRec.takeChar_eq]
        exact (if_neg (not_not_intro ht)).symm
      · rw [if_neg ht]
        exact (if_pos ht).symm
  · intro st take seen r'
    have hunit : (s.part.slotEvent l run []).takeUnit l run (.received (6 : BitVec 4).toNat (track ++ status ++ low)) =
        { part := (s.part.during l c y s.part.queue s.part.faults).trackEnd c track.toNat st, faults := [], tail := [] } := by
      refine (htake (by decide) _).trans ?_
      rw [show readUnit (6 : BitVec 4).toNat (track ++ status ++ low) = .trackEnd track.toNat status.toNat from readUnit_trackEnd ..]
      simp only [Ev.readerUnit, readReaderStatus_eq hstatus]
      exact if_pos (track_range htrack)
    rw [Part.trackEnd_during hz hry] at hunit
    refine hplain (hunit.trans (hreader ?_)) hpr hkeypad
    show _ = (match r.capture with
      | none => ({ r with seen := seen } : Reader)
      | some u => { r with capture := some { begun u with tracks := u.tracks.map take } })
    cases r.capture with
    | none => rw [TrackSet.add_eq]
    | some u =>
      refine hcapture u fun t => ?_
      by_cases ht : t.track = track.toNat
      · rw [if_pos ht, TrackRec.takeEnd_eq]
        by_cases hstatus : t.status.isSome = true
        · rw [if_pos hstatus]
          exact (if_pos (.inr hstatus)).symm
        · rw [if_neg hstatus]
          exact (if_neg fun h => h.elim (fun h => h ht) hstatus).symm
      · rw [if_neg ht]
        exact (if_pos (.inl ht)).symm
  · intro verdict entry
    have hunit : (s.part.slotEvent l run []).takeUnit l run (.received (7 : BitVec 4).toNat payload) =
        { part := (s.part.during l c y s.part.queue s.part.faults).swipeEnd c, faults := [], tail := [] } := htake (by decide) payload
    refine ⟨fun hu => ?_, fun u hu => ?_⟩
    · rw [Part.swipeEnd_during hz hry hu] at hunit
      exact hplain hunit hpr hkeypad
    · have hend : (s.part.during l c y s.part.queue s.part.faults).swipeEnd c =
          (s.part.during l c y s.part.queue s.part.faults).endCapture c .completed := by
        simp only [Part.swipeEnd, Part.ctx_during, hry, hu]
      rw [hend, Part.endCapture_during hz hry hu (hops.capture_mem ((Context.capture_eq hry).trans hu)), captureShown_completed] at hunit
      exact hplain hunit hpr hkeypad
  · intro payload enters r' report cards
    have hread := readCard_eq_some hcard hkind
    have htook : r.took card ln = r' := by
      show Reader.took r card ln = { r with card := card, capture := if enters then r.capture.map begun else r.capture }
      rw [Reader.took, show (fun u : Capture => u.begin ln) = begun from funext hbegun]
    have hunit : (s.part.slotEvent l run []).takeUnit l run (.received (4 : BitVec 4).toNat payload) =
        { part := (((s.part.during l c y s.part.queue s.part.faults).modCtx c fun x => x.modChip (Chip.reports · latch power)).takeCard c card).chipCard c
            card power, faults := [], tail := [] } := by
      refine (htake (by decide) payload).trans ?_
      rw [show readUnit (4 : BitVec 4).toNat payload = .cardState code.toNat latch power from readUnit_cardState ..]
      simp only [Ev.readerUnit, Ev.cardState, hread]
      rfl
    rw [Part.modCtx_during] at hunit
    refine ⟨fun hchip => ?_, fun h hchip => ?_⟩
    · have hsame : y.modChip (Chip.reports · latch power) = y := Context.modChip_same fun k hk => by
        rw [show y.chip = none from hchip] at hk
        cases hk
      have hcards : cardChange l c y r.card card = cards := by
        show (if r.card = card then [] else [_]) = if r.card = card then [] else [_]
        rw [Context.latchPower, show y.chip = none from hchip, hchip]
        rfl
      rw [hsame, Part.takeCard_during hz hry, hcards, htook, Part.chipCard_of_none (by exact hchip)] at hunit
      obtain ⟨p, hp, hq, hf⟩ := hplain hunit hpr hkeypad
      exact ⟨p, hp, hq, hf⟩
    · intro h' off lost ends'
      have hcards : cardChange l c { y with chip := some h' } r.card card = cards := by
        show (if r.card = card then [] else [_]) = if r.card = card then [] else [_]
        rw [hchip]
        rfl
      have hops' : OpsOk (s.part.offerAll cards).queue.reservations c { y with chip := some h', reader := some (r.took card ln) } := by
        rw [Part.reservations_offerAll]
        have hsame : CtxOps y { y with chip := some h', reader := some (r.took card ln) } := by
          refine ⟨rfl, rfl, ?_, ?_, rfl, id⟩
          · rw [Context.capture_eq hry]
            exact r.owner_took card ln
          · rw [show y.chip = some h from hchip]
            rfl
        exact OpsOk.of_ctxOps hsame hops
      rw [Context.modChip_eq (by exact hchip), show h.reports latch power = h' from rfl, Part.takeCard_during (z := { y with chip := some h' }) hz hry] at hunit
      rw [hcards] at hunit
      rw [Part.chipCard_during (z := { y with chip := some h', reader := some (r.took card ln) }) hz rfl hops', htook] at hunit
      have hends {z : Context} {q : EventQueue → EventQueue}
          (h : (s.part.slotEvent l run []).takeUnit l run (.received (4 : BitVec 4).toNat payload) =
            { part := s.part.during l c { z with reader := some r' } (q (s.part.offerAll cards).queue) (s.part.offerAll cards).faults
              faults := [], tail := [] }) (hzp : z.profile = some pr) (hzk : z.keypad = none) : ends' z q := hplain h hzp hzk
      have hseen (hoff : h.session = .off ∨ power = false) : h'.seePower power = h' := Chip.seePower_idle hoff
      refine ⟨fun hcard hs => ?_, fun hcard hs => ?_, fun hcard hp hs => ?_, fun hcard hp hs => ?_, fun hcard hp hw => ?_, fun hcard hp hw hs => ?_,
        fun hcard hp hw hs => ?_⟩
      · rw [if_pos hcard, if_pos (by exact hs), hseen (.inl hs)] at hunit
        exact hends hunit hpr hkeypad
      · rw [if_pos hcard, if_neg (by exact hs), Chip.cut_cardRemoved (by rw [Chip.session_seePower]; exact hs),
          Chip.seePower_on (by exact hs)] at hunit
        exact hends (q := endedSession c (some l) h .cardRemoved .cardRemoved .cardRemoved) hunit hpr hkeypad
      · rw [if_neg hcard, if_pos hp, hseen (.inl hs)] at hunit
        exact hends hunit hpr hkeypad
      · rw [if_neg hcard, if_pos hp, Chip.seePower_on (by exact hs), hp] at hunit
        exact hends hunit hpr hkeypad
      · rw [if_neg hcard, if_neg (by rw [hp]; nofun), if_neg (by rw [show h'.powerSeen = h.powerSeen from rfl, hw]; nofun), hseen (.inr hp)] at hunit
        exact hends hunit hpr hkeypad
      · rw [if_neg hcard, if_neg (by rw [hp]; nofun), if_pos (by exact hw), if_pos (by exact hs), hseen (.inr hp)] at hunit
        exact hends hunit hpr hkeypad
      · rw [if_neg hcard, if_neg (by rw [hp]; nofun), if_pos (by exact hw), if_neg (by exact hs), hseen (.inr hp), Chip.cut_powerLost (by exact hs)] at hunit
        exact hends (q := endedSession c (some l) h .powerLost .powerLost .powerLost) hunit hpr hkeypad

end Sys2Proof.Machine
end

section
/-! PROOFS. The keys of a scan (R71 to R78): debounce, and the press a scan delivers, in the terms of the statements. -/

namespace Sys2Proof.Machine

open Sys2Proof.Safety

/-- A scan of a form, from its unit's payload (R73). -/
def scanOf (form : ScanForm) (w : Payload) : Scan :=
  match form with
  | .opened => scanOpen w
  | .masked => scanMasked w

theorem form_scanOf (form : ScanForm) (w : Payload) : (scanOf form w).form = form := by cases form <;> rfl

theorem raw_scanOf (form : ScanForm) (w : Payload) : (scanOf form w).raw = rawKeys form w := by cases form <;> rfl

theorem multi_scanOf (form : ScanForm) (w : Payload) : (form = .masked ∧ (scanOf form w).multi = true) ↔ form = .masked ∧ w.getLsbD 1 = true := by
  cases form
  case opened => simp
  case masked => rfl

theorem vkey_eq (form : ScanForm) (j : Nat) : form.vkey j = virtualKey form j := by cases form <;> rfl

theorem Keypad.takeForm_eq (k : Keypad) (form : ScanForm) : k.takeForm form = { k with reported := form, keys := keysUnder form k } := by
  unfold Keypad.takeForm keysUnder
  split
  · rename_i h
    rw [← h]
  · cases form <;> rfl

/-! ### Debounce (R76) -/

theorem KeyState.debounce_fst (k : KeyState) (n : Nat) (raw : Bool) : (k.debounce n raw).1 = debounced n k raw := by
  unfold KeyState.debounce debounced
  split
  · rfl
  · split <;> rfl

/-- A key is marked when it went from UP to DOWN. -/
theorem KeyState.debounce_snd (k : KeyState) (n : Nat) (raw : Bool) :
    (k.debounce n raw).2 = true ↔ k.down = false ∧ (debounced n k raw).down = true := by
  unfold KeyState.debounce debounced
  split
  · simp
  · rename_i hne
    split
    · cases hr : raw <;> cases hd : k.down <;> simp_all
    · simp

theorem map_debounceAll (n : Nat) (keys : List KeyState) (raw : List Bool) :
    (debounceAll n keys raw).map (·.1) = List.zipWith (debounced n) keys raw := by
  rw [debounceAll, List.map_zipWith]
  simp only [KeyState.debounce_fst]

/-! ### The press of a scan (R78) -/

theorem filter_of_two {α : Type} {xs : List α} {f : α → Bool} {i j : Nat} {a b : α} (hi : xs[i]? = some a) (hj : xs[j]? = some b) (ha : f a = true)
    (hb : f b = true) (hlt : i < j) : 1 < (xs.filter f).length := by
  have htake : 0 < (xs.take (i + 1)).countP f := List.countP_pos_iff.mpr
    ⟨a, List.mem_iff_getElem?.mpr ⟨i, by rw [List.getElem?_take_of_lt (Nat.lt_succ_self i), hi]⟩, ha⟩
  have hdrop : 0 < (xs.drop (i + 1)).countP f := List.countP_pos_iff.mpr
    ⟨b, List.mem_iff_getElem?.mpr ⟨j - (i + 1), by rw [List.getElem?_drop, Nat.add_sub_of_le hlt, hj]⟩, hb⟩
  rw [← List.countP_eq_length_filter, ← List.take_append_drop (i + 1) xs, List.countP_append]
  omega

/-- Of a list in which one entry only has a property, that entry has one place. -/
theorem index_unique {α : Type} {xs : List α} {f : α → Bool} (h : (xs.filter f).length = 1) {i j : Nat} {a b : α} (hi : xs[i]? = some a)
    (hj : xs[j]? = some b) (ha : f a = true) (hb : f b = true) : i = j := by
  rcases Nat.lt_trichotomy i j with hlt | heq | hlt
  · exact absurd h (Nat.ne_of_gt (filter_of_two hi hj ha hb hlt))
  · exact heq
  · exact absurd h (Nat.ne_of_gt (filter_of_two hj hi hb ha hlt))

theorem getElem?_zipWith_bind {α β γ : Type} (g : α → β → γ) (as : List α) (bs : List β) (j : Nat) :
    (List.zipWith g as bs)[j]? = (as[j]?).bind fun a => (bs[j]?).map (g a) := by
  rw [List.getElem?_zipWith]
  cases as[j]? with
  | none => rfl
  | some a => cases bs[j]? <;> rfl

section
variable {form : ScanForm} {k : Keypad} {w : Payload}

/-- What debounce makes of each key of a scan, with the mark of those that went DOWN. -/
def pressedKeys (form : ScanForm) (k : Keypad) (w : Payload) : List (KeyState × Bool) := debounceAll k.n (keysUnder form k) (rawKeys form w)

theorem map_pressedKeys : (pressedKeys form k w).map (·.1) = scanned form k w := map_debounceAll ..

theorem countP_pressedKeys : (pressedKeys form k w).countP (fun x => x.1.down) = ((scanned form k w).filter (·.down)).length := by
  rw [← map_pressedKeys, ← List.countP_eq_length_filter, List.countP_map]
  rfl

/-- The mark at a place: the key was UP, and is DOWN. -/
theorem pressedKeys_mark {j : Nat} : (∃ x, (pressedKeys form k w)[j]? = some x ∧ x.2 = true) ↔
    (∃ a, (keysUnder form k)[j]? = some a ∧ a.down = false) ∧ ∃ b, (scanned form k w)[j]? = some b ∧ b.down = true := by
  have hpressed : (pressedKeys form k w)[j]? = _ := getElem?_zipWith_bind ..
  have hscanned : (scanned form k w)[j]? = _ := getElem?_zipWith_bind ..
  rw [hpressed, hscanned]
  cases (keysUnder form k)[j]? with
  | none => simp
  | some a =>
    cases (rawKeys form w)[j]? with
    | none => simp
    | some r => simp [KeyState.debounce_snd]

theorem deliveredPress_of_pressed {j : Nat} (h : Pressed form k w j) :
    deliveredPress form (scanOf form w).multi (pressedKeys form k w) = some (virtualKey form j) := by
  obtain ⟨ha, hb, hone, hmulti⟩ := h
  obtain ⟨x, hx, hmark⟩ := pressedKeys_mark.mpr ⟨ha, hb⟩
  have hfind : (pressedKeys form k w).findIdx? (·.2) = some j := by
    obtain ⟨hlt, hget⟩ := List.getElem?_eq_some_iff.mp hx
    refine List.findIdx?_eq_some_iff_getElem.mpr ⟨hlt, by rw [hget]; exact hmark, fun i hi hm => ?_⟩
    obtain ⟨-, b', hb', hdown'⟩ := pressedKeys_mark.mp ⟨_, List.getElem?_eq_getElem (Nat.lt_trans hi hlt), hm⟩
    obtain ⟨b, hb, hdown⟩ := hb
    exact absurd (index_unique hone hb' hb hdown' hdown) (Nat.ne_of_lt hi)
  rw [deliveredPress, if_pos ⟨countP_pressedKeys.trans hone, fun h => hmulti ((multi_scanOf form w).mp h)⟩, hfind, Option.map_some, vkey_eq]

theorem deliveredPress_of_none (h : ∀ j, ¬ Pressed form k w j) : deliveredPress form (scanOf form w).multi (pressedKeys form k w) = none := by
  rw [deliveredPress]
  split
  · rename_i hone
    cases hfind : (pressedKeys form k w).findIdx? (·.2) with
    | none => rfl
    | some j =>
      obtain ⟨hlt, hmark, -⟩ := List.findIdx?_eq_some_iff_getElem.mp hfind
      obtain ⟨ha, hb⟩ := pressedKeys_mark.mp ⟨_, List.getElem?_eq_getElem hlt, hmark⟩
      exact absurd ⟨ha, hb, countP_pressedKeys.symm.trans hone.1, fun hm => hone.2 ((multi_scanOf form w).mpr hm)⟩ (h j)
  · rfl

end

end Sys2Proof.Machine
end

section
/-! PROOFS. A scan at an ATTACHED keypad (R54, R73 to R80, R86, R87a), and the arming count (R87), within the event of a slot completion. -/

namespace Sys2Proof.Machine

open Sys2Proof.Safety

/-- A keypad context whose scan of this form has been taken but not read (R54, R74). -/
def Context.unread (z : Context) (kp : Keypad) (form : ScanForm) : Context :=
  { z with lateBlock := false, keypad := some { kp with reported := form, keys := keysUnder form kp } }

/-- The same with the keys debounced, and with this entry (R76). -/
def Context.read (z : Context) (kp : Keypad) (form : ScanForm) (w : Payload) (o : Option Entry) : Context :=
  { z with lateBlock := false, keypad := some { kp with reported := form, keys := scanned form kp w, entry := o } }

section
variable {p : Part} {l : LineId} {c : CtxId} {z : Context} {q : EventQueue} {f : FaultRecord} {kp : Keypad} {form : ScanForm} {w : Payload}
  (hkp : z.keypad = some kp)
include hkp

/-- The form is taken first (R54, R74). -/
theorem Part.takeForm_during : ((p.during l c z q f).modCtx c fun x => { x with lateBlock := false }.modKeypad fun k => k.takeForm form) =
    p.during l c (z.unread kp form) q f := by
  rw [Part.modCtx_during, Context.modKeypad, hkp, Option.map_some, Keypad.takeForm_eq]
  rfl

omit hkp in
/-- Debounce and delivery (R75, steps 4 to 6). -/
theorem Part.debounceScan_during {o : Option Entry} (hz : z.keypad = some { kp with reported := form, keys := keysUnder form kp, entry := o })
    (hlate : z.lateBlock = false) : (p.during l c z q f).debounceScan c (scanOf form w) =
      match deliveredPress form (scanOf form w).multi (pressedKeys form kp w) with
      | some v => (p.during l c (z.read kp form w o) q f).deliver c form v
      | none => p.during l c (z.read kp form w o) q f := by
  have hread : (p.during l c z q f).modCtx c (fun x => x.modKeypad fun k => { k with keys := (pressedKeys form kp w).map (·.1) }) =
      p.during l c (z.read kp form w o) q f := by
    rw [Part.modCtx_during, Context.modKeypad, hz, Option.map_some, map_pressedKeys, Context.read, ← hlate]
  simp only [Part.debounceScan, Part.ctx_during, hz, raw_scanOf, form_scanOf]
  rw [← hread]
  rfl

/-- With no entry the scan is read as it comes (R75). -/
theorem Ev.scan_of_none (he : kp.entry = none) : Ev.scan { part := p.during l c z q f, faults := [], tail := [] } c (scanOf form w) =
    { part := (p.during l c (z.unread kp form) q f).debounceScan c (scanOf form w), faults := [], tail := [] } := by
  have hsecure : z.secureInForce = false := by rw [Context.secureInForce, Context.entry_eq hkp, he]
  have hentry : (z.unread kp form).entry = none := he
  simp only [Ev.scan, Ev.map, Part.ctx_during, hsecure, form_scanOf, Part.takeForm_during hkp, Ev.reportForm, hentry]
  rfl

/-- The entry once a scan of this form has been reported to it (R86). -/
def Entry.reported (e : Entry) (ln : Line) : Entry :=
  if e.state = .arming ∧ e.kind = .secure
  then { e with state := .collecting, arming := none, firstKey := timerFrames ln e.firstMs } else e

/-- The context with its scan taken and reported to its entry. -/
def Context.reportedTo (z : Context) (kp : Keypad) (form : ScanForm) (e : Entry) : Context :=
  { z.unread kp form with keypad := some { kp with reported := form, keys := keysUnder form kp, entry := some e } }

omit hkp in
theorem Context.reportedTo_self {e : Entry} (he : kp.entry = some e) : z.reportedTo kp form e = z.unread kp form := by
  rw [Context.reportedTo, ← he]
  rfl

omit hkp in
theorem Ev.reportForm_of_read {e : Entry} (hz : z.lineId = some l) (he : kp.entry = some e) (hform : e.kind = .opened ∨ form = .masked) :
    Ev.reportForm { part := p.during l c (z.unread kp form) q f, faults := [], tail := [] } c form =
      { part := p.during l c (z.reportedTo kp form (e.reported (p.line l))) q f, faults := [], tail := [] } := by
  have hentry : (z.unread kp form).entry = some e := he
  have hlid : (z.unread kp form).lineId = some l := hz
  by_cases hsecure : e.kind = .secure
  · obtain rfl : form = .masked := hform.resolve_left (by rw [hsecure]; nofun)
    by_cases harm : e.state = .arming
    · have hput : (z.unread kp .masked).setEntry (some (e.armed { p.line l with inSlot := none })) =
          z.reportedTo kp .masked (e.reported (p.line l)) := by
        rw [Entry.reported, if_pos ⟨harm, hsecure⟩]
        rfl
      simp only [Ev.reportForm, Part.ctx_during, hentry, if_pos hsecure, harm, Ev.map, Part.modCtx_during, Part.lineOf_during hlid, hput]
    · have hmatch : Ev.reportForm { part := p.during l c (z.unread kp .masked) q f, faults := [], tail := [] } c .masked =
          { part := p.during l c (z.unread kp .masked) q f, faults := [], tail := [] } := by
        cases hs : e.state
        case arming => exact absurd hs harm
        all_goals simp only [Ev.reportForm, Part.ctx_during, hentry, if_pos hsecure, hs]
      rw [hmatch, Entry.reported, if_neg fun h => harm h.1, Context.reportedTo_self he]
  · rw [Entry.reported, if_neg fun h => hsecure h.2, Context.reportedTo_self he]
    simp only [Ev.reportForm, Part.ctx_during, hentry, if_neg hsecure]

/-- A scan that no guard stops (R75, R86). -/
theorem Ev.scan_of_read {e : Entry} (hz : z.lineId = some l) (he : kp.entry = some e) (hform : e.kind = .opened ∨ form = .masked) :
    Ev.scan { part := p.during l c z q f, faults := [], tail := [] } c (scanOf form w) =
      { part := (p.during l c (z.reportedTo kp form (e.reported (p.line l))) q f).debounceScan c (scanOf form w), faults := [], tail := [] } := by
  have hsecure : z.secureInForce = (e.kind == .secure) := by rw [Context.secureInForce, Context.entry_eq hkp, he]
  have hguard : ¬ (z.secureInForce = true ∧ form = .opened) := by
    rw [hsecure]
    rcases hform with h | h <;> rw [h] <;> exact nofun
  simp only [Ev.scan, Ev.map, Part.ctx_during, form_scanOf, Part.takeForm_during hkp, Ev.reportForm_of_read hz he hform]
  exact if_neg hguard

/-- A SCAN_OPEN in a SECURE entry is not read (R75, R87a). -/
theorem Ev.scan_of_guarded {e : Entry} (he : kp.entry = some e) (hsecure : e.kind = .secure) :
    Ev.scan { part := p.during l c z q f, faults := [], tail := [] } c (scanOf .opened w) =
      if e.state = .arming then { part := p.during l c (z.unread kp .opened) q f, faults := [], tail := [] }
      else Ev.unmasked { part := p.during l c (z.unread kp .opened) q f, faults := [], tail := [] } c .openScan := by
  have hentry : (z.unread kp .opened).entry = some e := he
  have hforce : z.secureInForce = true := by
    rw [Context.secureInForce, Context.entry_eq hkp, he]
    exact beq_iff_eq.mpr hsecure
  have hreport : Ev.reportForm { part := p.during l c (z.unread kp .opened) q f, faults := [], tail := [] } c .opened =
      if e.state = .arming then { part := p.during l c (z.unread kp .opened) q f, faults := [], tail := [] }
      else Ev.unmasked { part := p.during l c (z.unread kp .opened) q f, faults := [], tail := [] } c .openScan := by
    simp only [Ev.reportForm, Part.ctx_during, hentry, if_pos hsecure]
    cases e.state <;> rfl
  simp only [Ev.scan, Ev.map, Part.ctx_during, form_scanOf, Part.takeForm_during hkp, hreport]
  exact if_pos ⟨hforce, trivial⟩

end

/-! ### KEYPAD_UNMASKED, and the arming count (R87, R87a) -/

/-- The result of an entry that its keypad's form ends (R87, R101). -/
def unmaskedResult (e : Entry) (why : Unmask) : Body :=
  .entry { kind := e.kind, outcome := .keypadUnmasked, endKey := none, detail := some (.unmask why), digits := none, count := e.count
           ignored := e.ignored, block := none, blockBytes := none }

/-- The keypad context after its entry has ended so (R98, R99). -/
def Context.unmaskedFrom (z : Context) (e : Entry) : Context :=
  { z with
    holder := none, keypad := z.keypad.map fun k => { k with wanted := .opened, entry := none }
    lateBlock := z.lateBlock || decide (e.state = .closing)
    controls := if e.state = .closing then
      (if .finishBlock ∈ z.controls then removeLast (· == .finishBlock) z.controls else joinControl .abandonBlock z.controls)
      else z.controls }

section
variable {p : Part} {l : LineId} {c : CtxId} {z : Context} {q : EventQueue} {f : FaultRecord} {fs : List Rec} {e : Entry}

theorem Context.afterEntry_unmasked (z : Context) (e : Entry) (why : Unmask) :
    z.afterEntry e { outcome := .keypadUnmasked, endKey := none, detail := some (.unmask why) } = z.unmaskedFrom e := by
  simp only [Context.afterEntry, Context.unmaskedFrom, EntryEnding.abandons, EntryEnding.leavesBlock, and_true, Bool.and_true, abandonBlock_eq]

theorem Ev.unmasked_during (hz : z.lineId = some l) (he : z.entry = some e) (hk : e.kind = .secure) (hres : .entry c ∈ q.reservations) (why : Unmask) :
    Ev.unmasked { part := p.during l c z q f, faults := fs, tail := [] } c why =
      { part := p.during l c (z.unmaskedFrom e) (converted q (.entry c) (some e.owner) (some c) (some l) (unmaskedResult e why))
          (recordAll f [slotFault l c (p.line l) .keypadUnmasked (some (.unmask why))]).1
        faults := fs ++ (recordAll f [slotFault l c (p.line l) .keypadUnmasked (some (.unmask why))]).2, tail := [] } := by
  have hresult : Body.entry (e.result { outcome := .keypadUnmasked, endKey := none, detail := some (.unmask why) }) = unmaskedResult e why := by
    rw [Entry.result_eq e _ (.inl (by simp)) (by simp), unmaskedResult]
    simp [hk]
  simp only [Ev.unmasked, Ev.map]
  rw [Part.endEntry_during hz he hres, Context.afterEntry_unmasked, hresult]
  rw [Ev.detectAt_during (show (z.unmaskedFrom e).lineId = some l from hz)]

/-- The context with its entry's arming count at n. -/
def Context.armedAt (z : Context) (e : Entry) (n : Nat) : Context :=
  { z with keypad := z.keypad.map fun k => { k with entry := some { e with arming := some n } } }

section
variable {run : SlotRun} (he : z.entry = some e) (harm : e.state = .arming)
include he harm

/-- The count starts at the slot that carried the SET_FORM of the entry (R87, log 24). -/
theorem Ev.stepArming_start (hn : e.arming = none) :
    Ev.stepArming { part := p.during l run.ctx z q f, faults := fs, tail := [] } run =
      { part := p.during l run.ctx (if run.forEntry = true then z.armedAt e 0 else z) q f, faults := fs, tail := [] } := by
  have hstep : Ev.stepArming { part := p.during l run.ctx z q f, faults := fs, tail := [] } run =
      if run.forEntry = true then { part := p.during l run.ctx (z.armedAt e 0) q f, faults := fs, tail := [] }
      else { part := p.during l run.ctx z q f, faults := fs, tail := [] } := by
    simp only [Ev.stepArming, Part.ctx_during, he, if_pos harm, hn, Ev.map, Part.modCtx_during] <;> rfl
  rw [hstep]
  split <;> rfl

/-- The count goes up, and at its limit the entry ends (R87). -/
theorem Ev.stepArming_next {n : Nat} (hn : e.arming = some n) :
    Ev.stepArming { part := p.during l run.ctx z q f, faults := fs, tail := [] } run =
      if 8 ≤ n + 1 then Ev.unmasked { part := p.during l run.ctx (z.armedAt e (n + 1)) q f, faults := fs, tail := [] } run.ctx .armingLimit
      else { part := p.during l run.ctx (z.armedAt e (n + 1)) q f, faults := fs, tail := [] } := by
  simp only [Ev.stepArming, Part.ctx_during, he, if_pos harm, hn, Ev.map, Part.modCtx_during, Config.armingLimit] <;> rfl

omit harm in
theorem Context.entry_armedAt (n : Nat) : (z.armedAt e n).entry = some { e with arming := some n } := by
  obtain ⟨k, hk, -⟩ := Context.keypad_of_entry he
  simp [Context.entry, Context.armedAt, hk]

omit he harm in
theorem Context.unmaskedFrom_armedAt (n : Nat) : (z.armedAt e n).unmaskedFrom { e with arming := some n } = z.unmaskedFrom e := by
  simp only [Context.unmaskedFrom, Context.armedAt, Option.map_map]
  rfl

end

end

/-! ### A completion that leaves a SECURE entry in ARMING (R87) -/

section
variable {s : State} {l : LineId} {i : Nat} {run : SlotRun} {pr : Profile} {up : Upstream}

/-- The entry of context z ends KEYPAD_UNMASKED in this slot completion, after the detections `early`. -/
abbrev EndsUnmasked (s : State) (l : LineId) (i : Nat) (run : SlotRun) (up : Upstream) (z : Context) (e : Entry) (why : Unmask)
    (early : List Detection) : Prop :=
  ∃ p, Settles s l run.ctx i up (z.unmaskedFrom e) p ∧
    EventRuns early (converted s.part.queue (.entry run.ctx) (some e.owner) (some run.ctx) (some l) (unmaskedResult e why)) []
      [slotFault l run.ctx (s.part.line l) .keypadUnmasked (some (.unmask why))] [] s.part p

/-- The slot completion counts for the SECURE entry of context z. -/
abbrev CountsArming (s : State) (l : LineId) (i : Nat) (run : SlotRun) (up : Upstream) (z : Context) (e : Entry) (early : List Detection) : Prop :=
  (e.arming = none → ∃ p, Settles s l run.ctx i up (if run.forEntry = true then z.armedAt e 0 else z) p ∧ EventEnds early [] s.part p) ∧
  ∀ n, e.arming = some n →
    (n < 7 → ∃ p, Settles s l run.ctx i up (z.armedAt e (n + 1)) p ∧ EventEnds early [] s.part p) ∧
    (7 ≤ n → EndsUnmasked s l i run up z e .armingLimit early)

theorem endsUnmasked_of_finish (hslot : SlotEnds s l i run pr) {z : Context} {e : Entry} {why : Unmask} {early : List Detection}
    (h : s.part.completeSlot l run (classify up) = Ev.finish
      { part := s.part.during l run.ctx (z.unmaskedFrom e)
          (converted s.part.queue (.entry run.ctx) (some e.owner) (some run.ctx) (some l) (unmaskedResult e why))
          (recordAll (recordAll s.part.faults early).1 [slotFault l run.ctx (s.part.line l) .keypadUnmasked (some (.unmask why))]).1
        faults := (recordAll s.part.faults early).2 ++
          (recordAll (recordAll s.part.faults early).1 [slotFault l run.ctx (s.part.line l) .keypadUnmasked (some (.unmask why))]).2
        tail := [] }) : EndsUnmasked s l i run up z e why early := by
  obtain ⟨p, hp, hoffered⟩ := settles_of_finish hslot h
  exact ⟨p, hp, offered_congr (by rfl) (by rfl) hoffered⟩

theorem countsArming_of_take (hslot : SlotEnds s l i run pr) {early early' : List Detection} {z : Context} {e : Entry}
    (hearly : (s.part.slotEvent l run []).damagedUnit run (classify up) = s.part.slotEvent l run early')
    (htake : (s.part.slotEvent l run early').takeUnit l run (classify up) =
      { part := s.part.during l run.ctx z s.part.queue (recordAll s.part.faults early).1, faults := (recordAll s.part.faults early).2, tail := [] })
    (hz : z.profile = some pr) (hsession : z.session ≠ .sending) (he : z.entry = some e) (hk : e.kind = .secure) (harm : e.state = .arming)
    (hres : .entry run.ctx ∈ s.part.queue.reservations) : CountsArming s l i run up z e early := by
  have hl := hslot.2.2.2.2
  have hlid (n : Nat) : (z.armedAt e n).lineId = some l := by
    show z.lineId = some l
    rw [Context.lineId, hz, Option.map_some, hl]
  have hcomplete := Part.completeSlot_eq hearly htake hz hl
  rw [streamed_of_session hsession] at hcomplete
  refine ⟨fun hn => ?_, fun n hn => ⟨fun hlt => ?_, fun hge => ?_⟩⟩
  · rw [Ev.stepArming_start he harm hn] at hcomplete
    exact settles_of_finish hslot hcomplete
  · rw [Ev.stepArming_next he harm hn, if_neg (by omega)] at hcomplete
    exact settles_of_finish hslot hcomplete
  · rw [Ev.stepArming_next he harm hn, if_pos (by omega),
      Ev.unmasked_during (e := { e with arming := some (n + 1) }) (hlid _) (Context.entry_armedAt he _) hk hres, Context.unmaskedFrom_armedAt] at hcomplete
    exact endsUnmasked_of_finish hslot hcomplete

end

end Sys2Proof.Machine
end

section
/-! PROOFS. The scan of an ATTACHED keypad (O48): delivery of its press (R79, R80), and every completion that counts for a SECURE entry in ARMING. -/

namespace Sys2Proof.Machine

open Sys2Proof.Safety

/-! ### Delivery -/

section
variable {p : Part} {l : LineId} {c : CtxId} {z : Context} {q : EventQueue} {f : FaultRecord} {e : Entry}

/-- A press takes an entry no further than to its end or to CLOSING (R88 to R91, R94). -/
theorem Part.takePress_during (hz : z.lineId = some l) {k : Keypad} (hk : z.keypad = some k) (he : k.entry = some e) (hs : e.state ≠ .arming)
    (hres : .entry c ∈ q.reservations) (v : VKey) : ∃ z' q', (p.during l c z q f).takePress c e v = p.during l c z' q' f ∧
      z'.profile = z.profile ∧ z'.chip = z.chip ∧ NotArming z' := by
  have hput (e' : Entry) (hs' : e'.state = e.state) : ∃ z' q', ((p.during l c z q f).modCtx c fun x => x.setEntry (some e')) = p.during l c z' q' f ∧
      z'.profile = z.profile ∧ z'.chip = z.chip ∧ NotArming z' := by
    refine ⟨_, q, Part.modCtx_during _, rfl, rfl, fun e'' he'' => ?_⟩
    rw [Context.setEntry_eq hk] at he''
    obtain rfl : e' = e'' := Option.some.inj he''
    rw [hs']
    exact hs
  have hend (o : EntryEnding) : ∃ z' q', (p.during l c z q f).endEntry c o = p.during l c z' q' f ∧
      z'.profile = z.profile ∧ z'.chip = z.chip ∧ NotArming z' := by
    refine ⟨_, _, Part.endEntry_during hz ((Context.entry_eq hk).trans he) hres o, rfl, rfl, fun e'' he'' => ?_⟩
    rw [Context.afterEntry_eq hk] at he''
    cases he''
  unfold Part.takePress
  cases v with
  | digit =>
    refine hput _ ?_
    unfold Entry.takeMasked
    split <;> rfl
  | key n =>
    simp only
    split
    · refine hput _ ?_
      unfold Entry.takeDigit
      split <;> rfl
    split
    · refine hput _ ?_
      unfold Entry.takeBack
      split
      · rfl
      · split <;> rfl
    split
    · exact hput _ rfl
    split
    · exact hend _
    split
    · cases e.kind
      · exact hend _
      · refine ⟨_, q, Part.modCtx_during _, rfl, rfl, fun e'' he'' => ?_⟩
        simp only [Context.setEntry_eq hk] at he''
        obtain rfl : e.close _ _ = e'' := Option.some.inj he''
        exact nofun
    · exact hput _ rfl

/-- With no holder a KEY notice tells of the press (R79, R80). -/
theorem Part.deliver_of_none (hz : z.lineId = some l) (hholder : z.holder = none) (form : ScanForm) (v : VKey) :
    (p.during l c z q f).deliver c form v = (p.during l c z q f).offer (.of (.key form v) none (some c) (some l)) := by
  simp only [Part.deliver, Part.ctx_during, hholder, Part.keyNotice, hz]

/-- An entry in COLLECTING takes the press, with a KEY notice under echo (R79, R80). -/
theorem Part.deliver_collecting (hholder : z.holder = some e.owner) (he : z.entry = some e) (hs : e.state = .collecting)
    (form : ScanForm) (v : VKey) (hz : z.lineId = some l) :
    (p.during l c z q f).deliver c form v =
      if e.echo = true then ((p.during l c z q f).takePress c e v).offer (.of (.key form v) (some e.owner) (some c) (some l))
      else (p.during l c z q f).takePress c e v := by
  simp only [Part.deliver, Part.ctx_during, hholder, he, hs, Part.keyNotice, hz]

/-- In CLOSING the press is dropped (R79). -/
theorem Part.deliver_closed (hholder : z.holder = some e.owner) (he : z.entry = some e) (hs : e.state ≠ .collecting) (form : ScanForm) (v : VKey) :
    (p.during l c z q f).deliver c form v = p.during l c z q f := by
  cases hstate : e.state
  case collecting => exact absurd hstate hs
  all_goals simp only [Part.deliver, Part.ctx_during, hholder, he, hstate]

theorem Part.during_eq_setCtx (p : Part) (l : LineId) (c : CtxId) (z : Context) :
    p.during l c z p.queue p.faults = (p.setLine l { p.line l with inSlot := none }).setCtx c z := by cases l <;> rfl

end

theorem Context.read_unread (z : Context) (kp : Keypad) (form : ScanForm) (w : Payload) (o : Option Entry) :
    (z.unread kp form).read kp form w o = z.read kp form w o := rfl

theorem Context.read_reportedTo (z : Context) (kp : Keypad) (form : ScanForm) (e : Entry) (w : Payload) (o : Option Entry) :
    (z.reportedTo kp form e).read kp form w o = z.read kp form w o := rfl

/-! ### The end of a slot with a scan -/

/-- The kind code of a scan of a form (R170). -/
def scanCode : ScanForm → BitVec 4
  | .opened => 2
  | .masked => 3

section
variable {s : State} {l : LineId} {i start : Nat} {run : SlotRun} {pr : Profile}

theorem takeUnit_scan (hears : Hears s l i run pr) (hk : pr.kind = .keypad) (form : ScanForm) (w : Payload) :
    (s.part.slotEvent l run []).takeUnit l run (.received (scanCode form).toNat w) = (s.part.heardEvent l run).scan run.ctx (scanOf form w) := by
  have hkind := (kind_of_hears hears).trans (by rw [hk])
  cases form
  · exact Part.takeUnit_keypad hears.2 (lineId_of_hears hears) hkind (by decide) w
  · exact Part.takeUnit_keypad hears.2 (lineId_of_hears hears) hkind (by decide) w

/-- The part within this slot completion, with no command of its context to stream and no entry in ARMING. -/
def StreamsNothing (s : State) (l : LineId) (run : SlotRun) (pr : Profile) (P : Part) : Prop :=
  ∃ z q f, P = s.part.during l run.ctx z q f ∧ z.profile = some pr ∧ z.chip = none ∧ NotArming z

theorem StreamsNothing.offer {P : Part} (h : StreamsNothing s l run pr P) (r : Rec) : StreamsNothing s l run pr (P.offer r) := by
  obtain ⟨z, q, f, rfl, hz⟩ := h
  exact ⟨z, _, _, Part.offerAll_during [r], hz⟩

/-- A slot completion whose event leaves the part so, with nothing more to offer. -/
theorem exec_of_take (hears : Hears s l i run pr) (hstart : start < 4) {kind : BitVec 4} {w : Payload} {P : Part}
    (htake : (s.part.slotEvent l run []).takeUnit l run (.received kind.toNat w) = { part := P, faults := [], tail := [] })
    (hP : StreamsNothing s l run pr P) :
    exec (.slotCompletion l i (.unit start 24 (unitWord kind w))) s = .next { s with part := P } := by
  obtain ⟨z, q, f, rfl, hz, hchip, harm⟩ := hP
  obtain ⟨hrun, hi, hdue, -, hl⟩ := hears.1
  have hcls := classify_unitWord hstart kind w
  have hearly : (s.part.slotEvent l run []).damagedUnit run (classify (.unit start 24 (unitWord kind w))) = s.part.slotEvent l run [] :=
    Part.damagedUnit_of_good (by rw [hcls]; exact nofun)
  rw [exec_slotCompletion hrun hi hdue, Part.completeSlot_eq hearly (by rw [hcls]; exact htake) hz hl,
    streamed_of_session (by rw [Context.session_none hchip]; nofun), Ev.stepArming_during harm]
  rfl

/-! ### A keypad's slot completion, of a sound part -/

theorem capture_none_of_keypad (hsound : AttachSound s) (hears : Hears s l i run pr) (hk : pr.kind = .keypad) :
    (s.part.ctx run.ctx).capture = none := by
  obtain ⟨-, -, hreader, -⟩ := hsound run.ctx
  rw [kind_of_hears hears, hk] at hreader
  have hnone : (s.part.ctx run.ctx).reader = none :=
    Option.not_isSome_iff_eq_none.mp fun h => by rcases hreader.mp h with h | h <;> cases h
  rw [Context.capture, hnone]
  rfl

section
variable {kp : Keypad} {form : ScanForm} {w : Payload} (hears : Hears s l i run pr) (hs : OperationsSound s) (hsound : AttachSound s)
  (hk : pr.kind = .keypad) (hkp : (s.part.ctx run.ctx).keypad = some kp)
include hears hs hsound hk hkp

omit hs hkp in
theorem streamsNothing_read {o : Option Entry} (harm : ∀ e, o = some e → e.state ≠ .arming) :
    StreamsNothing s l run pr
      (s.part.during l run.ctx ((heard (s.part.line l) run.unit (s.part.ctx run.ctx)).read kp form w o) s.part.queue s.part.faults) :=
  ⟨_, _, _, rfl, hears.1.2.2.2.1, chip_none_of_keypad hsound hears (by rw [hk]; nofun), fun e he => harm e he⟩

/-- A scan with no entry (R75, R79): its press makes a KEY notice. -/
theorem scan_without_entry (hstart : start < 4) (he : kp.entry = none) :
    let after := s.part.during l run.ctx ((heard (s.part.line l) run.unit (s.part.ctx run.ctx)).read kp form w none) s.part.queue s.part.faults
    (∀ j, Pressed form kp w j → exec (.slotCompletion l i (.unit start 24 (unitWord (scanCode form) w))) s =
      .next { s with part := after.offer (.of (.key form (virtualKey form j)) none (some run.ctx) (some l)) }) ∧
    ((∀ j, ¬ Pressed form kp w j) → exec (.slotCompletion l i (.unit start 24 (unitWord (scanCode form) w))) s = .next { s with part := after }) := by
  intro after
  have hentry : (s.part.ctx run.ctx).entry = none := (Context.entry_eq hkp).trans he
  have hholder : (s.part.ctx run.ctx).holder = none := by
    refine (opsOk_of_sound hs run.ctx).holder_none.mpr ⟨hentry, ?_, ?_⟩
    · exact capture_none_of_keypad hsound hears hk
    · rw [Context.session_none (chip_none_of_keypad hsound hears (by rw [hk]; nofun))]
  have hafter := streamsNothing_read (kp := kp) (form := form) (w := w) (o := none) hears hsound hk nofun
  have hread : (s.part.slotEvent l run []).takeUnit l run (.received (scanCode form).toNat w) = { part := _, faults := [], tail := [] } :=
    (takeUnit_scan hears hk form w).trans (Ev.scan_of_none (by exact hkp) he)
  rw [Part.debounceScan_during (o := none) (kp := kp) (by rw [← he]; rfl) rfl, Context.read_unread] at hread
  refine ⟨fun j hj => ?_, fun hj => ?_⟩
  · rw [deliveredPress_of_pressed hj] at hread
    have hdeliver := Part.deliver_of_none (p := s.part) (z := (heard (s.part.line l) run.unit (s.part.ctx run.ctx)).read kp form w none)
      (q := s.part.queue) (f := s.part.faults) (c := run.ctx) (lineId_of_hears hears) hholder form (virtualKey form j)
    simp only [hdeliver] at hread
    exact exec_of_take hears hstart hread (hafter.offer _)
  · rw [deliveredPress_of_none hj] at hread
    exact exec_of_take hears hstart hread hafter

/-- A scan that is read, with the entry it was reported to (R75, R79, R80, R86). -/
theorem scan_with_entry (hstart : start < 4) {e : Entry} (he : kp.entry = some e) (hform : e.kind = .opened ∨ form = .masked) :
    let e' := e.reported (s.part.line l)
    let after := s.part.during l run.ctx ((heard (s.part.line l) run.unit (s.part.ctx run.ctx)).read kp form w (some e')) s.part.queue s.part.faults
    ((e'.state ≠ .collecting ∧ e'.state ≠ .arming) ∨ (e'.state = .collecting ∧ ∀ j, ¬ Pressed form kp w j) →
      exec (.slotCompletion l i (.unit start 24 (unitWord (scanCode form) w))) s = .next { s with part := after }) ∧
    (e'.state = .collecting → ∀ j, Pressed form kp w j →
      let q := after.takePress run.ctx e' (virtualKey form j)
      exec (.slotCompletion l i (.unit start 24 (unitWord (scanCode form) w))) s = .next { s with
        part := if e.echo = true then q.offer (.of (.key form (virtualKey form j)) (some e.owner) (some run.ctx) (some l)) else q }) := by
  intro e' after
  have hecho : e'.echo = e.echo := by unfold e' Entry.reported; split <;> rfl
  have howns : e'.owner = e.owner := by unfold e' Entry.reported; split <;> rfl
  have howner : (s.part.ctx run.ctx).holder = some e'.owner := by
    rw [(opsOk_of_sound hs run.ctx).entry_owner e ((Context.entry_eq hkp).trans he), howns]
  have hlid := lineId_heard hears
  have hafter (h : e'.state ≠ .arming) : StreamsNothing s l run pr after :=
    streamsNothing_read hears hsound hk fun e'' he'' => Option.some.inj he'' ▸ h
  have hread : (s.part.slotEvent l run []).takeUnit l run (.received (scanCode form).toNat w) = { part := _, faults := [], tail := [] } :=
    (takeUnit_scan hears hk form w).trans (Ev.scan_of_read (by exact hkp) hlid he hform)
  rw [Part.debounceScan_during (o := some e') (kp := kp) rfl rfl, Context.read_reportedTo] at hread
  refine ⟨fun h => ?_, fun hs' j hj => ?_⟩
  · rcases h with ⟨hclosed, harm⟩ | ⟨hcollecting, hnone⟩
    · refine exec_of_take hears hstart (hread.trans ?_) (hafter harm)
      split
      · rw [Part.deliver_closed (z := (heard (s.part.line l) run.unit (s.part.ctx run.ctx)).read kp form w (some e')) howner rfl hclosed]
      · rfl
    · rw [deliveredPress_of_none hnone] at hread
      exact exec_of_take hears hstart hread (hafter (by rw [hcollecting]; nofun))
  · rw [deliveredPress_of_pressed hj] at hread
    have hpress : StreamsNothing s l run pr (after.takePress run.ctx e' (virtualKey form j)) := by
      obtain ⟨z, q, hz, hpr, hchip, harm⟩ := Part.takePress_during (p := s.part) (f := s.part.faults) (e := e')
        (z := (heard (s.part.line l) run.unit (s.part.ctx run.ctx)).read kp form w (some e')) (by exact hlid) rfl rfl (by rw [hs']; nofun)
        ((opsOk_of_sound hs run.ctx).entry_mem ((Context.entry_eq hkp).trans he)) (virtualKey form j)
      exact ⟨z, q, _, hz, hpr.trans hears.1.2.2.2.1, hchip.trans (chip_none_of_keypad hsound hears (by rw [hk]; nofun)), harm⟩
    refine exec_of_take hears hstart (hread.trans ?_) ?_
    · simp only [Part.deliver_collecting (p := s.part) (q := s.part.queue) (f := s.part.faults) (c := run.ctx) (e := e')
        (z := (heard (s.part.line l) run.unit (s.part.ctx run.ctx)).read kp form w (some e')) howner rfl hs' form (virtualKey form j) hlid, hecho,
        howns] <;> rfl
    · split
      · exact hpress.offer _
      · exact hpress

end

/-! ### What leaves a SECURE entry in ARMING (R87) -/

section
variable {kp : Keypad} {e : Entry} (hears : Hears s l i run pr) (hs : OperationsSound s) (hsound : AttachSound s) (hk : pr.kind = .keypad)
  (hkp : (s.part.ctx run.ctx).keypad = some kp) (he : kp.entry = some e) (hsecure : e.kind = .secure)
include hears hs hsound hk hkp he hsecure

/-- A SCAN_OPEN in COLLECTING or CLOSING (R87a). -/
theorem endsUnmasked_openScan (hstart : start < 4) (harm : e.state ≠ .arming) (w : Payload) :
    EndsUnmasked s l i run (.unit start 24 (unitWord (scanCode .opened) w))
      ((heard (s.part.line l) run.unit (s.part.ctx run.ctx)).unread kp .opened) e .openScan [] := by
  obtain ⟨-, -, -, hpr, hl⟩ := hears.1
  have hcls := classify_unitWord hstart (scanCode .opened) w
  have hearly : (s.part.slotEvent l run []).damagedUnit run (classify (.unit start 24 (unitWord (scanCode .opened) w))) = s.part.slotEvent l run [] :=
    Part.damagedUnit_of_good (by rw [hcls]; exact nofun)
  have hscan := Ev.scan_of_guarded (p := s.part) (l := l) (c := run.ctx) (z := heard (s.part.line l) run.unit (s.part.ctx run.ctx)) (q := s.part.queue)
    (f := s.part.faults) (w := w) hkp he hsecure
  rw [if_neg harm, Ev.unmasked_during (z := (heard (s.part.line l) run.unit (s.part.ctx run.ctx)).unread kp .opened) (lineId_heard hears) he hsecure
    ((opsOk_of_sound hs run.ctx).entry_mem ((Context.entry_eq hkp).trans he))] at hscan
  have hnone : (((heard (s.part.line l) run.unit (s.part.ctx run.ctx)).unread kp .opened).unmaskedFrom e).chip = none :=
    chip_none_of_keypad hsound hears (by rw [hk]; nofun)
  refine endsUnmasked_of_finish hears.1 ?_
  rw [Part.completeSlot_eq hearly (by rw [hcls]; exact (takeUnit_scan hears hk .opened w).trans hscan) (by exact hpr) hl,
    streamed_of_session (by rw [Context.session_none hnone]; nofun), Ev.stepArming_during fun e' he' => by cases he']
  rfl

/-- A received unit that leaves the entry as it was. -/
theorem countsArming_of_received (hstart : start < 4) (harm : e.state = .arming) {kind : BitVec 4} {w : Payload} {early : List Detection} {z : Context}
    (hz : z.profile = some pr) (hchip : z.chip = (s.part.ctx run.ctx).chip) (hentry : z.entry = some e)
    (htake : (s.part.slotEvent l run []).takeUnit l run (.received kind.toNat w) =
      { part := s.part.during l run.ctx z s.part.queue (recordAll s.part.faults early).1, faults := (recordAll s.part.faults early).2, tail := [] }) :
    CountsArming s l i run (.unit start 24 (unitWord kind w)) z e early := by
  have hcls := classify_unitWord hstart kind w
  have hnone : z.chip = none := hchip.trans (chip_none_of_keypad hsound hears (by rw [hk]; nofun))
  exact countsArming_of_take hears.1 (Part.damagedUnit_of_good (by rw [hcls]; exact nofun)) (by rw [hcls]; exact htake) hz
    (by rw [Context.session_none hnone]; nofun) hentry hsecure harm
    ((opsOk_of_sound hs run.ctx).entry_mem ((Context.entry_eq hkp).trans he))

theorem countsArming_openScan (hstart : start < 4) (harm : e.state = .arming) (w : Payload) :
    CountsArming s l i run (.unit start 24 (unitWord (scanCode .opened) w))
      ((heard (s.part.line l) run.unit (s.part.ctx run.ctx)).unread kp .opened) e [] := by
  have hscan := Ev.scan_of_guarded (p := s.part) (l := l) (c := run.ctx) (z := heard (s.part.line l) run.unit (s.part.ctx run.ctx)) (q := s.part.queue)
    (f := s.part.faults) (w := w) hkp he hsecure
  rw [if_pos harm] at hscan
  exact countsArming_of_received hears hs hsound hk hkp he hsecure hstart harm hears.1.2.2.2.1 rfl he
    ((takeUnit_scan hears hk .opened w).trans hscan)

/-- A unit that is discarded quietly (R53, R54). -/
theorem countsArming_quiet (hstart : start < 4) (harm : e.state = .arming) {kind : BitVec 4} (hne : kind ≠ 1)
    (h : Quiet (s.part.ctx run.ctx) .keypad kind.toNat) (w : Payload) :
    CountsArming s l i run (.unit start 24 (unitWord kind w)) (heard (s.part.line l) run.unit (s.part.ctx run.ctx)) e [] :=
  countsArming_of_received hears hs hsound hk hkp he hsecure hstart harm hears.1.2.2.2.1 rfl ((Context.entry_eq hkp).trans he)
    (takeUnit_quiet hsound hears (fun h => hne (BitVec.eq_of_toNat_eq h)) (by rw [hk]; exact h))

/-- A unit that does not fit (R55). -/
theorem countsArming_misfit (hstart : start < 4) (harm : e.state = .arming) {kind : BitVec 4} {w : Payload}
    (htake : (s.part.slotEvent l run []).takeUnit l run (.received kind.toNat w) = (s.part.heardEvent l run).misfit run.ctx kind.toNat) :
    CountsArming s l i run (.unit start 24 (unitWord kind w)) (heard (s.part.line l) run.unit (s.part.ctx run.ctx)) e
      [slotFault l run.ctx (s.part.line l) .streamProtocol (some (.unitCode kind.toNat))] :=
  countsArming_of_received hears hs hsound hk hkp he hsecure hstart harm hears.1.2.2.2.1 rfl ((Context.entry_eq hkp).trans he)
    (htake.trans (Part.misfit_heard (lineId_of_hears hears) _))

/-- A HELLO of origin ANSWER (R49). -/
theorem countsArming_answer (hstart : start < 4) (harm : e.state = .arming) (code : BitVec 3) (display : Bool) (rest : BitVec 11) :
    CountsArming s l i run (.unit start 24 (unitWord 1 (code ++ BitVec.ofBool false ++ BitVec.ofBool display ++ rest)))
      (heard (s.part.line l) run.unit (s.part.ctx run.ctx)) e
      (if (s.part.ctx run.ctx).fresh = true then [] else [slotFault l run.ctx (s.part.line l) .streamProtocol (some (.unitCode 1))]) := by
  obtain ⟨lamps, hread⟩ := readUnit_answer code display rest
  have htake := Part.takeUnit_hello hears.2 (lineId_of_hears hears) hread
  rw [if_neg nofun] at htake
  by_cases hfresh : (s.part.ctx run.ctx).fresh = true
  · rw [if_pos hfresh] at htake ⊢
    exact countsArming_of_received hears hs hsound hk hkp he hsecure hstart harm hears.1.2.2.2.1 rfl ((Context.entry_eq hkp).trans he) htake
  · rw [if_neg hfresh] at htake ⊢
    exact countsArming_misfit hears hs hsound hk hkp he hsecure hstart harm htake

/-- A slot that brings nothing, short of a loss (R51, R52, R56). -/
theorem countsArming_missed (harm : e.state = .arming) {up : Upstream} {early : List Detection}
    (hup : (Silent up ∧ early = []) ∨ (Damaged up ∧ early = [slotFault l run.ctx (s.part.line l) .unitDamaged (some (.slot i))]))
    (hq : (s.part.line l).state = .run → (s.part.ctx run.ctx).miss + 1 < pr.q) :
    CountsArming s l i run up
      { stepped run.unit (s.part.ctx run.ctx) with
        miss := if (s.part.line l).state = .run then (s.part.ctx run.ctx).miss + 1 else (s.part.ctx run.ctx).miss } e early := by
  obtain ⟨hearly, hcls⟩ := damagedUnit_of_bad hears.1 (by rw [hears.2]; nofun) (by rw [hears.2]; nofun) hup
  have htake := (Part.takeUnit_missed (l := l) hears.2 hcls early).trans (Ev.miss_during (by exact hears.1.2.2.2.1) hears.1.2.2.2.2)
  have hnone : (s.part.ctx run.ctx).chip = none := chip_none_of_keypad hsound hears (by rw [hk]; nofun)
  have hentry : (s.part.ctx run.ctx).entry = some e := (Context.entry_eq hkp).trans he
  refine countsArming_of_take hears.1 hearly (htake.trans ?_) hears.1.2.2.2.1 ?_ hentry hsecure harm ((opsOk_of_sound hs run.ctx).entry_mem hentry)
  · by_cases hrun : (s.part.line l).state = .run
    · rw [if_pos hrun, if_pos hrun, if_neg (show ¬ pr.q ≤ (stepped run.unit (s.part.ctx run.ctx)).miss + 1 from Nat.not_le.mpr (hq hrun))]
      rfl
    · rw [if_neg hrun, if_neg hrun]
      rfl
  · show (s.part.ctx run.ctx).session ≠ .sending
    rw [Context.session_none hnone]
    nofun

end

end

/-- Settles O48: the entry and its kind decide what is done with a scan, and whatever leaves a SECURE entry in ARMING counts for it. -/
theorem scanIsDebounced : Obligations.ScanIsDebounced := by
  intro s l i start run pr kp form w hears hstart hs hsound hk hkp c x ln unit up y read unread ended notice at_ goes settles unmasked counts
  have hup : up = unit (scanCode form) w :=
    congrArg (unit · w) (show (match form with | .opened => (2 : BitVec 4) | .masked => 3) = scanCode form by cases form <;> rfl)
  have hended (o : Option Entry) : ended.setCtx c (read o) =
      s.part.during l c ((heard ln run.unit x).read kp form w o) s.part.queue s.part.faults := (Part.during_eq_setCtx ..).symm
  have hentry : x.entry = kp.entry := Context.entry_eq hkp
  rw [hup]
  simp only [hended]
  refine ⟨fun hnone => scan_without_entry hears hs hsound hk hkp hstart (hentry ▸ hnone), fun e he => ?_⟩
  have hclosing (harm : e.state = .arming) : ¬ ∃ e', x.entry = some e' ∧ e'.state = .closing := by
    rintro ⟨e', he', hc⟩
    obtain rfl : e = e' := Option.some.inj (he.symm.trans he')
    rw [harm] at hc
    cases hc
  have he : kp.entry = some e := hentry ▸ he
  refine ⟨fun hform => ?_, fun hsecure => ⟨?_, ?_, fun harm => ⟨?_, fun kind hne h => ?_, fun hlate => ⟨?_, ?_⟩, ?_, fun hq u => ⟨fun hu => ?_, fun hu => ?_⟩⟩⟩⟩
  · exact scan_with_entry hears hs hsound hk hkp hstart he hform
  · rintro rfl harm
    exact endsUnmasked_openScan hears hs hsound hk hkp he hsecure hstart harm w
  · rintro rfl harm
    exact countsArming_openScan hears hs hsound hk hkp he hsecure hstart harm w
  · exact countsArming_quiet hears hs hsound hk hkp he hsecure hstart harm (kind := 0) (by decide) (.inl rfl) w
  · exact countsArming_misfit hears hs hsound hk hkp he hsecure hstart harm
      (takeUnit_misfit hsound hears (fun h => hne (BitVec.eq_of_toNat_eq h)) (by rw [hk]; exact h))
  · exact countsArming_quiet hears hs hsound hk hkp he hsecure hstart harm (kind := 10) (by decide) (.inr (.inl ⟨rfl, .inl rfl, hclosing harm, hlate⟩)) w
  · exact countsArming_quiet hears hs hsound hk hkp he hsecure hstart harm (kind := 11) (by decide) (.inr (.inl ⟨rfl, .inr rfl, hclosing harm, hlate⟩)) w
  · exact countsArming_answer hears hs hsound hk hkp he hsecure hstart harm
  · exact countsArming_missed hears hs hsound hk hkp he hsecure harm (.inl ⟨hu, rfl⟩) hq
  · exact countsArming_missed hears hs hsound hk hkp he hsecure harm (.inr ⟨hu, rfl⟩) hq

end Sys2Proof.Machine
end

section
/-! PROOFS. The values of items (R163): each reader takes from the front of its bytes what the statements' forms write. -/

namespace Sys2Proof.Machine

open Sys2Proof.Safety

/-! ### Numbers -/

theorem numberOf_eq (v : List Byte) : numberOf v = readNum v := by
  induction v with
  | nil => rfl
  | cons b v ih => rw [readNum, ← ih]; rfl

theorem num_one_toNat (b : Byte) : num 1 b.toNat = [b] := by
  show [BitVec.ofNat 8 b.toNat] = [b]
  rw [BitVec.ofNat_toNat, BitVec.setWidth_eq]

theorem num_two_readNum (b1 b2 : Byte) : num 2 (readNum [b1, b2]) = [b1, b2] := by
  rw [num_two, readNum_two]
  congr 1
  · apply BitVec.eq_of_toNat_eq
    simp only [BitVec.toNat_ofNat]
    omega
  · congr 1
    apply BitVec.eq_of_toNat_eq
    simp only [BitVec.toNat_ofNat]
    omega

theorem readNum_two_lt (b1 b2 : Byte) : readNum [b1, b2] < 65536 := by
  rw [readNum_two]
  omega

/-- Two-byte values, least significant byte first, when no byte is left over. -/
theorem flatMap_readWords (v : List Byte) (h : v.length % 2 = 0) : (readWords v).flatMap (num 2) = v := by
  induction v using readWords.induct with
  | case1 b1 b2 rest ih =>
    rw [readWords, List.flatMap_cons, num_two_readNum, ih (by simp only [List.length_cons] at h; omega)]
    rfl
  | case2 v hv =>
    cases v with
    | nil => rfl
    | cons b v =>
      cases v with
      | nil => simp at h
      | cons c v => exact absurd rfl (hv b c v)

theorem readWords_lt (v : List Byte) : ∀ n ∈ readWords v, n < 65536 := by
  induction v using readWords.induct with
  | case1 b1 b2 rest ih =>
    rw [readWords]
    exact List.forall_mem_cons.mpr ⟨readNum_two_lt b1 b2, ih⟩
  | case2 v hv =>
    rw [readWords.eq_2 v hv]
    exact nofun

/-! ### Parts of entries -/

theorem exists_of_length_two {α : Type} {xs : List α} (h : xs.length = 2) : ∃ a b, xs = [a, b] := by
  match xs, h with
  | [a, b], _ => exact ⟨a, b, rfl⟩

section
variable {l rest : List Byte}

theorem takeByte_eq_some {n : Nat} (h : takeByte l = some (n, rest)) : l = num 1 n ++ rest ∧ n < 256 := by
  cases l with
  | nil => cases h
  | cons b l =>
    cases h
    exact ⟨by rw [num_one_toNat]; rfl, b.isLt⟩

theorem takeBytes_eq_some {n : Nat} {v : List Byte} (h : takeBytes n l = some (v, rest)) : l = v ++ rest ∧ v.length = n := by
  unfold takeBytes at h
  split at h
  · rename_i hn
    cases h
    exact ⟨(List.take_append_drop n l).symm, List.length_take_of_le hn⟩
  · cases h

theorem takeOptByte_eq_some {o : Option Nat} (h : takeOptByte l = some (o, rest)) : l = optByte o ++ rest ∧ FitsByte o := by
  cases l with
  | nil => cases h
  | cons b l =>
    simp only [takeOptByte] at h
    split at h
    · rename_i h0
      cases h
      exact ⟨by rw [h0]; rfl, nofun⟩
    split at h
    · rename_i h1
      obtain ⟨⟨n, l'⟩, hn, hx⟩ := Option.map_eq_some_iff.mp h
      cases hx
      obtain ⟨rfl, hlt⟩ := takeByte_eq_some hn
      refine ⟨by rw [h1]; rfl, fun m hm => ?_⟩
      rwa [← Option.some.inj hm]
    · cases h

/-- A text that may be left out of an entry: its presence byte, its length, and its characters. -/
def optText : Option (List Byte) → List Byte
  | none => [0]
  | some t => 1 :: (num 2 t.length ++ t)

theorem takeOptText_eq_some {o : Option (List Byte)} (h : takeOptText l = some (o, rest)) :
    l = optText o ++ rest ∧ ∀ t ∈ o, t.length < 65536 := by
  cases l with
  | nil => cases h
  | cons b l =>
    simp only [takeOptText] at h
    split at h
    · rename_i h0
      cases h
      exact ⟨by rw [h0]; rfl, nofun⟩
    split at h
    · rename_i h1
      split at h
      · rename_i n l' hlen
        obtain ⟨⟨t, l''⟩, ht, hx⟩ := Option.map_eq_some_iff.mp h
        cases hx
        obtain ⟨rfl, hn⟩ := takeBytes_eq_some hlen
        obtain ⟨rfl, htn⟩ := takeBytes_eq_some ht
        obtain ⟨b1, b2, rfl⟩ := exists_of_length_two hn
        refine ⟨by simp [h1, optText, htn, num_two_readNum], fun t' ht' => ?_⟩
        rw [← Option.some.inj ht', htn]
        exact readNum_two_lt b1 b2
      · cases h
    · cases h

end

/-! ### Entries -/

/-- A keypad part as its request carries it: numbers of a byte, and a text of a length that fits its count. -/
def KeypadPartFits (k : KeypadPart) : Prop :=
  FitsByte k.lamp1 ∧ FitsByte k.lamp2 ∧ FitsByte k.lamp3 ∧ FitsByte k.lamp4 ∧ FitsByte k.beep ∧ ∀ t ∈ k.text, t.length < 65536

theorem keypadPartBytes_eq (k : KeypadPart) : keypadPartBytes k =
    optText k.text ++ optByte k.lamp1 ++ optByte k.lamp2 ++ optByte k.lamp3 ++ optByte k.lamp4 ++ optByte k.beep := by
  unfold keypadPartBytes
  cases k.text <;> rfl

theorem readKeypadPart_eq_some {v : List Byte} {k : KeypadPart} (h : readKeypadPart v = some k) : v = keypadPartBytes k ∧ KeypadPartFits k := by
  obtain ⟨⟨t, r0⟩, ht, h⟩ := Option.bind_eq_some_iff.mp h
  obtain ⟨⟨l1, r1⟩, h1, h⟩ := Option.bind_eq_some_iff.mp h
  obtain ⟨⟨l2, r2⟩, h2, h⟩ := Option.bind_eq_some_iff.mp h
  obtain ⟨⟨l3, r3⟩, h3, h⟩ := Option.bind_eq_some_iff.mp h
  obtain ⟨⟨l4, r4⟩, h4, h⟩ := Option.bind_eq_some_iff.mp h
  obtain ⟨⟨b, r5⟩, h5, h⟩ := Option.bind_eq_some_iff.mp h
  obtain ⟨hend, hk⟩ := Option.ite_none_right_eq_some.mp h
  obtain rfl : r5 = [] := hend
  obtain ⟨rfl, ft⟩ := takeOptText_eq_some ht
  obtain ⟨rfl, f1⟩ := takeOptByte_eq_some h1
  obtain ⟨rfl, f2⟩ := takeOptByte_eq_some h2
  obtain ⟨rfl, f3⟩ := takeOptByte_eq_some h3
  obtain ⟨rfl, f4⟩ := takeOptByte_eq_some h4
  obtain ⟨rfl, f5⟩ := takeOptByte_eq_some h5
  cases hk
  exact ⟨by simp [keypadPartBytes_eq], f1, f2, f3, f4, f5, ft⟩

theorem readReaderPart_eq_some {v : List Byte} {r : ReaderPart} (h : readReaderPart v = some r) :
    v = readerPartBytes r ∧ FitsByte r.bezel ∧ FitsByte r.beep := by
  obtain ⟨⟨z, r0⟩, hz, h⟩ := Option.bind_eq_some_iff.mp h
  obtain ⟨⟨b, r1⟩, hb, h⟩ := Option.bind_eq_some_iff.mp h
  obtain ⟨hend, hr⟩ := Option.ite_none_right_eq_some.mp h
  obtain rfl : r1 = [] := hend
  obtain ⟨rfl, fz⟩ := takeOptByte_eq_some hz
  obtain ⟨rfl, fb⟩ := takeOptByte_eq_some hb
  cases hr
  exact ⟨by simp [readerPartBytes], fz, fb⟩

/-- A rule whose numbers are each of a byte. -/
def RuleFieldFits (r : RuleField) : Prop := r.track < 256 ∧ r.start < 256 ∧ r.ends.length < 256 ∧ (∀ n ∈ r.ends, n < 256) ∧ r.count < 256

theorem map_ofNat_toNat (v : List Byte) : (v.map BitVec.toNat).map (BitVec.ofNat 8) = v := by
  rw [List.map_map]
  conv => rhs; rw [← List.map_id v]
  refine List.map_congr_left fun b _ => ?_
  simp

theorem takeRule_eq_some {l rest : List Byte} {r : RuleField} (h : takeRule l = some (r, rest)) : l = ruleBytes r ++ rest ∧ RuleFieldFits r := by
  obtain ⟨⟨t, r0⟩, ht, h⟩ := Option.bind_eq_some_iff.mp h
  obtain ⟨⟨s, r1⟩, hs, h⟩ := Option.bind_eq_some_iff.mp h
  obtain ⟨⟨n, r2⟩, hn, h⟩ := Option.bind_eq_some_iff.mp h
  obtain ⟨⟨e, r3⟩, he, h⟩ := Option.bind_eq_some_iff.mp h
  obtain ⟨⟨c, r4⟩, hc, h⟩ := Option.bind_eq_some_iff.mp h
  cases h
  obtain ⟨rfl, ft⟩ := takeByte_eq_some ht
  obtain ⟨rfl, fs⟩ := takeByte_eq_some hs
  obtain ⟨rfl, fn⟩ := takeByte_eq_some hn
  obtain ⟨rfl, hlen⟩ := takeBytes_eq_some he
  obtain ⟨rfl, fc⟩ := takeByte_eq_some hc
  refine ⟨by simp [ruleBytes, hlen, Function.comp_def], ft, fs, by simpa [hlen] using fn, fun n hn => ?_, fc⟩
  obtain ⟨b, -, rfl⟩ := List.mem_map.mp hn
  exact b.isLt

/-- A setting whose numbers are each of a byte. -/
def SettingFits (x : ClassSetting) : Prop := x.cls < 256 ∧ FitsByte x.detect ∧ FitsByte x.report

theorem takeSetting_eq_some {l rest : List Byte} {x : ClassSetting} (h : takeSetting l = some (x, rest)) : l = settingBytes x ++ rest ∧ SettingFits x := by
  obtain ⟨⟨c, r0⟩, hc, h⟩ := Option.bind_eq_some_iff.mp h
  obtain ⟨⟨d, r1⟩, hd, h⟩ := Option.bind_eq_some_iff.mp h
  obtain ⟨⟨r, r2⟩, hr, h⟩ := Option.bind_eq_some_iff.mp h
  cases h
  obtain ⟨rfl, fc⟩ := takeByte_eq_some hc
  obtain ⟨rfl, fd⟩ := takeOptByte_eq_some hd
  obtain ⟨rfl, fr⟩ := takeOptByte_eq_some hr
  exact ⟨by simp [settingBytes], fc, fd, fr⟩

/-- Entries end to end are the entries that each reading took. -/
theorem readEntries_eq_some {α : Type} {take : List Byte → Option (α × List Byte)} {bytes : α → List Byte} {P : α → Prop}
    (htake : ∀ {l x rest}, take l = some (x, rest) → l = bytes x ++ rest ∧ P x) {fuel : Nat} {l : List Byte} {xs : List α}
    (h : readEntries take fuel l = some xs) : l = xs.flatMap bytes ∧ ∀ x ∈ xs, P x := by
  induction fuel generalizing l xs with
  | zero =>
    cases l with
    | nil =>
      obtain rfl : [] = xs := Option.some.inj h
      exact ⟨rfl, nofun⟩
    | cons b l => cases h
  | succ fuel ih =>
    cases l with
    | nil =>
      obtain rfl : [] = xs := Option.some.inj h
      exact ⟨rfl, nofun⟩
    | cons b l =>
      obtain ⟨⟨x, rest⟩, hx, h⟩ := Option.bind_eq_some_iff.mp h
      obtain ⟨xs', hxs, rfl⟩ := Option.map_eq_some_iff.mp h
      obtain ⟨hl, hp⟩ := htake hx
      obtain ⟨rfl, hps⟩ := ih hxs
      exact ⟨hl.trans rfl, List.forall_mem_cons.mpr ⟨hp, hps⟩⟩

end Sys2Proof.Machine
end

section
/-! PROOFS. The items of a request, and the first failure of steps 1 to 3 of R165. -/

namespace Sys2Proof.Machine

open Sys2Proof.Safety

/-! ### Items (R163) -/

/-- An item as the reader of a message writes it. -/
def itemOf (i : Byte × List Byte) : Item := { code := i.1.toNat, value := i.2 }

theorem itemsBytes_cons (i : Byte × List Byte) (items : List (Byte × List Byte)) :
    itemsBytes (i :: items) = i.1 :: .ofNat 8 i.2.length :: .ofNat 8 (i.2.length / 256) :: (i.2 ++ itemsBytes items) := rfl

theorem splitItems_itemsBytes {items : List (Byte × List Byte)} (hlen : ∀ i ∈ items, i.2.length < 65536) {fuel : Nat} (hfuel : items.length ≤ fuel) :
    splitItems fuel (itemsBytes items) = some (items.map itemOf) := by
  induction items generalizing fuel with
  | nil => rw [show itemsBytes [] = [] from rfl, splitItems]; rfl
  | cons i items ih =>
    obtain ⟨hi, hrest⟩ := List.forall_mem_cons.mp hlen
    obtain ⟨fuel, rfl⟩ := Nat.exists_eq_add_of_lt (show 0 < fuel from Nat.lt_of_lt_of_le (Nat.succ_pos _) hfuel)
    have hnum : readNum [.ofNat 8 i.2.length, .ofNat 8 (i.2.length / 256)] = i.2.length := readNum_num_two hi
    rw [itemsBytes_cons, Nat.zero_add, splitItems, hnum, if_pos (by simp), List.drop_left, List.take_left,
      ih hrest (by simpa using hfuel)]
    rfl

theorem splitItems_eq_some {fuel : Nat} {l : List Byte} {is : List Item} (h : splitItems fuel l = some is) : ∃ items, l = itemsBytes items := by
  induction fuel, l using splitItems.induct generalizing is with
  | case1 => exact ⟨[], rfl⟩
  | case2 fuel c l1 l2 rest hle ih =>
    rw [splitItems, if_pos hle] at h
    obtain ⟨is', his, -⟩ := Option.map_eq_some_iff.mp h
    obtain ⟨items, hitems⟩ := ih his
    have hlen : (rest.take (readNum [l1, l2])).length = readNum [l1, l2] := List.length_take_of_le hle
    refine ⟨(c, rest.take (readNum [l1, l2])) :: items, ?_⟩
    have hbytes := num_two_readNum l1 l2
    rw [num_two] at hbytes
    injection hbytes with h1 h2
    injection h2 with h2
    rw [itemsBytes_cons, hlen, h1, h2, ← hitems, List.take_append_drop]
  | case3 fuel c l1 l2 rest hle =>
    rw [splitItems, if_neg hle] at h
    cases h
  | case4 l fuel hnil hcons =>
    rw [splitItems.eq_3 _ _ hnil hcons] at h
    cases h

theorem length_le_itemsBytes (items : List (Byte × List Byte)) :
    items.length ≤ (itemsBytes items).length ∧ ∀ i ∈ items, i.2.length ≤ (itemsBytes items).length := by
  induction items with
  | nil => exact ⟨Nat.zero_le _, nofun⟩
  | cons i items ih =>
    obtain ⟨hlen, hall⟩ := ih
    rw [itemsBytes_cons]
    simp only [List.length_cons, List.length_append]
    refine ⟨by omega, List.forall_mem_cons.mpr ⟨by omega, fun j hj => ?_⟩⟩
    have := hall j hj
    omega

/-! ### The fields of a kind (R163, R165) -/

/-- What a shape of the reader is made of. -/
def Shape.form : Shape → FieldForm
  | .number w => .number w
  | .list w m => .list w m
  | .text => .text
  | .keypadPart => .entries fun v => (readKeypadPart v).isSome
  | .readerPart => .entries fun v => (readReaderPart v).isSome
  | .rules => .entries fun v => (readRules v).isSome
  | .settings => .entries fun v => (readSettings v).isSome

def formsOf (fields : List Field) : List (Bool × FieldForm) := fields.map fun f => (f.required, f.shape.form)

theorem requestFields_eq (n : Nat) : requestFields n = (fieldTable n).map formsOf := by
  unfold fieldTable
  split
  case h_27 => simp [requestFields, *]
  all_goals rfl

theorem Shape.suits_iff (x : Shape) (v : List Byte) : x.suits v = true ↔ ¬ IllSuited v x.form := by
  cases x with
  | number w => simp only [Shape.suits, Shape.form, IllSuited, Bool.and_eq_true, decide_eq_true_eq]; omega
  | list w m => simp only [Shape.suits, Shape.form, IllSuited, Bool.and_eq_true, decide_eq_true_eq]; omega
  | text => simp [Shape.suits, Shape.form, IllSuited]
  | keypadPart => exact (iff_of_eq (Bool.not_eq_false _)).symm
  | readerPart => exact (iff_of_eq (Bool.not_eq_false _)).symm
  | rules => exact (iff_of_eq (Bool.not_eq_false _)).symm
  | settings => exact (iff_of_eq (Bool.not_eq_false _)).symm

section
variable {fields : List Field}

theorem hasField_iff {code : Nat} {f : Bool × FieldForm} :
    HasField (formsOf fields) code f ↔ ∃ g, fieldOf fields code = some g ∧ (g.required, g.shape.form) = f := by
  unfold HasField formsOf fieldOf
  rw [List.getElem?_map, Option.map_eq_some_iff]
  by_cases h0 : code = 0
  · simp [h0]
  · rw [if_neg h0]
    exact and_iff_right (Nat.pos_of_ne_zero h0)

/-! ### Step 2: the lengths -/

/-- The reader's word for an item whose length does not suit its field. -/
def lengthBadItem (fields : List Field) (i : Item) : Bool :=
  match fieldOf fields i.code with
  | some f => !f.shape.suits i.value
  | none => false

theorem lengthBadItem_iff {i : Byte × List Byte} : lengthBadItem fields (itemOf i) = true ↔ ItemBad (formsOf fields) i := by
  unfold lengthBadItem ItemBad
  simp only [hasField_iff]
  cases hf : fieldOf fields (itemOf i).code with
  | none => simp [show fieldOf fields i.1.toNat = none from hf]
  | some g =>
    simp only [show fieldOf fields i.1.toNat = some g from hf, Option.some.injEq, Bool.not_eq_true']
    rw [← Bool.not_eq_true, Shape.suits_iff, Classical.not_not]
    exact ⟨fun h => ⟨_, ⟨g, rfl, rfl⟩, h⟩, fun ⟨_, ⟨_, hg, hf⟩, h⟩ => by subst hg hf; exact h⟩

theorem lengthFault_of_first {before after : List (Byte × List Byte)} {i : Byte × List Byte} (hb : ∀ x ∈ before, ¬ ItemBad (formsOf fields) x)
    (hi : ItemBad (formsOf fields) i) : lengthFault fields ((before ++ i :: after).map itemOf) = some i.1.toNat := by
  have hfind : ((before ++ i :: after).map itemOf).find? (lengthBadItem fields) = some (itemOf i) := by
    rw [List.find?_eq_some_iff_append]
    refine ⟨lengthBadItem_iff.mpr hi, before.map itemOf, after.map itemOf, by simp, fun a ha => ?_⟩
    obtain ⟨x, hx, rfl⟩ := List.mem_map.mp ha
    simpa using mt lengthBadItem_iff.mp (hb x hx)
  exact congrArg (Option.map Item.code) hfind

theorem lengthFault_of_none {items : List (Byte × List Byte)} (h : ∀ x ∈ items, ¬ ItemBad (formsOf fields) x) :
    lengthFault fields (items.map itemOf) = none := by
  have hfind : (items.map itemOf).find? (lengthBadItem fields) = none := by
    rw [List.find?_eq_none]
    intro a ha
    obtain ⟨x, hx, rfl⟩ := List.mem_map.mp ha
    exact mt lengthBadItem_iff.mp (h x hx)
  exact congrArg (Option.map Item.code) hfind

/-! ### Step 3: the codes, and what is left out -/

/-- An item of a code that the kind has not, or that came before. -/
def Strange (fields : List (Bool × FieldForm)) (before : List (Byte × List Byte)) (i : Byte × List Byte) : Prop :=
  (¬ ∃ f, HasField fields i.1.toNat f) ∨ ∃ x ∈ before, x.1 = i.1

/-- The codes that the reader has seen are those of the items before. -/
def Seen (seen : List Nat) (before : List (Byte × List Byte)) : Prop := ∀ b : Byte, b.toNat ∈ seen ↔ ∃ x ∈ before, x.1 = b

theorem Seen.cons {seen : List Nat} {before : List (Byte × List Byte)} (h : Seen seen before) (i : Byte × List Byte) :
    Seen (i.1.toNat :: seen) (before ++ [i]) := by
  intro b
  have heq : b.toNat = i.1.toNat ↔ i.1 = b := ⟨fun h => (BitVec.eq_of_toNat_eq h).symm, fun h => by rw [h]⟩
  simp only [List.mem_cons, List.mem_append, List.not_mem_nil, or_false, or_and_right, exists_or, exists_eq_left, h b, heq]
  exact or_comm

theorem strange_iff {seen : List Nat} {before : List (Byte × List Byte)} (h : Seen seen before) (i : Byte × List Byte) :
    ((fieldOf fields (itemOf i).code).isNone || seen.contains (itemOf i).code) = true ↔ Strange (formsOf fields) before i := by
  rw [Bool.or_eq_true, Option.isNone_iff_eq_none, List.contains_iff_mem, Strange, ← h i.1]
  refine or_congr_left ?_
  simp only [hasField_iff]
  cases hf : fieldOf fields i.1.toNat <;> simp [itemOf, hf]

theorem codeFault_go_of_first {before after pre : List (Byte × List Byte)} {i : Byte × List Byte} {seen : List Nat} (hseen : Seen seen pre)
    (hb : ∀ b x a, before = b ++ x :: a → ¬ Strange (formsOf fields) (pre ++ b) x) (hi : Strange (formsOf fields) (pre ++ before) i) :
    codeFault.go fields seen ((before ++ i :: after).map itemOf) = some i.1.toNat := by
  induction before generalizing pre seen with
  | nil =>
    rw [List.append_nil] at hi
    exact if_pos ((strange_iff hseen i).mpr hi)
  | cons x before ih =>
    have hx : ¬ Strange (formsOf fields) pre x := by simpa using hb [] x before rfl
    refine (if_neg (mt (strange_iff hseen x).mp hx)).trans (ih (hseen.cons x) (fun b y a h => ?_) (by simpa using hi))
    simpa using hb (x :: b) y a (by rw [h]; rfl)

theorem codeFault_go_of_none {items pre : List (Byte × List Byte)} {seen : List Nat} (hseen : Seen seen pre)
    (h : ∀ b x a, items = b ++ x :: a → ¬ Strange (formsOf fields) (pre ++ b) x) : codeFault.go fields seen (items.map itemOf) = none := by
  induction items generalizing pre seen with
  | nil => rfl
  | cons x items ih =>
    have hx : ¬ Strange (formsOf fields) pre x := by simpa using h [] x items rfl
    refine (if_neg (mt (strange_iff hseen x).mp hx)).trans (ih (hseen.cons x) fun b y a hb => ?_)
    simpa using h (x :: b) y a (by rw [hb]; rfl)

theorem seen_nil : Seen [] [] := fun b => by simp

theorem codeFault_of_first {before after : List (Byte × List Byte)} {i : Byte × List Byte}
    (hb : ∀ b x a, before = b ++ x :: a → ¬ Strange (formsOf fields) b x) (hi : Strange (formsOf fields) before i) :
    codeFault fields ((before ++ i :: after).map itemOf) = some i.1.toNat := codeFault_go_of_first seen_nil hb hi

theorem codeFault_of_none {items : List (Byte × List Byte)} (h : ∀ b x a, items = b ++ x :: a → ¬ Strange (formsOf fields) b x) :
    codeFault fields (items.map itemOf) = none := codeFault_go_of_none seen_nil h

/-- A field that must be there and is left out. -/
def Missing (fields : List (Bool × FieldForm)) (items : List (Byte × List Byte)) (code : Nat) : Prop :=
  (∃ f, HasField fields code (true, f)) ∧ ∀ x ∈ items, x.1.toNat ≠ code

/-- The reader's word for it. -/
def leftOut (fields : List Field) (items : List Item) (n : Nat) : Bool :=
  match fields[n]? with
  | some f => f.required && !(items.any fun i => i.code == n + 1)
  | none => false

theorem leftOut_iff {items : List (Byte × List Byte)} {n : Nat} :
    leftOut fields (items.map itemOf) n = true ↔ Missing (formsOf fields) items (n + 1) := by
  unfold leftOut Missing
  simp only [hasField_iff, fieldOf, Nat.succ_ne_zero, if_false, Nat.add_sub_cancel]
  cases fields[n]? with
  | none => simp
  | some g => simp [itemOf]

theorem missingField_of_first {items : List (Byte × List Byte)} {code : Nat} (h : Missing (formsOf fields) items code)
    (hfirst : ∀ n, n < code → ¬ Missing (formsOf fields) items n) : missingField fields (items.map itemOf) = some code := by
  obtain ⟨n, rfl⟩ : ∃ n, code = n + 1 := by
    obtain ⟨⟨f, hpos, -⟩, -⟩ := h
    exact ⟨code - 1, by omega⟩
  have hlt : n < fields.length := by
    obtain ⟨⟨f, -, hf⟩, -⟩ := h
    obtain ⟨hlt, -⟩ := List.getElem?_eq_some_iff.mp hf
    simpa [formsOf] using hlt
  have hfind : (List.range fields.length).find? (leftOut fields (items.map itemOf)) = some n := by
    rw [List.find?_range_eq_some]
    refine ⟨leftOut_iff.mpr h, List.mem_range.mpr hlt, fun j hj => ?_⟩
    simpa using mt leftOut_iff.mp (hfirst (j + 1) (by omega))
  exact congrArg (Option.map (· + 1)) hfind

theorem missingField_of_none {items : List (Byte × List Byte)} (h : ∀ code, ¬ Missing (formsOf fields) items code) :
    missingField fields (items.map itemOf) = none := by
  have hfind : (List.range fields.length).find? (leftOut fields (items.map itemOf)) = none := by
    rw [List.find?_range_eq_none]
    exact fun j _ => by simpa using mt leftOut_iff.mp (h (j + 1))
  exact congrArg (Option.map (· + 1)) hfind

end

end Sys2Proof.Machine
end

section
/-! PROOFS. A whole good message is taken as the request that its items carry, or refused at its first failure (O9). -/

namespace Sys2Proof.Machine

open Sys2Proof.Safety

/-! ### The request that good items carry -/

/-- No check of steps 2 and 3 of R165 stops these items, field by field. -/
structure GoodItems (fields : List (Bool × FieldForm)) (items : List (Byte × List Byte)) : Prop where
  present : ∀ code f, HasField fields code (true, f) → (valueAt items code).isSome = true
  suits   : ∀ code f v, HasField fields code f → valueAt items code = some v → ¬ IllSuited v f.2

theorem goodItems_of_checks {fields : List (Bool × FieldForm)} {items : List (Byte × List Byte)} (hbad : ∀ x ∈ items, ¬ ItemBad fields x)
    (hmissing : ∀ code, ¬ Missing fields items code) : GoodItems fields items where
  present := by
    intro code f hf
    rw [valueAt, Option.isSome_map, List.find?_isSome]
    refine Classical.byContradiction fun hnone => ?_
    exact hmissing code ⟨⟨f, hf⟩, fun x hx hcode => hnone ⟨x, hx, beq_iff_eq.mpr hcode⟩⟩
  suits := by
    intro code f v hf hv
    obtain ⟨i, hi, rfl⟩ := Option.map_eq_some_iff.mp hv
    obtain rfl : i.1.toNat = code := beq_iff_eq.mp (List.find?_some (p := fun i : Byte × List Byte => i.1.toNat == code) hi)
    exact fun h => hbad i (List.mem_of_find?_eq_some hi) ⟨f, hf, h⟩

theorem itemValue_eq (items : List (Byte × List Byte)) (code : Nat) : itemValue (items.map itemOf) code = valueAt items code := by
  rw [itemValue, valueAt, List.find?_map, Option.map_map]
  rfl

theorem optNum_eq (items : List (Byte × List Byte)) (code : Nat) : optNum (items.map itemOf) code = (valueAt items code).map numberOf := by
  rw [optNum, itemValue_eq, funext numberOf_eq]

theorem optBytes_eq (items : List (Byte × List Byte)) (code : Nat) :
    optBytes (items.map itemOf) code = (valueAt items code).map fun v => v.map BitVec.toNat := by
  rw [optBytes, itemValue_eq]

section
variable {fields : List (Bool × FieldForm)} {items : List (Byte × List Byte)} (h : GoodItems fields items)
include h

/-- A number that must be there. -/
theorem GoodItems.number (n : Nat) {f : FieldForm} (hf : fields[n]? = some (true, f)) :
    (valueAt items (n + 1)).map numberOf = some (theNum (items.map itemOf) (n + 1)) := by
  obtain ⟨v, hv⟩ := Option.isSome_iff_exists.mp (h.present (n + 1) f ⟨Nat.succ_pos n, hf⟩)
  rw [theNum, optNum_eq, hv]
  rfl

/-- A list that must be there. -/
theorem GoodItems.value (n : Nat) {f : FieldForm} (hf : fields[n]? = some (true, f)) :
    valueAt items (n + 1) = some ((itemValue (items.map itemOf) (n + 1)).getD []) := by
  obtain ⟨v, hv⟩ := Option.isSome_iff_exists.mp (h.present (n + 1) f ⟨Nat.succ_pos n, hf⟩)
  rw [itemValue_eq, hv]
  rfl

theorem GoodItems.bytes (n : Nat) {f : FieldForm} (hf : fields[n]? = some (true, f)) :
    ((valueAt items (n + 1)).map fun v => v.map BitVec.toNat) = some ((optBytes (items.map itemOf) (n + 1)).getD []) := by
  obtain ⟨v, hv⟩ := Option.isSome_iff_exists.mp (h.present (n + 1) f ⟨Nat.succ_pos n, hf⟩)
  rw [optBytes_eq, hv]
  rfl

/-- Entries that a reading takes: the value is what the reading's entries write. -/
theorem GoodItems.entries {α : Type} {read : List Byte → Option α} {bytes : α → List Byte} {P : α → Prop}
    (hread : ∀ {v x}, read v = some x → v = bytes x ∧ P x) (n : Nat) {b : Bool}
    (hf : fields[n]? = some (b, .entries fun v => (read v).isSome)) :
    valueAt items (n + 1) = ((itemValue (items.map itemOf) (n + 1)).bind read).map bytes ∧
      ∀ x ∈ (itemValue (items.map itemOf) (n + 1)).bind read, P x := by
  rw [itemValue_eq]
  cases hv : valueAt items (n + 1) with
  | none => exact ⟨rfl, nofun⟩
  | some v =>
    have hsome : (read v).isSome = true := (Bool.not_eq_false _).mp (h.suits (n + 1) _ v ⟨Nat.succ_pos n, hf⟩ hv)
    obtain ⟨x, hx⟩ := Option.isSome_iff_exists.mp hsome
    obtain ⟨hbytes, hp⟩ := hread hx
    refine ⟨by rw [Option.bind_some, hx, hbytes]; rfl, fun y hy => ?_⟩
    obtain rfl : x = y := Option.some.inj (hx.symm.trans hy)
    exact hp

theorem GoodItems.rules (n : Nat) (hf : fields[n]? = some (false, .entries fun v => (readRules v).isSome)) :
    valueAt items (n + 1) = ((itemValue (items.map itemOf) (n + 1)).bind readRules).map (·.flatMap ruleBytes) ∧
      ∀ rules ∈ (itemValue (items.map itemOf) (n + 1)).bind readRules, ∀ r ∈ rules, RuleFieldFits r :=
  h.entries (fun hx => readEntries_eq_some takeRule_eq_some hx) n hf

theorem GoodItems.settings (n : Nat) (hf : fields[n]? = some (false, .entries fun v => (readSettings v).isSome)) :
    valueAt items (n + 1) = ((itemValue (items.map itemOf) (n + 1)).bind readSettings).map (·.flatMap settingBytes) ∧
      ∀ xs ∈ (itemValue (items.map itemOf) (n + 1)).bind readSettings, ∀ x ∈ xs, SettingFits x :=
  h.entries (fun hx => readEntries_eq_some takeSetting_eq_some hx) n hf

theorem GoodItems.words (n : Nat) {b : Bool} {m : Nat} (hf : fields[n]? = some (b, .list 2 m)) :
    valueAt items (n + 1) = ((itemValue (items.map itemOf) (n + 1)).map readWords).map (·.flatMap (num 2)) ∧
      ∀ ws ∈ (itemValue (items.map itemOf) (n + 1)).map readWords, ∀ w ∈ ws, w < 65536 := by
  rw [itemValue_eq]
  cases hv : valueAt items (n + 1) with
  | none => exact ⟨rfl, nofun⟩
  | some v =>
    have heven : v.length % 2 = 0 := by
      refine Classical.byContradiction fun hodd => ?_
      exact h.suits (n + 1) _ v ⟨Nat.succ_pos n, hf⟩ hv (.inl hodd)
    refine ⟨by rw [Option.map_some, Option.map_some, flatMap_readWords v heven], fun ws hws => ?_⟩
    obtain rfl : readWords v = ws := Option.some.inj hws
    exact readWords_lt v

end

/-- Good items of a kind make its request (R163, R169). -/
theorem buildRequest_carries {kind : Nat} {fields : List (Bool × FieldForm)} {items : List (Byte × List Byte)}
    (hkind : requestFields kind = some fields) (h : GoodItems fields items) :
    ∃ r, buildRequest kind (items.map itemOf) = some r ∧ (requestKind r).toNat = kind ∧ Carries items r := by
  have num := optNum_eq items
  have bytes := optBytes_eq items
  unfold requestFields at hkind
  split at hkind
  case h_27 => cases hkind
  all_goals obtain rfl := Option.some.inj hkind
  case h_1 => exact ⟨.status, rfl, rfl, trivial⟩
  case h_2 => exact ⟨.restart, rfl, rfl, trivial⟩
  case h_3 => exact ⟨.lineSetup .., rfl, rfl, show _ ∧ _ from ⟨h.number 0 rfl, h.number 1 rfl, h.number 2 rfl, h.number 3 rfl⟩⟩
  case h_4 => exact ⟨.lineStart _, rfl, rfl, h.number 0 rfl⟩
  case h_5 => exact ⟨.lineStop _, rfl, rfl, h.number 0 rfl⟩
  case h_6 => exact ⟨.loadSchedule .., rfl, rfl, show _ ∧ _ from ⟨h.number 0 rfl, h.bytes 1 rfl⟩⟩
  case h_7 => exact ⟨.readSchedule _, rfl, rfl, h.number 0 rfl⟩
  case h_8 => exact ⟨.bindPosition .., rfl, rfl, show _ ∧ _ from ⟨h.number 0 rfl, (num 2).symm, (num 3).symm⟩⟩
  case h_9 =>
    obtain ⟨hk, fk⟩ := h.entries readKeypadPart_eq_some 1 rfl
    obtain ⟨hr, fr⟩ := h.entries readReaderPart_eq_some 2 rfl
    exact ⟨.setIndicators .., rfl, rfl, show _ ∧ _ from ⟨h.number 0 rfl, hk, hr, fk, fr⟩⟩
  case h_10 =>
    exact ⟨.openEntry .., rfl, rfl, show _ ∧ _ from ⟨h.number 0 rfl, h.number 1 rfl, h.number 2 rfl, h.number 3 rfl, (bytes 5).symm, (num 6).symm,
      (num 7).symm, (num 8).symm, (num 9).symm, (itemValue_eq items 10).symm⟩⟩
  case h_11 => exact ⟨.cancelEntry _, rfl, rfl, h.number 0 rfl⟩
  case h_12 => exact ⟨.armReader .., rfl, rfl, show _ ∧ _ from ⟨h.number 0 rfl, h.number 1 rfl, (num 3).symm⟩⟩
  case h_13 => exact ⟨.disarmReader _, rfl, rfl, h.number 0 rfl⟩
  case h_14 =>
    obtain ⟨hr, fr⟩ := h.rules 6 rfl
    exact ⟨.dropProfile .., rfl, rfl, show _ ∧ _ from ⟨h.number 0 rfl, (num 2).symm, (num 3).symm, (num 4).symm, (num 5).symm, (num 6).symm, hr,
      (num 8).symm, fr⟩⟩
  case h_15 => exact ⟨.dropRelease _, rfl, rfl, h.number 0 rfl⟩
  case h_16 => exact ⟨.chipStart _, rfl, rfl, h.number 0 rfl⟩
  case h_17 => exact ⟨.chipExchange .., rfl, rfl, show _ ∧ _ from ⟨h.number 0 rfl, h.value 1 rfl⟩⟩
  case h_18 => exact ⟨.chipStop _, rfl, rfl, h.number 0 rfl⟩
  case h_19 => exact ⟨.releaseCard _, rfl, rfl, h.number 0 rfl⟩
  case h_20 => exact ⟨.setLevels .., rfl, rfl, show _ ∧ _ from ⟨h.number 0 rfl, h.number 1 rfl⟩⟩
  case h_21 =>
    obtain ⟨hx, fx⟩ := h.settings 0 rfl
    exact ⟨.faultSetup .., rfl, rfl, show _ ∧ _ from ⟨hx, (num 2).symm, fx⟩⟩
  case h_22 => exact ⟨.readFaults, rfl, rfl, trivial⟩
  case h_23 => exact ⟨.clearFaults, rfl, rfl, trivial⟩
  case h_24 =>
    obtain ⟨hw, fw⟩ := h.words 1 rfl
    exact ⟨.loopStart .., rfl, rfl, show _ ∧ _ from ⟨h.number 0 rfl, hw, (num 3).symm, (num 4).symm, (num 5).symm, (bytes 6).symm, fw⟩⟩
  case h_25 => exact ⟨.loopStop _, rfl, rfl, h.number 0 rfl⟩
  case h_26 => exact ⟨.readLoopResults _, rfl, rfl, h.number 0 rfl⟩

/-- The other way round: a request that a kind's items make is of that kind. -/
theorem requestKind_of_build {kind : Nat} {is : List Item} {r : Request} (h : buildRequest kind is = some r) : (requestKind r).toNat = kind := by
  unfold buildRequest at h
  split at h
  case h_27 => cases h
  all_goals
    obtain rfl := Option.some.inj h
    rfl

/-! ### The first failure of R165 -/

section
variable {kind : Nat} {fields : List Field} {items : List (Byte × List Byte)}

theorem readRequest_unknown {rest : List Byte} (h : requestFields kind = none) : readRequest kind rest = .bad .unknownKind 0 := by
  rw [requestFields_eq, Option.map_eq_none_iff] at h
  simp only [readRequest, h]

theorem readRequest_unsplit {rest : List Byte} (hf : fieldTable kind = some fields) (h : ∀ items, rest ≠ itemsBytes items) :
    readRequest kind rest = .bad .badLength 0 := by
  have hsplit : splitItems rest.length rest = none := by
    cases hs : splitItems rest.length rest with
    | none => rfl
    | some is =>
      obtain ⟨items, hitems⟩ := splitItems_eq_some hs
      exact absurd hitems (h items)
  simp only [readRequest, hf, hsplit]

section
variable (hf : fieldTable kind = some fields) (hlen : (itemsBytes items).length ≤ 1198)
include hf hlen

omit hf in
theorem splitItems_of_short : splitItems (itemsBytes items).length (itemsBytes items) = some (items.map itemOf) := by
  obtain ⟨hcount, hall⟩ := length_le_itemsBytes items
  refine splitItems_itemsBytes (fun i hi => ?_) hcount
  have := hall i hi
  omega

theorem readRequest_badLength {code : Nat} (h : lengthFault fields (items.map itemOf) = some code) :
    readRequest kind (itemsBytes items) = .bad .badLength code := by
  simp only [readRequest, hf, splitItems_of_short hlen, h]

theorem readRequest_badCode {code : Nat} (h1 : lengthFault fields (items.map itemOf) = none) (h2 : codeFault fields (items.map itemOf) = some code) :
    readRequest kind (itemsBytes items) = .bad .badField code := by
  simp only [readRequest, hf, splitItems_of_short hlen, h1, h2]

theorem readRequest_missing {code : Nat} (h1 : lengthFault fields (items.map itemOf) = none) (h2 : codeFault fields (items.map itemOf) = none)
    (h3 : missingField fields (items.map itemOf) = some code) : readRequest kind (itemsBytes items) = .bad .badField code := by
  simp only [readRequest, hf, splitItems_of_short hlen, h1, h2, h3]

theorem readRequest_good {r : Request} (h1 : lengthFault fields (items.map itemOf) = none) (h2 : codeFault fields (items.map itemOf) = none)
    (h3 : missingField fields (items.map itemOf) = none) (hr : buildRequest kind (items.map itemOf) = some r) :
    readRequest kind (itemsBytes items) = .good r := by
  simp only [readRequest, hf, splitItems_of_short hlen, h1, h2, h3, hr]

end

/-- A good reading is of the kind of its message. -/
theorem requestKind_of_read {rest : List Byte} {r : Request} (h : readRequest kind rest = .good r) : (requestKind r).toNat = kind := by
  unfold readRequest at h
  split at h
  · cases h
  split at h
  · cases h
  split at h
  · cases h
  · cases h
  · cases h
  split at h
  · rename_i hr
    cases h
    exact requestKind_of_build hr
  · cases h

theorem requestKind_of_message {body : List Byte} {r : Request} (h : (readMessage body).read = .good r) :
    requestKind r = (readMessage body).kind := by
  match body, h with
  | kind :: tag :: rest, h => exact BitVec.eq_of_toNat_eq (requestKind_of_read h)

end

/-! ### The message is taken -/

section
variable {s : State} (hs : Ready s) (hrx : s.part.link.rx = []) {body : List Byte} (h1 : 2 ≤ body.length) (h2 : body.length ≤ 1200)
include hs hrx h1 h2

theorem exec_message : exec (.linkMessageReceived (wireMessage body)) s = .next { s with part := s.part.receive (readMessage body) } := by
  simp only [exec, execLinkMessageReceived, effect_eq, State.onPart]
  rw [Part.takeBytes_wireMessage (listening_iff.mpr ⟨hs.1, hs.2.1⟩) hrx h1 h2]

/-- A message whose reading is a refusal is answered with it. -/
theorem exec_message_bad {code : RefusalCode} {field : Nat} (h : (readMessage body).read = .bad code field) :
    exec (.linkMessageReceived (wireMessage body)) s =
      .next (Replied s s.part (readMessage body).tag (readMessage body).kind (.refused code field)) := by
  obtain ⟨hphase, hrestart, hhand, hheld⟩ := id hs
  rw [exec_message hs hrx h1 h2]
  simp [Part.receive, listening_iff.mpr ⟨hphase, hrestart⟩, hhand, Part.take, Part.judgeMessage, h, Part.modLink, Part.setLink, Link.refreshRts,
    Link.rtsLevel, Replied, hphase, hrestart, hheld]

/-- A message whose reading is a request runs as the request's own row. -/
theorem exec_message_good {r : Request} (h : (readMessage body).read = .good r) (hkind : requestKind r = (readMessage body).kind) :
    exec (.linkMessageReceived (wireMessage body)) s = exec (command (readMessage body).tag r) s := by
  have hmessage : readMessage body = requestMessage r (readMessage body).tag := by rw [requestMessage, hkind, ← h]
  rw [exec_message hs hrx h1 h2, exec_command, arrive, effect_eq, ← hmessage]
  rfl

end

/-- Settles O9: the reading of the body refuses at its first failure, or is the request that its items carry. -/
theorem goodMessageIsTaken : Obligations.GoodMessageIsTaken := by
  refine ⟨fun s body hs hrx h1 h2 => ?_, fun s kind tag rest hs hrx hlen => ?_⟩
  · intro m
    cases hread : m.read with
    | bad code field => exact exec_message_bad hs hrx h1 h2 hread
    | good r =>
      exact exec_message_good hs hrx h1 h2 hread (requestKind_of_message hread)
  · intro refused
    have h1 : 2 ≤ (kind :: tag :: rest).length := by simp
    have h2 : (kind :: tag :: rest).length ≤ 1200 := by simp only [List.length_cons]; omega
    have hrefused (code : RefusalCode) (field : Nat) (h : readRequest kind.toNat rest = .bad code field) : refused code field :=
      exec_message_bad hs hrx h1 h2 h
    refine ⟨fun hkind => hrefused _ _ (readRequest_unknown hkind), fun forms hkind => ?_⟩
    obtain ⟨fields, hf, rfl⟩ := Option.map_eq_some_iff.mp ((requestFields_eq _).symm.trans hkind)
    refine ⟨fun h => hrefused _ _ (readRequest_unsplit hf h), ?_⟩
    rintro items rfl
    refine ⟨?_, fun hgood => ?_⟩
    · rintro before i after rfl hb hi
      exact hrefused _ _ (readRequest_badLength hf hlen (lengthFault_of_first hb hi))
    · intro strange
      have hlength := lengthFault_of_none hgood
      refine ⟨?_, fun hcodes => ?_⟩
      · rintro before i after rfl hb hi
        exact hrefused _ _ (readRequest_badCode hf hlen hlength (codeFault_of_first hb hi))
      · intro missing
        have hcode := codeFault_of_none hcodes
        refine ⟨fun code h hfirst => ?_, fun hnone => ?_⟩
        · exact hrefused _ _ (readRequest_missing hf hlen hlength hcode (missingField_of_first h hfirst))
        · obtain ⟨r, hr, hkr, hcarries⟩ := buildRequest_carries hkind (goodItems_of_checks hgood hnone)
          have hread := readRequest_good hf hlen hlength hcode (missingField_of_none hnone) hr
          have hkr : requestKind r = kind := BitVec.eq_of_toNat_eq hkr
          exact ⟨r, hkr, hcarries, exec_message_good hs hrx h1 h2 hread hkr⟩

end Sys2Proof.Machine
end
